-- ==== Sys2Proof/Word.lean ====
section
/-! DEFINITION. The word types of the module: bytes, 64-bit registers, 64-byte lines and the identifiers whose
widths R5, R46, R83 and R104 give. -/

namespace Sys2Proof

/-- One byte. -/
abbrev Byte := BitVec 8
/-- A register (R6). -/
abbrev Word := BitVec 64
/-- A 64-byte line; byte 0 in the low bits (R5). -/
abbrev Line := BitVec 512
/-- A tenant or pool address (R46). -/
abbrev Addr := BitVec 52
/-- A node ID. -/
abbrev NodeId := BitVec 12
/-- A tenant ID. -/
abbrev TenantId := BitVec 12
/-- A Coldel connection ID (R91). -/
abbrev ConnId := BitVec 16
/-- A transaction ID (R104). -/
abbrev Txid := BitVec 16
/-- An agent ID. -/
abbrev AgentId := BitVec 10
/-- A Coldel sequence number, grant or audit value (R122). -/
abbrev Seq24 := BitVec 24
/-- A map kept as pairs with strictly rising keys. -/
abbrev Table (α : Type) := List (Nat × α)
/-- A memory or register store: only the entries that differ from what an unlisted key reads as. -/
abbrev Store (w : Nat) := Table (BitVec w)

end Sys2Proof
end

