-- ==== Sys2Proof/Syntax.lean ====
section
/-! DEFINITION. The commands of the block: one constructor of `Instr` per row of the table of operations and
events, with the operands the rules give that step. -/

namespace Sys2Proof

/-- The tag of a received Ethernet frame (R78). -/
inductive Tag where
  | none
  | ctag (vid : BitVec 12) (pcp : BitVec 3)
  | other
  deriving DecidableEq, Repr

/-- A frame received on a cage port: the port, whether the FCS was good, the addresses, the tag, the EtherType
and the bytes after the EtherType without the FCS (R82, R111). -/
structure RxFrame where
  port : Nat
  fcsGood : Bool
  dst : BitVec 48
  src : BitVec 48
  tag : Tag
  etherType : BitVec 16
  body : List Byte
  deriving DecidableEq, Repr

/-- Who sends a CSR request: an in-band connection, or a management source (R510). -/
inductive CsrSrc where
  | inband (conn : ConnId) (txid : Txid)
  | mgmt (ip : BitVec 32) (port : BitVec 16) (txid : Txid)
  deriving DecidableEq, Repr

/-- The request opcodes of R103. -/
inductive ReqOp where
  | readShared | readOwn | upgrade | readNoCache | writeNoCache | writeBack | evictClean
  | fetchAdd | swap | compareSwap | fence
  deriving DecidableEq, Repr

/-- The header of a request (R104). `addr` holds TA on a connection and PA in a Picot envelope (R119). -/
structure ReqHdr where
  retry : BitVec 4
  sz16 : Bool
  scope : Bool
  tenant : TenantId
  txid : Txid
  agent : AgentId
  addr : Addr
  deriving DecidableEq, Repr

/-- A request with its tail (R104); fields that its opcode does not use are 0. -/
structure Req where
  op : ReqOp
  hdr : ReqHdr
  mask : BitVec 64
  data : Line
  opa : BitVec 128
  opb : BitVec 128
  deriving DecidableEq, Repr

/-- The response opcodes of R103. -/
inductive RespOp where
  | data | dataOwned | ack | nak | atomicData
  deriving DecidableEq, Repr

/-- A response (R106). -/
structure Resp where
  op : RespOp
  status : BitVec 4
  consumed : Bool
  tenant : TenantId
  txid : Txid
  agent : AgentId
  pa : Addr
  hint : BitVec 16
  epoch : BitVec 16
  redirect : NodeId
  line : Line
  old : BitVec 128
  deriving DecidableEq, Repr

/-- The snoop opcodes of R103. -/
inductive SnpOp where
  | shared | invalid | ownerFwd
  deriving DecidableEq, Repr

/-- A snoop (R107). -/
structure Snp where
  op : SnpOp
  tenant : TenantId
  snptx : BitVec 16
  agent : AgentId
  pa : Addr
  deriving DecidableEq, Repr

/-- A snoop response (R107); `data` is some line for SnpRspData. -/
structure SnpResp where
  newState : BitVec 3
  wbif : Bool
  dirty : Bool
  tenant : TenantId
  snptx : BitVec 16
  agent : AgentId
  pa : Addr
  data : Option Line
  deriving DecidableEq, Repr

/-- A Coldel message (R103). -/
inductive Msg where
  | csrRead (txid : Txid) (addr : BitVec 32)
  | csrWrite (txid : Txid) (addr : BitVec 32) (wdata : Word)
  | csrRsp (status : BitVec 4) (hint : BitVec 16) (txid : Txid) (rdata : Word)
  | req (r : Req)
  | resp (r : Resp)
  | snp (s : Snp)
  | snpRsp (s : SnpResp)
  deriving DecidableEq, Repr

/-- A path record's triple (R137), with the engine that holds it. -/
structure PathKey where
  engine : Nat
  port : Nat
  mac : BitVec 48
  vid : BitVec 12
  deriving DecidableEq, Repr

/-- A Picot channel of this module: the record bank and the peer's node ID (R241). -/
structure ChanId where
  bank : Bool
  peer : NodeId
  deriving DecidableEq, Repr

/-- The Picot envelope of R119. -/
structure Envelope where
  origin : NodeId
  oconn : ConnId
  epoch : BitVec 16
  hslot : BitVec 24
  deriving DecidableEq, Repr

/-- An entry of a RoleState message (R263). -/
inductive RoleEntry where
  | copy (off : BitVec 64) (line : Line)
  | dirent (pa : Addr) (entry : BitVec 80)
  | residual (pa : Addr)
  | movedTx (origin : NodeId) (oconn : ConnId) (txid : Txid) (agent : AgentId) (pa : Addr)
  | result (origin : NodeId) (oconn : ConnId) (txid : Txid) (resp : BitVec 256)
  | lineDone (pa : Addr) (entry : BitVec 80)
  | bobbin (gsn : BitVec 48)
  | endMark
  | abort
  deriving DecidableEq, Repr

/-- What start finds on one DDR5 channel (R333, R334, R338, R339). -/
structure ChanPop where
  dpc : Nat
  ranks : Nat
  stack : Nat
  capGib : Nat
  speed : Nat
  missing : Bool
  spdBad : Bool
  unsupported : Bool
  trainFail : Bool
  deriving DecidableEq, Repr

/-- What a start meets: the sampled straps, the population, the known-answer test results, the values drawn
from the hardware random source and the input that is present (R248, R297, R329, R369, R478, R530). -/
structure StartIn where
  shelfId : BitVec 5
  hoopN : Bool
  pop : List ChanPop
  compFail : BitVec 8
  decFail : BitVec 16
  pipeFail : BitVec 32
  rgen : BitVec 32
  lgen : BitVec 32
  deriving DecidableEq, Repr

/-- The two input feeds (R449). -/
inductive Feed where
  | a | b
  deriving DecidableEq, Repr

/-- What a plugged module answers on the two-wire interface (R538). -/
structure CmisInfo where
  answers : Bool
  ident : BitVec 8
  rev : BitVec 8
  maxPower : BitVec 8
  copper : Bool
  media : BitVec 8
  appsel : BitVec 4
  deriving DecidableEq, Repr

/-- Junction and board temperatures in °C (R532 to R535). -/
structure Thermal where
  die0 : Int
  die1 : Int
  inlet : Int
  outlet : Int
  pmu : Int
  deriving DecidableEq, Repr

/-- What the shelf SMBus controller puts on the bus (R532): a command byte, and whether it wrote a data byte. -/
structure SmbusCmd where
  command : BitVec 8
  wroteData : Bool
  deriving DecidableEq, Repr

/-- What `LINE_READ_RETURN` was read for (R352, ECC_UELOG0.SOURCE). -/
inductive ReadSource where
  | demand | rmw | patrol | migration | lender | replica | region
  deriving DecidableEq, Repr

/-- A part of the DRAIN save area that reads uncorrectable in both copies at a resume (R467): a directory entry by its way,
a home transaction, parked request or result-cache entry by its line, a connection, a Picot channel, the metering
accumulators, the counter banks, or the applied configuration. -/
inductive SaveLoss where
  | dirEntry (way : Nat)
  | homeRecord (line : Nat)
  | connection (conn : ConnId)
  | channel (chan : ChanId)
  | metering
  | counters
  | config
  deriving DecidableEq, Repr

/-- The commands of the block, in the order of the table of operations and events. -/
inductive Instr where
  | data (f : RxFrame)
  | ack (f : RxFrame)
  | nak (f : RxFrame)
  | heartbeat (f : RxFrame)
  | connect (f : RxFrame) (isn : Seq24)
  | close (f : RxFrame)
  | audit (f : RxFrame)
  | pause (f : RxFrame)
  | sync (f : RxFrame) (offset : Int)
  | holdover
  | standaloneAck (conn : ConnId)
  | sendData (conn : ConnId) (tc : BitVec 2)
  | replayTimerExpiry (conn : ConnId)
  | heartbeatSend (path : PathKey)
  | pathBroken (path : PathKey)
  | pathUp (path : PathKey)
  | creditTimeout (conn : ConnId) (tc : BitVec 2)
  | auditSend (conn : ConnId)
  | holdFlush (conn : ConnId)
  | csrRead (src : CsrSrc) (addr : BitVec 32)
  | csrWrite (src : CsrSrc) (addr : BitVec 32) (wdata : Word)
  | rwsWrite (src : CsrSrc) (addr : BitVec 32) (wdata : Word)
  | csrTimeout (src : CsrSrc) (addr : BitVec 32) (write : Bool)
  | mgtDatagram (ip : BitVec 32) (port : BitVec 16) (payload : List Byte)
  | arp (senderMac : BitVec 48) (senderIp targetIp : BitVec 32)
  | icmpEcho (srcIp dstIp : BitVec 32) (ident seqNo : BitVec 16) (payload : List Byte)
  | mgtLink
  | readShared (conn : ConnId) (hdr : ReqHdr)
  | readOwn (conn : ConnId) (hdr : ReqHdr)
  | upgrade (conn : ConnId) (hdr : ReqHdr)
  | readNoCache (conn : ConnId) (hdr : ReqHdr)
  | writeNoCache (conn : ConnId) (hdr : ReqHdr) (mask : BitVec 64) (line : Line)
  | writeBack (conn : ConnId) (hdr : ReqHdr) (line : Line)
  | evictClean (conn : ConnId) (hdr : ReqHdr)
  | fetchAdd (conn : ConnId) (hdr : ReqHdr) (opa : BitVec 128)
  | swap (conn : ConnId) (hdr : ReqHdr) (opa : BitVec 128)
  | compareSwap (conn : ConnId) (hdr : ReqHdr) (opa opb : BitVec 128)
  | fence (conn : ConnId) (hdr : ReqHdr)
  | snpRsp (conn : ConnId) (newState : BitVec 3) (wbif : Bool) (tenant : TenantId) (snptx : BitVec 16)
      (agent : AgentId) (pa : Addr)
  | snpRspData (conn : ConnId) (newState : BitVec 3) (dirty : Bool) (tenant : TenantId) (snptx : BitVec 16)
      (agent : AgentId) (pa : Addr) (line : Line)
  | fwdToHome (chan : ChanId) (env : Envelope) (inner : Msg)
  | fwdToOrigin (chan : ChanId) (env : Envelope) (inner : Msg)
  | resultRelease (chan : ChanId) (origin : NodeId) (oconn : ConnId) (txid : Txid)
  | declareDead (src : CsrSrc) (wdata : Word)
  | deadNotice (chan : ChanId) (done : Bool) (node declarer : NodeId) (dseq : BitVec 16)
  | picotFrame (f : RxFrame)
  | picotReplayTimer (chan : ChanId)
  | picotIdleUnit (chan : ChanId)
  | picotPathBroken (chan : ChanId)
  | chanStart (chan : ChanId) (echov : Bool) (src dst : NodeId) (bank : Bool) (rgen rgenEcho poolver : BitVec 32)
  | chanstartResend (chan : ChanId)
  | seqReq (chan : ChanId) (kind : BitVec 2) (node : NodeId) (rtag epoch : BitVec 16) (pa : Addr)
      (mask : BitVec 64) (line : Line)
  | seqGrant (chan : ChanId) (status : BitVec 2) (node : NodeId) (rtag epoch : BitVec 16) (seqno : BitVec 48)
  | seqBusyResend (rtag : BitVec 16)
  | replApply (chan : ChanId) (kind : BitVec 2) (node : NodeId) (rtag epoch : BitVec 16) (pa : Addr)
      (seqno : BitVec 48) (line : Line)
  | replDone (chan : ChanId) (status : BitVec 2) (node : NodeId) (rtag : BitVec 16) (seqno : BitVec 48)
  | lendReq (chan : ChanId) (kind : Bool) (node : NodeId) (rtag : BitVec 16) (frame count : BitVec 32)
  | lendGrant (chan : ChanId) (status : BitVec 2) (node : NodeId) (rtag : BitVec 16) (frame count lgen : BitVec 32)
  | remAccess (chan : ChanId) (kind : BitVec 2) (node : NodeId) (rtag : BitVec 16) (line : BitVec 6)
      (frame lgen : BitVec 32) (pa : Addr) (owner : TenantId) (gen : BitVec 16) (ksel : Bool)
      (poison : BitVec 64) (data : Line)
  | remAnswer (chan : ChanId) (status : BitVec 2) (node : NodeId) (rtag : BitVec 16) (line : BitVec 6)
      (frame lgen : BitVec 32) (data : Line)
  | roleState (chan : ChanId) (kind : BitVec 4) (node : NodeId) (epoch : BitVec 16) (entries : List RoleEntry)
  | roleResend (chan : ChanId) (node : NodeId) (oconn : ConnId) (txid : Txid)
  | hoffGo (src : CsrSrc) (wdata : Word)
  | hoffAbort (src : CsrSrc) (wdata : Word)
  | hoffCopyDone
  | hoffLost
  | handoffWindowClose
  | trnAssignAssign (src : CsrSrc) (wdata : Word)
  | trnAssignReassign (src : CsrSrc) (wdata : Word)
  | trnAssignRelease (src : CsrSrc) (wdata : Word)
  | assignDone
  | trnInvTenantRange (src : CsrSrc) (wdata : Word)
  | trnInvTenant (src : CsrSrc) (wdata : Word)
  | trnInvAll (src : CsrSrc) (wdata : Word)
  | trnInvDone
  | trnEtDataWrite (src : CsrSrc) (wdata : Word)
  | trnEtDataRead (src : CsrSrc)
  | lineReadReturn (frame : Nat) (line : Nat) (source : ReadSource) (err : BitVec 640)
  | mergeEntryClose (group : Nat) (line : Nat)
  | patrolRead
  | dimmTempRead (channel : Nat) (temp : Int)
  | chanHalt (channel : Nat)
  | memRetireClear (src : CsrSrc) (channel : Nat) (wdata : Word)
  | memFlipctl (src : CsrSrc) (channel : Nat) (wdata : Word)
  | eccPflip (src : CsrSrc) (wdata : Word)
  | dirPflip (src : CsrSrc) (wdata : Word)
  | dirBlindClr (src : CsrSrc) (wdata : Word)
  | scan
  | heatEpoch
  | migrationComplete (page : Nat)
  | migAbandon (page : Nat)
  | segmentStore (page : Nat) (seg : Nat)
  | segmentFill (page : Nat) (seg : Nat)
  | cmpTestDecode (src : CsrSrc) (wdata : Word)
  | cmpTestCompress (src : CsrSrc) (wdata : Word)
  | cmpTestDone
  | cmpPflip (src : CsrSrc) (wdata : Word)
  | load (src : CsrSrc) (wdata : Word)
  | clearSlot (src : CsrSrc) (wdata : Word)
  | keySlotReload (die : Nat) (slot : BitVec 12) (uncorrectable : Bool)
  | xtsZeroise (src : CsrSrc) (wdata : Word)
  | alarmWindow
  | rekeyDone (tenant : TenantId)
  | tick
  | snapshot
  | mtrCons (src : CsrSrc) (wdata : Word)
  | mtrLrdRead (src : CsrSrc)
  | mtrTaccRead (src : CsrSrc)
  | ppsIn (width : Nat)
  | ppsOut
  | counterOverflow (bank ctr : Nat) (txid : Txid) (tenant : TenantId) (tv : Bool)
  | prfCtl (src : CsrSrc) (bank ctr : Nat) (wdata : Word)
  | freeze (src : CsrSrc) (wdata : Word)
  | clear (src : CsrSrc) (wdata : Word)
  | dump
  | prfDrdRead (src : CsrSrc)
  | causeClear (src : CsrSrc) (block : BitVec 16) (wdata : Word)
  | fltfirstClear (src : CsrSrc) (block : BitVec 16) (wdata : Word)
  | fltovfClear (src : CsrSrc) (block : BitVec 16) (wdata : Word)
  | holdoffExpiry (block : BitVec 16) (code : BitVec 8)
  | ntqPop (src : CsrSrc)
  | ntqRelease (src : CsrSrc) (wdata : Word)
  | mark (src : CsrSrc) (wdata : Word)
  | rewind (src : CsrSrc) (wdata : Word)
  | feedGood (feed : Feed) (mv : Nat)
  | feedLow (feed : Feed) (mv : Nat)
  | feedAbsent (feed : Feed) (mv : Nat)
  | feedOvercurrent (feed : Feed)
  | rtavailUpdate (loadW soc vpackMv : Nat) (ipack10ma : Int) (edlcFcc : Nat)
  | rideExpiry (energyShort : Bool)
  | drainComplete
  | returnMs (feed : Feed)
  | resumeComplete (lost : List SaveLoss) (inp : StartIn)
  | retentionExhausted
  | stbyEnter (src : CsrSrc) (wdata : Word)
  | stbyExit (src : CsrSrc) (wdata : Word)
  | captest (src : CsrSrc) (wdata : Word)
  | capabort (src : CsrSrc) (wdata : Word)
  | captestDone (energyTenthWh : Nat)
  | packTempRead (temp : Int) (sensorOk : Bool)
  | gaugePoll (answered overTemp overCharge : Bool)
  | chargeTermination
  | packCheck (present voltageOk thermistorOk gaugeOk reversed : Bool) (full : Bool)
  | moduleReset (src : CsrSrc) (wdata : Word) (inp : StartIn)
  | warmReset (src : CsrSrc) (wdata : Word) (inp : StartIn)
  | mcRestart (reason : BitVec 2)
  | rstN (widthNs : Nat) (inp : StartIn)
  | coldStart (inp : StartIn)
  | poolReady
  | pmuRestart
  | sequencer (engine : Nat)
  | tierSequencer
  | resetA (src : CsrSrc) (block : Nat) (wdata : Word)
  | resetB (src : CsrSrc) (block : Nat) (wdata : Word)
  | linkDown (port : Nat)
  | linkUp (port : Nat)
  | fecDegrade (port : Nat) (uncorrectable : BitVec 32)
  | presence (cage : Nat) (info : CmisInfo)
  | moduleReady (cage : Nat)
  | dpActivated (cage : Nat)
  | cageTimeout (cage : Nat)
  | cmisPoll (cage : Nat) (temp : Int) (intFlag highTemp losOrLol : Bool)
  | presenceLost (cage : Nat)
  | cageOvercurrent (cage : Nat)
  | cageReset (src : CsrSrc) (cage : Nat) (wdata : Word)
  | hostown (src : CsrSrc) (cage : Nat) (wdata : Word)
  | cmisTransfer (src : CsrSrc) (cage : Nat) (wdata : Word)
  | thermalWarn (t : Thermal)
  | thermalTrip (t : Thermal)
  | smbusBlockRead (cmd : SmbusCmd)
  | commit (src : CsrSrc) (wdata : Word)
  | check (src : CsrSrc) (wdata : Word)
  | cancel (src : CsrSrc) (wdata : Word)
  | discard (src : CsrSrc) (wdata : Word)
  | checkDone
  | groupProgrammed (failed : Bool)
  | commitInstant
  | appliedRecord (failed : Bool)
  | eraseDone
  | erase (src : CsrSrc) (wdata : Word)
  | program (src : CsrSrc) (wdata : Word)
  | verify (src : CsrSrc) (wdata : Word)
  | start (src : CsrSrc) (wdata : Word) (inp : StartIn)
  | revert (src : CsrSrc) (wdata : Word)
  | updateStep
  | stepFail
  | fwuConfirm (src : CsrSrc) (wdata : Word) (fusesFail : Bool)
  | wrq (srcIp : BitVec 32) (srcPort : BitVec 16) (filename mode : String) (bundle : List Byte)
  | rrq (srcIp : BitVec 32) (srcPort : BitVec 16) (filename mode : String)
  | tftpRetransmit
  | recoveryWritten (inp : StartIn)
  | islandFault
  | powerCycleOutOfLock
  | mcRestartDone
  | rstNRelease
  | picotGraceExpiry (chan : ChanId)
  | chargeRestart
  | cutBackRelease (feed : Feed)
  | fwuOperationDone (failed : Bool)
  | cmisTransferDone (cage : Nat) (noAck : Bool) (rdata : Word)
  deriving DecidableEq, Repr

end Sys2Proof
end

