-- ==== Sys2Proof/Config.lean ====
section
/-! DEFINITION. What an implementation fixes and the spec leaves open: constants and free values with no body. -/

namespace Sys2Proof.Config

/-- GBL_ID.GRADE: 0 for grade C, 1 for grade E (factory). -/
opaque grade : BitVec 1
/-- GBL_ID.BOARDREV (factory). -/
opaque boardRev : BitVec 4
/-- GBL_SERIAL (factory). -/
opaque serial : BitVec 64
/-- The management port's MAC (factory). -/
opaque mgtMac : BitVec 48
/-- CDL_MACADDR.MAC of port block n (factory). -/
opaque portMac : Nat → BitVec 48

/-- Which free frame the tier engine takes next (R273 names only the die): a free value of the model's counter. -/
opaque framePick : Nat → Nat
/-- Which line of the reserved space, counted from its start, a line of a reserved frame holds (R337 fixes no placement). -/
opaque regionLine : Nat → Nat → Nat
/-- Which frame a line of the reserved space stands in (R337 fixes no placement). -/
opaque regionFrame : Nat → Nat
/-- The cycles of a microsecond in which a channel group's bus turns around (event 8) or refreshes (event 9), by the model's
counter: no rule says when (R418). -/
opaque busCycles : Nat → Nat → Nat → Nat
/-- Which maximal-length polynomial the sampling LFSR has (R274 gives none). -/
opaque lfsrPoly : Nat
/-- The compressor's hash of the next three bytes (R323 gives no function). -/
opaque hash3 : BitVec 24 → BitVec 12
/-- The device private key d (R372, fused). -/
opaque deviceKey : Nat
/-- The device public key Q (R372). -/
opaque devicePub : Nat × Nat

/-- Which engine in service runs the next segment (R327 fixes only the order of work). -/
opaque enginePick : Nat → Nat

/-- The raw capacity of a spare in bytes, which R252 compares: no message of the spec tells the member. -/
opaque spareRaw : BitVec 12 → Nat
/-- The size of a spare's translation region in bytes, which R252 compares: no message of the spec tells the member. -/
opaque spareRegion : BitVec 12 → Nat
/-- Whether a spare holds a key in a slot at the instant of GO (R252): the node, the slot, and the model's counter. -/
opaque spareHasKey : BitVec 12 → Nat → Nat → Bool
/-- How a clock's edges fall in a microsecond of PTP time (0 the FAB domain, 1 + g the domain of channel group g; by the
model's counter): the PTP counter is disciplined, the clocks are not (R396). -/
opaque drift : Nat → Nat → Nat
/-- The pages of the image that the module left the factory with (R482). -/
opaque factoryImage : Nat → BitVec 2048
/-- The hardware random source (R248, R297), for a reset whose command does not carry what it draws. -/
opaque random : Nat → BitVec 32
/-- Whether an RST_N pulse between 2 and 10 µs acts (R528). -/
opaque rstActs : Nat → Bool
/-- A configuration format of this level has no way to express the register with this key (R501): no rule describes a
format but the running one. -/
opaque inexpressible : Nat → Nat → Bool
/-- The text that RRQ "status" answers (R505 says what it tells, not its wording): of the RESULT of each slot, FWU_BOOT,
FWU_ARB and the last bundle's outcome. -/
opaque statusText : Nat → Nat → BitVec 64 → BitVec 64 → Nat → List (BitVec 8)
/-- SHA-384 of the signing key, fused at manufacture (R486). -/
opaque signingHash : BitVec 384
/-- L_HW of the silicon (R498). -/
opaque hwLevel : BitVec 16

end Sys2Proof.Config
end

