-- ==== Sys2Proof/Machine/Causes.lean ====
section
/-! DEFINITION. The fault causes of every block, with their codes and severities (R73, R121, R165, R191, R237, R268, R304,
R332, R363 to R365, R393, R424, R425, R448, R477, R509, R521, R535). Severities: 1 NOTE, 2 DEGRADE, 3 ERROR, 4 HALT, 5 LOCK. -/

namespace Sys2Proof.Machine

/-- The kinds of block that hold fault registers, in the order of their MAP bits (R426). -/
inductive Blk where
  | gbl
  | cfg
  | fwu
  | pmu
  | port
  | dir
  | pool
  | trn
  | tier
  | cmp
  | xts
  | mem
  | ecc
  | mtr
  | prf
  | ntq
  deriving DecidableEq, Repr

/-- The severity of a cause (the cause tables of each chapter); 0 for a code that names none. -/
def causeSev (k : Blk) (code : Nat) : Nat :=
  match k with
  | .gbl => match code with
    | 1 => 2  -- MC_RESTART
    | 2 => 3  -- XBAR_PARITY
    | 3 => 2  -- MGT_LINK
    | 4 => 3  -- CSR_TIMEOUT
    | 5 => 2  -- THERMAL_WARN
    | 6 => 4  -- THERMAL_TRIP
    | _ => 0
  | .cfg => match code with
    | 1 => 3  -- NVM_PROGRAM
    | 2 => 1  -- GROUP_SKIPPED
    | 3 => 3  -- BANK_PARITY
    | 4 => 1  -- COMPACTED
    | _ => 0
  | .fwu => match code with
    | 1 => 2  -- SLOT_BAD
    | 2 => 3  -- NVM_FAIL
    | 3 => 4  -- HOOP
    | 4 => 3  -- STEP_FAIL
    | 5 => 1  -- TRIAL
    | 6 => 1  -- CONFIRMED
    | 7 => 2  -- FUSES_OUT
    | 8 => 3  -- FUSE_FAIL
    | _ => 0
  | .pmu => match code with
    | 1 => 2  -- FEED_A_LOST
    | 2 => 2  -- FEED_B_LOST
    | 3 => 2  -- INPUT_LOST
    | 4 => 4  -- DRAIN
    | 5 => 2  -- RT_UNAVAIL
    | 6 => 2  -- PACK_TEMP
    | 7 => 2  -- PACK_FAULT
    | 8 => 1  -- GAUGE_LOST
    | 9 => 2  -- PACK_EOL
    | 10 => 2  -- PMU_RESTART
    | 11 => 3  -- RESUME_LOSS
    | 12 => 2  -- FEED_OVERCURRENT
    | 13 => 5  -- ISLAND_FAULT
    | 14 => 1  -- CAPTEST_DONE
    | 15 => 1  -- RST_IGNORED
    | _ => 0
  | .port => match code with
    | 1 => 4  -- LINK_DOWN
    | 2 => 2  -- FEC_DEGRADE
    | 3 => 3  -- PROTOCOL
    | 4 => 1  -- RXQ_PARITY
    | 5 => 4  -- SEQUENCER
    | 6 => 4  -- CAGE_FAULT
    | 16 => 2  -- PATH_BROKEN
    | 17 => 3  -- NO_PATH
    | 18 => 3  -- CREDIT_AUDIT
    | 19 => 2  -- CREDIT_TIMEOUT
    | 20 => 3  -- HOLD_FLUSH
    | 21 => 3  -- RB_PARITY
    | 22 => 1  -- RESULT_FULL
    | 23 => 1  -- DEAD_DECLARED
    | _ => 0
  | .dir => match code with
    | 1 => 3  -- OWNER_LOST
    | 2 => 3  -- BAD_SNPRSP
    | 3 => 1  -- STRAY_WB
    | 4 => 1  -- PARK_DOUBLE
    | 16 => 1  -- TAG_PARITY
    | 17 => 2  -- ENTRY_PARITY
    | 18 => 2  -- BLIND_WAY
    | 19 => 3  -- DOUBLE_DIRTY
    | 20 => 3  -- RECORD_PARITY
    | 21 => 2  -- REPLICA_DROP
    | 22 => 1  -- SEQ_BUSY
    | _ => 0
  | .pool => match code with
    | 1 => 2  -- VERSKEW
    | 2 => 3  -- CHAN_DOWN
    | 3 => 1  -- HOFF_DROP
    | 4 => 1  -- HOFF_ABORT
    | 5 => 1  -- RELAY_FULL
    | 6 => 3  -- TBL_PARITY
    | _ => 0
  | .trn => match code with
    | 1 => 1  -- XC_PARITY
    | 2 => 3  -- TBL_PARITY
    | 3 => 3  -- ET_UNCORR
    | 4 => 3  -- SLOT_UNCORR
    | 5 => 3  -- DESC_BAD
    | _ => 0
  | .tier => match code with
    | 1 => 2  -- FREE_LOW
    | 2 => 3  -- FREE_EMPTY
    | 3 => 1  -- MIG_ABANDON
    | 4 => 2  -- SEQUENCER
    | 5 => 1  -- SC_PARITY
    | 6 => 3  -- SC_DIRTY_PARITY
    | 7 => 2  -- FTBL_UNCORR
    | 8 => 1  -- AGE_UNCORR
    | 9 => 1  -- LEND_REFUSED
    | 10 => 3  -- LENDER_LOST
    | 11 => 3  -- REMOTE_POISON
    | _ => 0
  | .cmp => match code with
    | 1 => 3  -- ILLEGAL_CODE
    | 2 => 3  -- DISTANCE_BEYOND_HISTORY
    | 3 => 3  -- LENGTH_OVERRUN
    | 4 => 3  -- INPUT_UNDERRUN
    | 5 => 3  -- CHECK_MISMATCH
    | 6 => 1  -- ENGINE_PARITY
    | 7 => 3  -- ENGINE_PARITY2
    | 8 => 2  -- BIST_FAIL
    | 9 => 4  -- NO_DECOMP
    | 10 => 2  -- NO_COMP
    | 11 => 1  -- VERIFY
    | _ => 0
  | .xts => match code with
    | 1 => 3  -- OWNER_ALARM
    | 2 => 5  -- ALARM_LOCK
    | 3 => 2  -- KT_PARITY
    | 4 => 3  -- KT_FAILED
    | 5 => 3  -- NO_KEY
    | 6 => 5  -- HOST_ZEROISE
    | 7 => 1  -- REKEY_DUE
    | 8 => 2  -- BUDGET_OVER
    | 9 => 1  -- REKEY_DONE
    | 10 => 2  -- PIPE_BIST
    | 11 => 4  -- NO_PIPE
    | _ => 0
  | .mem => match code with
    | 1 => 1  -- CE
    | 2 => 3  -- UE_READ
    | 3 => 3  -- UE_MERGE
    | 4 => 2  -- DEV_RETIRE
    | 5 => 2  -- TRAIN_FAIL
    | 6 => 2  -- POPULATION
    | 7 => 1  -- CA_PARITY
    | 8 => 4  -- CHAN_HALT
    | 9 => 1  -- HOT_REFRESH
    | 10 => 2  -- THROTTLE
    | 11 => 1  -- RQ_PARITY
    | 12 => 3  -- WQ_PARITY
    | _ => 0
  | .ecc => match code with
    | 1 => 3  -- MB_PARITY
    | 2 => 3  -- PATROL_UE
    | 3 => 4  -- DIE_EMPTY
    | 4 => 3  -- TMAP_UE
    | _ => 0
  | .mtr => match code with
    | 1 => 1  -- LEDGER_FULL
    | 2 => 2  -- PTP_HOLDOVER
    | 3 => 1  -- PTP_OFFSET
    | 4 => 2  -- ACC_PARITY
    | 5 => 2  -- LEDGER_UE
    | _ => 0
  | .prf => match code with
    | 1 => 1  -- CNT_PARITY
    | 2 => 1  -- SAMPLE
    | _ => 0
  | .ntq => match code with
    | 1 => 2  -- OVERRUN
    | 2 => 2  -- ENTRY_PARITY
    | _ => 0

namespace Cause
def gbl_MC_RESTART : Nat := 1
def gbl_XBAR_PARITY : Nat := 2
def gbl_MGT_LINK : Nat := 3
def gbl_CSR_TIMEOUT : Nat := 4
def gbl_THERMAL_WARN : Nat := 5
def gbl_THERMAL_TRIP : Nat := 6
def cfg_NVM_PROGRAM : Nat := 1
def cfg_GROUP_SKIPPED : Nat := 2
def cfg_BANK_PARITY : Nat := 3
def cfg_COMPACTED : Nat := 4
def fwu_SLOT_BAD : Nat := 1
def fwu_NVM_FAIL : Nat := 2
def fwu_HOOP : Nat := 3
def fwu_STEP_FAIL : Nat := 4
def fwu_TRIAL : Nat := 5
def fwu_CONFIRMED : Nat := 6
def fwu_FUSES_OUT : Nat := 7
def fwu_FUSE_FAIL : Nat := 8
def pmu_FEED_A_LOST : Nat := 1
def pmu_FEED_B_LOST : Nat := 2
def pmu_INPUT_LOST : Nat := 3
def pmu_DRAIN : Nat := 4
def pmu_RT_UNAVAIL : Nat := 5
def pmu_PACK_TEMP : Nat := 6
def pmu_PACK_FAULT : Nat := 7
def pmu_GAUGE_LOST : Nat := 8
def pmu_PACK_EOL : Nat := 9
def pmu_PMU_RESTART : Nat := 10
def pmu_RESUME_LOSS : Nat := 11
def pmu_FEED_OVERCURRENT : Nat := 12
def pmu_ISLAND_FAULT : Nat := 13
def pmu_CAPTEST_DONE : Nat := 14
def pmu_RST_IGNORED : Nat := 15
def port_LINK_DOWN : Nat := 1
def port_FEC_DEGRADE : Nat := 2
def port_PROTOCOL : Nat := 3
def port_RXQ_PARITY : Nat := 4
def port_SEQUENCER : Nat := 5
def port_CAGE_FAULT : Nat := 6
def port_PATH_BROKEN : Nat := 16
def port_NO_PATH : Nat := 17
def port_CREDIT_AUDIT : Nat := 18
def port_CREDIT_TIMEOUT : Nat := 19
def port_HOLD_FLUSH : Nat := 20
def port_RB_PARITY : Nat := 21
def port_RESULT_FULL : Nat := 22
def port_DEAD_DECLARED : Nat := 23
def dir_OWNER_LOST : Nat := 1
def dir_BAD_SNPRSP : Nat := 2
def dir_STRAY_WB : Nat := 3
def dir_PARK_DOUBLE : Nat := 4
def dir_TAG_PARITY : Nat := 16
def dir_ENTRY_PARITY : Nat := 17
def dir_BLIND_WAY : Nat := 18
def dir_DOUBLE_DIRTY : Nat := 19
def dir_RECORD_PARITY : Nat := 20
def dir_REPLICA_DROP : Nat := 21
def dir_SEQ_BUSY : Nat := 22
def pool_VERSKEW : Nat := 1
def pool_CHAN_DOWN : Nat := 2
def pool_HOFF_DROP : Nat := 3
def pool_HOFF_ABORT : Nat := 4
def pool_RELAY_FULL : Nat := 5
def pool_TBL_PARITY : Nat := 6
def trn_XC_PARITY : Nat := 1
def trn_TBL_PARITY : Nat := 2
def trn_ET_UNCORR : Nat := 3
def trn_SLOT_UNCORR : Nat := 4
def trn_DESC_BAD : Nat := 5
def tier_FREE_LOW : Nat := 1
def tier_FREE_EMPTY : Nat := 2
def tier_MIG_ABANDON : Nat := 3
def tier_SEQUENCER : Nat := 4
def tier_SC_PARITY : Nat := 5
def tier_SC_DIRTY_PARITY : Nat := 6
def tier_FTBL_UNCORR : Nat := 7
def tier_AGE_UNCORR : Nat := 8
def tier_LEND_REFUSED : Nat := 9
def tier_LENDER_LOST : Nat := 10
def tier_REMOTE_POISON : Nat := 11
def cmp_ILLEGAL_CODE : Nat := 1
def cmp_DISTANCE_BEYOND_HISTORY : Nat := 2
def cmp_LENGTH_OVERRUN : Nat := 3
def cmp_INPUT_UNDERRUN : Nat := 4
def cmp_CHECK_MISMATCH : Nat := 5
def cmp_ENGINE_PARITY : Nat := 6
def cmp_ENGINE_PARITY2 : Nat := 7
def cmp_BIST_FAIL : Nat := 8
def cmp_NO_DECOMP : Nat := 9
def cmp_NO_COMP : Nat := 10
def cmp_VERIFY : Nat := 11
def xts_OWNER_ALARM : Nat := 1
def xts_ALARM_LOCK : Nat := 2
def xts_KT_PARITY : Nat := 3
def xts_KT_FAILED : Nat := 4
def xts_NO_KEY : Nat := 5
def xts_HOST_ZEROISE : Nat := 6
def xts_REKEY_DUE : Nat := 7
def xts_BUDGET_OVER : Nat := 8
def xts_REKEY_DONE : Nat := 9
def xts_PIPE_BIST : Nat := 10
def xts_NO_PIPE : Nat := 11
def mem_CE : Nat := 1
def mem_UE_READ : Nat := 2
def mem_UE_MERGE : Nat := 3
def mem_DEV_RETIRE : Nat := 4
def mem_TRAIN_FAIL : Nat := 5
def mem_POPULATION : Nat := 6
def mem_CA_PARITY : Nat := 7
def mem_CHAN_HALT : Nat := 8
def mem_HOT_REFRESH : Nat := 9
def mem_THROTTLE : Nat := 10
def mem_RQ_PARITY : Nat := 11
def mem_WQ_PARITY : Nat := 12
def ecc_MB_PARITY : Nat := 1
def ecc_PATROL_UE : Nat := 2
def ecc_DIE_EMPTY : Nat := 3
def ecc_TMAP_UE : Nat := 4
def mtr_LEDGER_FULL : Nat := 1
def mtr_PTP_HOLDOVER : Nat := 2
def mtr_PTP_OFFSET : Nat := 3
def mtr_ACC_PARITY : Nat := 4
def mtr_LEDGER_UE : Nat := 5
def prf_CNT_PARITY : Nat := 1
def prf_SAMPLE : Nat := 2
def ntq_OVERRUN : Nat := 1
def ntq_ENTRY_PARITY : Nat := 2
end Cause

end Sys2Proof.Machine
end

