-- ==== Sys2Proof/Machine/Types.lean ====
section
/-! DEFINITION. Wire-level types that the state holds. -/

namespace Sys2Proof

/-- A Picot message (R119, R156, R161, R236, R249, R263, R300). -/
inductive PMsg where
  | fwdToHome (env : Envelope) (inner : Msg)
  | fwdToOrigin (env : Envelope) (inner : Msg)
  | resultRelease (origin : NodeId) (oconn : ConnId) (txid : Txid)
  | deadNotice (done : Bool) (node declarer : NodeId) (dseq : BitVec 16)
  | seqReq (kind : BitVec 2) (node : NodeId) (rtag epoch : BitVec 16) (pa : Addr) (mask : BitVec 64) (line : Line)
  | seqGrant (status : BitVec 2) (node : NodeId) (rtag epoch : BitVec 16) (seqno : BitVec 48)
  | replApply (kind : BitVec 2) (node : NodeId) (rtag epoch : BitVec 16) (pa : Addr) (seqno : BitVec 48) (line : Line)
  | replDone (status : BitVec 2) (node : NodeId) (rtag : BitVec 16) (seqno : BitVec 48)
  | lendReq (kind : Bool) (node : NodeId) (rtag : BitVec 16) (frame count : BitVec 32)
  | lendGrant (status : BitVec 2) (node : NodeId) (rtag : BitVec 16) (frame count lgen : BitVec 32)
  | remAccess (kind : BitVec 2) (node : NodeId) (rtag : BitVec 16) (line : BitVec 6) (frame lgen : BitVec 32)
      (pa : Addr) (owner : TenantId) (gen : BitVec 16) (ksel : Bool) (poison : BitVec 64) (data : Line)
  | remAnswer (status : BitVec 2) (node : NodeId) (rtag : BitVec 16) (line : BitVec 6) (frame lgen : BitVec 32)
      (data : Option Line)
  | roleState (kind : BitVec 4) (node : NodeId) (epoch : BitVec 16) (entries : List RoleEntry)
  | roleResend (node : NodeId) (oconn : ConnId) (txid : Txid)
  | chanStart (echov : Bool) (src dst : NodeId) (bank : Bool) (rgen rgenEcho poolver : BitVec 32)
  deriving DecidableEq, Repr

/-- A Coldel header (R83). -/
structure CHdr where
  ver : Nat
  type : Nat
  tc : Nat
  ackreq : Bool
  retx : Bool
  alt : Bool
  conn : Nat
  seq : Seq24
  ack : Seq24
  plen : Nat
  cg0 : Seq24
  cg1 : Seq24
  cg2 : Seq24
  cg3 : Seq24
  deriving DecidableEq, Repr

end Sys2Proof
end

