-- ==== Sys2Proof/Machine/HomeTypes.lean ====
section
/-! DEFINITION. The types of the home, its directory, the pool and its Picot channels (spec/04 to spec/08). -/

namespace Sys2Proof.Machine

/-- STATE of a directory entry (R206). -/
inductive DSt where
  | free | s | em | o | trans
  deriving DecidableEq, Repr

/-- A directory entry (R206): `shr` lists the sharers under FMT 0, `gvec` the groups under FMT 1. -/
structure DirEnt where
  tag : BitVec 30
  st : DSt
  opn : Bool
  fmt : Bool
  owner : AgentId
  shr : List AgentId
  gvec : BitVec 32
  deriving DecidableEq, Repr

/-- A way: its entry, the entry bytes and mirror bytes whose parity is wrong (R207, R237), and whether such a fault was
found while a transaction ran (R221). -/
structure Way where
  ent : DirEnt
  eBad : BitVec 10
  mBad : BitVec 4
  found : Bool
  deriving DecidableEq, Repr

/-- The key of a transaction (R154). -/
structure TxKey where
  origin : NodeId
  oconn : ConnId
  txid : Txid
  deriving DecidableEq, Repr

/-- A request at its home: its key, the bank of the channel it came on, the engine whose port received it, its home
slot, the request with its PA, the agent as the member that sent it here names it, where this face has mapped it (R265), and
the number of commits before it, which says under which settings it is handled (R33). -/
structure HReq where
  key : TxKey
  bank : Bool
  engine : Nat
  slot : Nat
  req : Req
  named : AgentId
  conf : Nat
  deriving DecidableEq, Repr

/-- A snoop response as the home takes it (R176, R178). -/
structure SnpAns where
  newState : Nat
  wbif : Bool
  dirty : Bool
  data : Option Line
  deriving DecidableEq, Repr

/-- A snoop of a transaction (R215): `owner` where the agent was listed as owner when it was sent, `joined` where its data
is that of a WriteBack, which has been written. -/
structure SnpOut where
  agent : AgentId
  kind : SnpOp
  snptx : BitVec 16
  owner : Bool
  ans : Option SnpAns
  joined : Bool
  deriving DecidableEq, Repr

/-- A recall (R212): the victim's line and entry, its snoops, the WriteBacks held for it and those taken but not yet
answered, a line that waits to be written, and whether every agent is asked because the victim's entry failed parity (R219,
R222). -/
structure Recall where
  line : Nat
  ent : DirEnt
  snoops : List SnpOut
  held : List HReq
  acks : List HReq
  pend : Option Line
  all : Bool
  deriving DecidableEq, Repr

/-- What a transaction waits for. -/
inductive Phase where
  | recovery
  | selfSnoop
  | pendWait
  | snoops
  | remRead
  | remWrite
  | drop
  | seq
  | repl
  | mig
  | release
  | done
  deriving DecidableEq, Repr

/-- An open line (R168): its transaction. `req` is none for a recovery or recall that serves no request, `ent` the
copy of the entry it works from; `data` is the owner's data with its dirty flag, `stored` the stored data once read,
`newLine` and `old` the line to be written and the old value of an atomic, `pend` a WriteBack's line that waits for a
promotion (R322), `acks` WriteBacks taken and not yet answered, `tag` the
RTAG of an exchange under way and `wait` the nodes it waits for, `note` the notice that a recovery owes, `drop` whether the response is discarded (R160) and
returned data too (R67), `lost` whether a declaration has poisoned the line (R184), and `bad` whether the record's own parity
is wrong (R225). -/
structure HTx where
  line : Nat
  slot : Nat
  way : Nat
  ent : DirEnt
  req : Option HReq
  phase : Phase
  snoops : List SnpOut
  held : List HReq
  data : Option (Line × Bool)
  stored : Option Line
  newLine : Option Line
  old : BitVec 128
  pend : Option Line
  acks : List HReq
  rcl : Option Recall
  note : Option Bool
  tag : BitVec 16
  wait : List NodeId
  due : Nat
  drop : Bool
  lost : Bool
  bad : Bool
  deriving DecidableEq, Repr

/-- A result-cache entry (R155). -/
structure ResEntry where
  key : TxKey
  bank : Bool
  die : Nat
  agent : AgentId
  resp : Resp
  moved : Bool
  deriving DecidableEq, Repr

/-- A request in progress at the member holding its connection (R153): where it went (none: this module), and for an
EvictClean the units that COUNT must cover (R195). -/
structure OReq where
  id : Nat
  conn : Nat
  opened : Nat
  req : Req
  slot : Nat
  dest : Option ChanId
  covered : Option Nat
  deriving DecidableEq, Repr

/-- A Fence in progress (R195, R235): `seq` holds the tag of its SCOPE 1 exchange once it has begun, `wait` the members
that have still to answer. -/
structure FenceRec where
  id : Nat
  conn : Nat
  opened : Nat
  req : Req
  seq : Option (BitVec 16)
  wait : List NodeId
  due : Nat
  deriving DecidableEq, Repr

/-- A snoop that this member has forwarded, or holds, for an agent: the channel of the home it came from, none for its
own home; the snoop with the agent as it is named where it goes; the agent as the home names it (R265); whether it is sent;
and the channel on which a face relayed it (R264). -/
structure FwdSnp where
  home : Option ChanId
  snp : Snp
  asked : AgentId
  sent : Bool
  relay : Option ChanId
  deriving DecidableEq, Repr

/-- A member of a broadcast sequencing exchange at the bobbin or at a fence's member: a fence mark being collected
(R235). -/
structure FenceMark where
  node : NodeId
  rtag : BitVec 16
  tag : BitVec 16
  gsn : Nat
  wait : List NodeId
  deriving DecidableEq, Repr

/-- A mark that this member answers once its own earlier replicated writes are done (R235). -/
structure HeldMark where
  chan : ChanId
  node : NodeId
  rtag : BitVec 16
  seqno : Nat
  lines : List Nat
  deriving DecidableEq, Repr

/-- A page's replication being dropped (R226): whether the drop has been sent, and the members that have still to
answer. -/
structure PageDrop where
  page : Nat
  tag : BitVec 16
  sent : Bool
  wait : List NodeId
  deriving DecidableEq, Repr

/-- An extent operation under way (R67): the operation, its slot, tenant and extent, and the lines of it still open. -/
structure Assign where
  op : Nat
  slot : Nat
  tenant : Nat
  paext : Nat
  deriving DecidableEq, Repr

/-- State of a Picot channel (POOL_CHANSTS). -/
inductive ChanState where
  | start | up | down
  deriving DecidableEq, Repr

/-- A Picot channel (R241, R249, R162). `base` counts the units acknowledged since the start, `units` the bodies sent
and not yet acknowledged, `expect` the units received; `stream` the bytes of a message not yet whole, `rxq` the
messages received and not yet taken, oldest first, each with the engine whose port received its last unit, `txq` those
waiting for room, `loose` the responses to non-coherent requests among these (R149), `msgs` those sent with the count of
units up to their end, until COUNT covers them. `rgen` is the peer RGEN stored at this start, `lastRgen` the one before it;
`downSince` the instant from which GRACE runs (R162, R251). -/
structure Chan where
  id : ChanId
  state : ChanState
  alt : Bool
  brokenP : Bool
  brokenQ : Bool
  rgen : Option (BitVec 32)
  lastRgen : Option (BitVec 32)
  base : Nat
  units : List (List Byte)
  expect : Nat
  discarding : Bool
  stream : List Byte
  rxq : List (Nat × PMsg)
  txq : List PMsg
  loose : List PMsg
  msgs : List (Nat × PMsg)
  lastGood : Nat
  lastSent : Nat
  timer : Nat
  downSince : Option Nat
  flushed : Bool
  skew : Bool
  dead : Bool
  deriving DecidableEq, Repr

/-- A relay record of a face (R266): who asked, on which bank, the agent it named there and on the far
side, the home there, and the request as relayed with its slot (R163). -/
structure Relay where
  origin : NodeId
  oconn : ConnId
  txid : Txid
  bank : Bool
  agent : AgentId
  far : AgentId
  dest : NodeId
  op : ReqOp
  hslot : Nat
  req : Req
  deriving DecidableEq, Repr

/-- A declaration (R160, R267): the node, its bank, the declarers to answer with their numbers, the members still to
answer, each with the declaration number that it was sent, and whether this module declares it. -/
structure Decl where
  node : NodeId
  bank : Bool
  own : Bool
  wait : List (BitVec 16 × NodeId)
  answer : List (ChanId × NodeId × BitVec 16)
  deriving DecidableEq, Repr

/-- Phase of a handoff (POOL_HOFF_STS.PHASE). -/
inductive HoffPhase where
  | idle | copy | ready | window | residual | receiving
  deriving DecidableEq, Repr

/-- A planned handoff (R252 to R261): the role's other end, the spare's member index and the index that changes its holder,
the instant of the cutover, the lines that are residual or not yet known, the moved transactions, and at the spare what it has
received. `member`, `bobbin` and `face` name the roles that the cutover moves, `endMark` is the count of units that must cover
the END marker (R259), `total` the lines that COPY has to send (R270). -/
structure Hoff where
  phase : HoffPhase
  peer : NodeId
  toIdx : Nat
  idx : Nat
  since : Nat
  residual : List Nat
  known : List Nat
  all : Bool
  moved : List (TxKey × Nat)
  endSeen : Bool
  frames : List Nat
  gsn : Option Nat
  newHolder : Bool
  member : Bool
  bobbin : Bool
  face : Bool
  endMark : Nat
  total : Nat
  deriving DecidableEq, Repr

/-- No handoff. -/
def idleHoff : Hoff :=
  { phase := .idle, peer := 0, toIdx := 0, idx := 0, since := 0, residual := [], known := [], all := false, moved := []
    endSeen := false, frames := [], gsn := none, newHolder := false, member := false, bobbin := false, face := false
    endMark := 0, total := 0 }

/-- An access to a lender that waits for its answer (R298): the line of the transaction it serves. -/
structure RemWait where
  tag : BitVec 16
  page : Nat
  pa : Nat
  lender : NodeId
  kind : Nat
  frame : Nat
  data : Line
  mig : Bool
  deriving DecidableEq, Repr

/-- The home, directory and pool state. `dir` is keyed by (die * 65,536 + set) * 16 + way, `tree` by die * 65,536 + set
(R203, R204, R210); `txs` by line number PA / 64. `confGen` counts the commits applied, and `confOld` holds for each commit
that a request in flight may still precede the number before it and the settings that it replaced, as register key, mask and
value (R33). -/
structure Home where
  dir : Table Way
  tree : Store 15
  blind : List Nat
  txs : Table HTx
  parked : List HReq
  results : List ResEntry
  oreqs : List OReq
  fences : List FenceRec
  nextId : Nat
  fwdSnps : List FwdSnp
  snptx : BitVec 16
  rtag : BitVec 16
  assign : Option Assign
  drops : List PageDrop
  chans : List Chan
  rgen : BitVec 32
  relays : Table Relay
  decls : List Decl
  dead : List (Bool × NodeId)
  hoff : Hoff
  seqLast : Nat
  applied : List (Bool × NodeId × Nat)
  marks : List FenceMark
  heldMarks : List HeldMark
  seqHeld : List PMsg
  rems : List RemWait
  confGen : Nat
  confOld : List (Nat × List (Nat × BitVec 64 × BitVec 64))
  deriving DecidableEq, Repr

/-- The metering state of a tenant (R400 to R411). -/
structure MtrTen where
  hot : Nat
  warm : Nat
  remote : Nat
  saved : Nat
  rd : Nat
  wr : Nat
  at_ : Nat
  start : Nat
  span : Nat
  first : Bool
  missed : Bool
  gap : Bool
  holdover : Bool
  retained : Bool
  changed : Bool
  bad : Bool
  deriving DecidableEq, Repr

/-- The metering unit (R400 to R412, R423): tenants, ledger ring and checkpoint area with the records whose last read
was uncorrectable (tenant IDs, and 4,096 + index for the ring), the records latched for MTR_LRD and MTR_TACC, dump records,
the latched dump record, whether metering has begun, the last dump instant and boundary since the PTP counter began, and the
performance counters (bank * 8 + counter) whose parity is wrong (R425). -/
structure Meter where
  tens : Table MtrTen
  ring : Store 1024
  check : Store 1024
  bad : List Nat
  latch : BitVec 1024
  tacc : BitVec 1024
  dumpRing : Table (List Byte)
  dumpLatch : List Byte
  running : Bool
  dumpAt : Nat
  boundAt : Nat
  cntBad : List Nat
  deriving DecidableEq, Repr

end Sys2Proof.Machine
end

