-- ==== Sys2Proof/Machine/LinkTypes.lean ====
section
/-! DEFINITION. The types of the notice queue and of the transport. -/

namespace Sys2Proof.Machine

/-- A notice (R437). -/
structure Notice where
  time : Nat
  sev : Nat
  esc : Bool
  first : Bool
  redeliv : Bool
  restored : Bool
  code : Nat
  block : Nat
  txid : Nat
  tenant : Nat
  tv : Bool
  obj : Nat
  okind : Nat
  nseq : Nat
  count : Nat
  deriving DecidableEq, Repr

/-- An entry of the notice queue: pending while it has no delivery number (R438). -/
structure QEntry where
  note : Notice
  dseq : Option Nat
  deriving DecidableEq, Repr

/-- A running holdoff window of a (block, cause) pair (R436). -/
structure Holdoff where
  due : Nat
  count : Nat
  last : Notice
  deriving DecidableEq, Repr

/-- The notice queue (R438 to R444); `dseq` counts the deliveries since the last clearing,
`overrun` the notices discarded since the queue was full; `bad` holds the NSEQ of entries whose parity is wrong (R448). -/
structure NoticeQ where
  entries : List QEntry
  nseq : Nat
  dseq : Nat
  mark : Option Nat
  overrun : Nat
  holdoffs : Table Holdoff
  bad : List Nat
  deriving DecidableEq, Repr

/-- Four values, one for each traffic class. -/
structure Per4 (α : Type) where
  c0 : α
  c1 : α
  c2 : α
  c3 : α
  deriving DecidableEq, Repr

/-- Liveness of a path record (R140). -/
inductive PathState where
  | up | broken | returning
  deriving DecidableEq, Repr

/-- A path record (R137 to R140): its liveness, the last proof, when RETURNING began, the last HEARTBEAT sent, the
TXTIMEs sent and the latest TXTIME received. -/
structure PathRec where
  key : PathKey
  state : PathState
  lastProof : Nat
  retSince : Nat
  lastHb : Nat
  txTimes : List Nat
  echo : Nat
  deriving DecidableEq, Repr

/-- A DATA packet (R83, R87). `eng` is the engine whose port received it, or the engine that sends it. -/
structure DataPkt where
  eng : Nat
  tc : Nat
  seq : Seq24
  plen : Nat
  payload : List Byte
  deriving DecidableEq, Repr

/-- A ResultRelease that an acknowledgement will cause (R156): the home, the transaction and whether its
request was coherent. -/
structure Rel where
  home : NodeId
  oconn : ConnId
  txid : Txid
  coh : Bool
  deriving DecidableEq, Repr

/-- A replay-buffer entry (R144): the packet, whether it last went on the alternate path, whether it has been sent
again, the releases it carries, and a parity error (R165). -/
structure RepEntry where
  pkt : DataPkt
  alt : Bool
  rels : List Rel
  bad : Bool
  deriving DecidableEq, Repr

/-- A message waiting to be packed (R133); `coh` marks a response to a coherent request (R149). -/
structure OutMsg where
  msg : Msg
  rel : Option Rel
  coh : Bool
  deriving DecidableEq, Repr

/-- A received packet in a class buffer: the engine whose port received it (R165), its class, its units, which are freed once
its messages are taken (R131), and its messages in payload order. -/
structure RxPkt where
  eng : Nat
  tc : Nat
  units : Nat
  msgs : List Msg
  deriving DecidableEq, Repr

/-- A range of missing sequences listed in a NAK (R125). -/
structure NakRange where
  first : Seq24
  count : Nat
  time : Nat
  deriving DecidableEq, Repr

/-- A connection's own view of a path that a credit timeout broke for it alone (R134): the instant of the timeout, and
whether a proof has made the view RETURNING since. -/
structure View where
  since : Nat
  ret : Bool
  deriving DecidableEq, Repr

/-- An AUDIT held until RCV_NXT reaches ASEQ (R136). -/
structure HeldAudit where
  aseq : Seq24
  sent : Per4 Seq24
  deriving DecidableEq, Repr

/-- An open connection (R91 to R98, R123). `freed` counts the units whose messages have been processed; `viewP` and
`viewQ` hold this connection's own view of a path while a credit timeout keeps it from following the record (R134); `grantAck` is the
instant since which RCV_NXT or a grant has not been carried (R126). -/
structure Conn where
  engine : Nat
  peer : NodeId
  agv : Bool
  agent : AgentId
  snoop : Bool
  rcid : ConnId
  risn : Seq24
  maxpay : Nat
  opened : Nat
  isn : Seq24
  sndNxt : Seq24
  sndUna : Seq24
  rcvNxt : Seq24
  sent : Per4 Seq24
  got : Per4 Seq24
  gotAt : Per4 Nat
  recv : Per4 Seq24
  grant : Per4 Seq24
  freed : Per4 Seq24
  stored : List DataPkt
  rxq : List RxPkt
  replay : List RepEntry
  txq : Per4 (List OutMsg)
  onAlt : Bool
  viewP : Option View
  viewQ : Option View
  holding : Option Nat
  flushed : Bool
  naks : List NakRange
  rto : Nat
  grantAck : Option Nat
  audit : Option HeldAudit
  auditDue : Bool
  lastAudit : Nat
  deriving DecidableEq, Repr

/-- What remains of a connection ID after its last opening (R89, R95). -/
structure ConnInfo where
  rcid : ConnId
  reason : Nat
  lastReply : Option Nat
  deriving DecidableEq, Repr

/-- A port's link (ETH_STS). -/
structure PortSt where
  link : Bool
  fec : Bool
  ready : Bool
  deriving DecidableEq, Repr

/-- A Picot unit as sent (R113): its running count, its BODY, the CRC16 over them (R114), and the COUNT and RESUME it
carries. -/
structure PUnit where
  run : Nat
  body : List Byte
  crc : BitVec 16
  count : Nat
  resume : Bool
  deriving DecidableEq, Repr

/-- What a transmitted Ethernet frame carries. -/
inductive FrameBody where
  | coldel (h : CHdr) (payload : List Byte)
  | picot (src dst : NodeId) (first : Nat) (units : List PUnit)
  deriving DecidableEq, Repr

/-- A frame sent from a cage port (R82): the port, the destination and source MAC, the VID (0: untagged) with the PCP and
DEI of its tag (R99), the EtherType and what follows it. -/
structure OutFrame where
  port : Nat
  dst : BitVec 48
  src : BitVec 48
  vid : Nat
  pcp : Nat
  dei : Bool
  etype : Nat
  body : FrameBody
  deriving DecidableEq, Repr

/-- The transport (spec/03, spec/04). `closed` holds the last reason of each ID, `detached` the detached agents, each with
every connection at whose close it became detached (R158), `stalled` the engines in a stall episode (R147), `rels` the releases that a
step has still to pass on and `tx` every frame sent, oldest first. -/
structure Link where
  ports : Table PortSt
  conns : Table Conn
  closed : Table ConnInfo
  paths : Table PathRec
  detached : List (AgentId × Nat)
  opens : Nat
  stalled : List Nat
  rels : List Rel
  tx : List OutFrame
  deriving DecidableEq, Repr

end Sys2Proof.Machine
end

