-- ==== Sys2Proof/Machine/MemTypes.lean ====
section
/-! DEFINITION. The types of memory: merge buffers, segment cache, keys, migrations and lent frames. -/

namespace Sys2Proof.Machine

/-- An open merge-buffer entry (R345): group, line number PA / 64, bytes and mask, instant and TXID of its first write,
the writing tenant, and a parity error armed by ECC_PFLIP. -/
structure MergeEntry where
  group : Nat
  line : Nat
  data : Line
  mask : BitVec 64
  since : Nat
  txid : Nat
  tenant : Nat
  bad : Bool
  deriving DecidableEq, Repr

/-- An entry of the decompressed-segment cache (R290): segment number PA / 1,024, the segment, and for a DIRTY entry
the instant since which it is DIRTY; `used` orders its set by use. -/
structure SEntry where
  seg : Nat
  data : BitVec 8192
  dirty : Option Nat
  used : Nat
  bad : Bool
  deriving DecidableEq, Repr

/-- A key slot (R370); `bad0` and `bad1` mark a die's copy whose parity is wrong (R379). -/
structure KeySlot where
  key : BitVec 512
  valid : Bool
  failed : Bool
  kid : BitVec 32
  count : Nat
  due : Bool
  bad0 : Bool
  bad1 : Bool
  deriving DecidableEq, Repr

/-- Where a migration moves a page (R280, R281, R301). -/
inductive MigKind where
  | promote | demote | rehome | replicate | rekey
  deriving DecidableEq, Repr

/-- Borrowed frames not yet used (R296). -/
structure Borrowed where
  lender : Nat
  frame : Nat
  deriving DecidableEq, Repr

/-- Why a migration started (R280): a trigger of heat, the scan or a rekey; a bin that a store found exhausted (R289); a
whole-line write to a poisoned segment (R321). -/
inductive MigWhy where
  | trigger | exhausted | poisoned
  deriving DecidableEq, Repr

/-- The destination space of a migration (R281 step 1): none for one whose page becomes ZERO or stays in its frame, a
frame, a run of granules of a bin, or a borrowed frame. -/
inductive Dest where
  | none
  | frame (f : Nat)
  | run (bin g n : Nat)
  | lent (b : Borrowed)
  deriving DecidableEq, Repr

/-- A running migration (R281): the page's index 512 * slot + page and its address, what it does, the instant of
step 2, why it started, whether its exchange with other members has begun and whether its lines have been sent to the
borrowed frame, the answers it waits for as (RTAG, line; 64 for an install), the members whose replica is not refused, the
lines read from a lender, and its destination. -/
structure Mig where
  page : Nat
  pa : Nat
  kind : MigKind
  since : Nat
  why : MigWhy
  begun : Bool
  sent : Bool
  targets : List Nat
  waiting : List (Nat × Nat)
  got : List (Nat × Line)
  dest : Dest
  deriving DecidableEq, Repr

/-- What the outcome of a stored line can be (R352, R354). -/
inductive RawRead where
  | line (d : Line) (corrected : Bool)
  | bad
  | halted
  deriving DecidableEq, Repr

/-- A replica that this module holds (R228, R301): its page address, frame, owner, generation, key selector, poison
and the primary with the RGEN under which it was installed, and the lines received, one bit each. -/
structure Replica where
  pa : Nat
  frame : Nat
  owner : Nat
  gen : Nat
  ksel : Bool
  poison : BitVec 64
  primary : NodeId
  rgen : BitVec 32
  lines : Nat
  deriving DecidableEq, Repr

/-- DRAM and everything kept in it or on the way to it (spec/02, spec/08 to spec/11). `dram` is keyed by frame * 64 +
line and holds lines as stored; `dramErr` holds the error pattern of a codeword against the valid one; `dramAt` the
address, as such a key, for which a codeword was made where that is not its own (R342). `layout` gives the channel-local
frames that the reserved regions take on each channel, as start laid them out (R335, R337). `etr` is the
translation region in 8-byte units; `tmap` the page descriptors, `atab` the age table, both by 512 * slot + page;
`ftab` the frame table. The `Bad` lists hold entries whose last read was uncorrectable. `lostSegs` holds, as 4 * page +
segment, poisoned segments of LEN 0, which R63's mark cannot show; `starved` the sets (die * 128 + set) of the segment cache
in which a miss found no way (R291); `engBad` the engines (die * 16 + kind * 8 + engine) whose parity fails on every run
(R328); `caBad` the channels whose next command has wrong command/address parity; `lenderGens` the LGEN of each lender, by node (R297). -/
structure Mem where
  dram : Store 512
  dramErr : Store 640
  dramAt : Table Nat
  layout : List Nat
  devCnt : Table Nat
  tmap : Store 256
  tmapBad : List Nat
  etr : Store 64
  etrBad : List Nat
  ftab : Store 64
  atab : Store 32
  keyStore : Store 640
  keyStoreBad : List Nat
  keys : Table KeySlot
  kek : Option (BitVec 256)
  merge : List MergeEntry
  scache : Table SEntry
  starved : List Nat
  lostSegs : List Nat
  engBad : List Nat
  caBad : List Nat
  useCount : Nat
  migs : List Mig
  openBins : List Nat
  replicaSets : Table (List Nat)
  replicas : List Replica
  spareBorrowed : List Borrowed
  lfsr0 : BitVec 16
  lfsr1 : BitVec 16
  sampled : Table Nat
  sampledWarm : Table Nat
  paused : List Nat
  heatEpoch : Nat
  lowCrossed0 : Bool
  lowCrossed1 : Bool
  pressure0 : Bool
  pressure1 : Bool
  scanAt : Nat
  patrolAt : Nat
  replNext : Nat
  lgen : BitVec 32
  lenderGens : Table (BitVec 32)
  alarmWin : Nat
  xcache : Table (BitVec 64)
  xcacheBad : List Nat
  tblBad : List Nat
  rekeyPass : List Nat
  rekeyClean : List Nat
  lostPages : List Nat
  lendAsk : Option (BitVec 16)
  deriving DecidableEq, Repr

end Sys2Proof.Machine
end

