-- ==== Sys2Proof/Machine/Table.lean ====
section
/-! DEFINITION. Tables and stores: maps kept as lists with strictly rising keys, in one canonical form. -/

namespace Sys2Proof.Machine

/-- The entry of key `k`. -/
def tget {α : Type} : Table α → Nat → Option α
  | [], _ => none
  | (j, v) :: t, k => if j = k then some v else if k < j then none else tget t k

/-- The table with `v` at key `k`. -/
def tput {α : Type} : Table α → Nat → α → Table α
  | [], k, v => [(k, v)]
  | (j, u) :: t, k, v =>
    if j = k then (k, v) :: t else if k < j then (k, v) :: (j, u) :: t else (j, u) :: tput t k v

/-- The table without key `k`. -/
def tdel {α : Type} : Table α → Nat → Table α
  | [], _ => []
  | (j, u) :: t, k => if j = k then t else if k < j then (j, u) :: t else (j, u) :: tdel t k

/-- Changes the entry of key `k`, if there is one. -/
def tmod {α : Type} (t : Table α) (k : Nat) (f : α → α) : Table α :=
  match tget t k with
  | some v => tput t k (f v)
  | none => t

/-- The keys rise strictly. -/
def tsorted {α : Type} : Table α → Bool
  | [] => true
  | [_] => true
  | (j, _) :: (k, v) :: t => decide (j < k) && tsorted ((k, v) :: t)

/-- What key `k` of a store reads as when an unlisted key reads `d`. -/
def sget {w : Nat} (d : Nat → BitVec w) (t : Store w) (k : Nat) : BitVec w := (tget t k).getD (d k)

/-- Writes a store; a value equal to what the unlisted key reads as removes the entry. -/
def sput {w : Nat} (d : Nat → BitVec w) (t : Store w) (k : Nat) (v : BitVec w) : Store w :=
  if v = d k then tdel t k else tput t k v

/-- The canonical form: strictly rising keys and no entry equal to what its key reads as unlisted. -/
def swf {w : Nat} (d : Nat → BitVec w) (t : Store w) : Bool := tsorted t && t.all fun e => e.2 != d e.1

/-- The keys below which `f` holds, from 0 to `n - 1`: a bounded list of indices. -/
def upto (n : Nat) : List Nat := List.range n

/-- The first index below `n` that `f` accepts. -/
def firstIdx (n : Nat) (f : Nat → Bool) : Option Nat := (List.range n).find? f

/-- How many entries of a list satisfy `f`. -/
def countIf {α : Type} (l : List α) (f : α → Bool) : Nat := (l.filter f).length

end Sys2Proof.Machine
end

