-- ==== Sys2Proof/Machine/RegMap.lean ====
section
/-! DEFINITION. The register map: one `Fld` per field of every register the spec lays out, and one `RegDef`
per register with its access and keep-class masks. Written from the register tables of spec/02 to spec/17
(R6 to R8, R11, R426, R519). -/

namespace Sys2Proof.Machine

/-- A field of a register: `key` is the register's address plus 2^32 times the select value in force
(R73), `lo` its lowest bit and `w` its width. -/
structure Fld where
  key : Nat
  lo : Nat
  w : Nat
  deriving DecidableEq, Repr

/-- Keep-class masks of a register (R11); the bits in none of them are class D. -/
structure KeepMasks where
  n : Nat
  k : Nat
  s : Nat
  m : Nat
  p : Nat
  deriving DecidableEq, Repr

/-- One register of the map: `n1` instances `s1` apart, each of `n2` elements `s2` apart; `sel` is the address
of the select register that names its entry, if any (R73). `rw`, `rws` and `w1c` mark the bits of each access
type (R8); all other bits are read-only, write-only or reserved. -/
structure RegDef where
  name : String
  base : Nat
  n1 : Nat
  s1 : Nat
  n2 : Nat
  s2 : Nat
  sel : Option Nat
  rst : Nat
  rw : Nat
  rws : Nat
  w1c : Nat
  keep : KeepMasks
  deriving DecidableEq, Repr

namespace F

/-- The whole of GBL_ID (16_csr_map). -/
def GBL_ID : Fld := ⟨0x0, 0, 64⟩
def GBL_ID_VENDOR : Fld := ⟨0x0, 0, 16⟩
def GBL_ID_PART : Fld := ⟨0x0, 16, 16⟩
def GBL_ID_GRADE : Fld := ⟨0x0, 32, 1⟩
def GBL_ID_BOARDREV : Fld := ⟨0x0, 36, 4⟩
/-- The whole of GBL_SERIAL (16_csr_map). -/
def GBL_SERIAL : Fld := ⟨0x8, 0, 64⟩
/-- The whole of GBL_STATUS (16_csr_map). -/
def GBL_STATUS : Fld := ⟨0x10, 0, 64⟩
def GBL_STATUS_POOL_READY : Fld := ⟨0x10, 0, 1⟩
def GBL_STATUS_LOCK : Fld := ⟨0x10, 1, 1⟩
def GBL_STATUS_HOOP : Fld := ⟨0x10, 2, 1⟩
def GBL_STATUS_PORTREADY : Fld := ⟨0x10, 16, 16⟩
def GBL_STATUS_CHREADY : Fld := ⟨0x10, 32, 24⟩
/-- The whole of GBL_MCSTS (16_csr_map). -/
def GBL_MCSTS : Fld := ⟨0x18, 0, 64⟩
def GBL_MCSTS_RESTARTS : Fld := ⟨0x18, 0, 16⟩
def GBL_MCSTS_REASON : Fld := ⟨0x18, 16, 2⟩
/-- The whole of GBL_ALLOW_SEL (16_csr_map). -/
def GBL_ALLOW_SEL : Fld := ⟨0x100, 0, 64⟩
def GBL_ALLOW_SEL_ENTRY : Fld := ⟨0x100, 0, 6⟩
/-- The whole of GBL_ALLOW (16_csr_map). -/
def GBL_ALLOW (sel : Nat) : Fld := ⟨0x108 + 0x100000000 * sel, 0, 64⟩
def GBL_ALLOW_NODE (sel : Nat) : Fld := ⟨0x108 + 0x100000000 * sel, 0, 12⟩
def GBL_ALLOW_V (sel : Nat) : Fld := ⟨0x108 + 0x100000000 * sel, 12, 1⟩
def GBL_ALLOW_WRITE (sel : Nat) : Fld := ⟨0x108 + 0x100000000 * sel, 13, 1⟩
/-- The whole of GBL_MGT (16_csr_map). -/
def GBL_MGT : Fld := ⟨0x200, 0, 64⟩
def GBL_MGT_IPV4 : Fld := ⟨0x200, 0, 32⟩
def GBL_MGT_PREFIX : Fld := ⟨0x200, 32, 6⟩
/-- The whole of GBL_MGTMAC (16_csr_map). -/
def GBL_MGTMAC : Fld := ⟨0x208, 0, 64⟩
def GBL_MGTMAC_MAC : Fld := ⟨0x208, 0, 48⟩
/-- The whole of GBL_MGTALLOW (16_csr_map). -/
def GBL_MGTALLOW (j : Nat) : Fld := ⟨0x210 + 0x8 * j, 0, 64⟩
def GBL_MGTALLOW_ADDR (j : Nat) : Fld := ⟨0x210 + 0x8 * j, 0, 32⟩
def GBL_MGTALLOW_PREFIX (j : Nat) : Fld := ⟨0x210 + 0x8 * j, 32, 6⟩
def GBL_MGTALLOW_V (j : Nat) : Fld := ⟨0x210 + 0x8 * j, 38, 1⟩
def GBL_MGTALLOW_WRITE (j : Nat) : Fld := ⟨0x210 + 0x8 * j, 39, 1⟩
/-- The whole of GBL_CSRCNT (16_csr_map). -/
def GBL_CSRCNT : Fld := ⟨0x300, 0, 64⟩
def GBL_CSRCNT_SERVED : Fld := ⟨0x300, 0, 32⟩
def GBL_CSRCNT_DENIED : Fld := ⟨0x300, 32, 16⟩
def GBL_CSRCNT_DUPS : Fld := ⟨0x300, 48, 16⟩
/-- The whole of CFG_CTL (15_startup_config_update). -/
def CFG_CTL : Fld := ⟨0x100000, 0, 64⟩
def CFG_CTL_COMMIT : Fld := ⟨0x100000, 0, 1⟩
def CFG_CTL_CHECK : Fld := ⟨0x100000, 1, 1⟩
def CFG_CTL_CANCEL : Fld := ⟨0x100000, 2, 1⟩
def CFG_CTL_DISCARD : Fld := ⟨0x100000, 3, 1⟩
def CFG_CTL_PERSIST : Fld := ⟨0x100000, 4, 1⟩
def CFG_CTL_AT : Fld := ⟨0x100000, 5, 1⟩
/-- The whole of CFG_WHEN (15_startup_config_update). -/
def CFG_WHEN : Fld := ⟨0x100008, 0, 64⟩
/-- The whole of CFG_STS (15_startup_config_update). -/
def CFG_STS : Fld := ⟨0x100010, 0, 64⟩
def CFG_STS_STATE : Fld := ⟨0x100010, 0, 3⟩
def CFG_STS_LASTOK : Fld := ⟨0x100010, 3, 1⟩
def CFG_STS_CHECKONLY : Fld := ⟨0x100010, 4, 1⟩
def CFG_STS_REFCODE : Fld := ⟨0x100010, 8, 5⟩
def CFG_STS_STAGED : Fld := ⟨0x100010, 16, 18⟩
def CFG_STS_LOSTWR : Fld := ⟨0x100010, 34, 1⟩
def CFG_STS_BADCTL : Fld := ⟨0x100010, 35, 1⟩
/-- The whole of CFG_REFADDR (15_startup_config_update). -/
def CFG_REFADDR : Fld := ⟨0x100018, 0, 64⟩
def CFG_REFADDR_ADDR : Fld := ⟨0x100018, 0, 32⟩
def CFG_REFADDR_INDEX : Fld := ⟨0x100018, 32, 32⟩
/-- The whole of CFG_LAST (15_startup_config_update). -/
def CFG_LAST : Fld := ⟨0x100020, 0, 64⟩
/-- The whole of CFG_NVM (15_startup_config_update). -/
def CFG_NVM : Fld := ⟨0x100028, 0, 64⟩
def CFG_NVM_HALF : Fld := ⟨0x100028, 0, 1⟩
def CFG_NVM_USED : Fld := ⟨0x100028, 1, 14⟩
def CFG_NVM_ERASING : Fld := ⟨0x100028, 15, 1⟩
def CFG_NVM_GROUPS : Fld := ⟨0x100028, 16, 16⟩
def CFG_NVM_COMPACTIONS : Fld := ⟨0x100028, 32, 32⟩
/-- The whole of CFG_PEEK_ADDR (15_startup_config_update). -/
def CFG_PEEK_ADDR : Fld := ⟨0x100030, 0, 64⟩
def CFG_PEEK_ADDR_ADDR : Fld := ⟨0x100030, 0, 32⟩
/-- The whole of CFG_PEEK_DATA (15_startup_config_update). -/
def CFG_PEEK_DATA : Fld := ⟨0x100038, 0, 64⟩
/-- The whole of FWU_CTL (15_startup_config_update). -/
def FWU_CTL : Fld := ⟨0x200000, 0, 64⟩
def FWU_CTL_OP : Fld := ⟨0x200000, 0, 4⟩
def FWU_CTL_GO : Fld := ⟨0x200000, 4, 1⟩
def FWU_CTL_WARM : Fld := ⟨0x200000, 5, 1⟩
def FWU_CTL_NEWCFG : Fld := ⟨0x200000, 6, 1⟩
/-- The whole of FWU_ADDR (15_startup_config_update). -/
def FWU_ADDR : Fld := ⟨0x200008, 0, 64⟩
def FWU_ADDR_OFFSET : Fld := ⟨0x200008, 0, 23⟩
/-- The whole of FWU_STS (15_startup_config_update). -/
def FWU_STS : Fld := ⟨0x200010, 0, 64⟩
def FWU_STS_STATE : Fld := ⟨0x200010, 0, 3⟩
def FWU_STS_BUSY : Fld := ⟨0x200010, 3, 1⟩
def FWU_STS_RESULT : Fld := ⟨0x200010, 4, 4⟩
def FWU_STS_STEP : Fld := ⟨0x200010, 8, 4⟩
def FWU_STS_TARGET : Fld := ⟨0x200010, 12, 1⟩
def FWU_STS_NOFALL : Fld := ⟨0x200010, 13, 1⟩
def FWU_STS_REFUSED : Fld := ⟨0x200010, 14, 1⟩
/-- The whole of FWU_CONFIRM (15_startup_config_update). -/
def FWU_CONFIRM : Fld := ⟨0x200018, 0, 64⟩
def FWU_CONFIRM_GO : Fld := ⟨0x200018, 0, 1⟩
def FWU_CONFIRM_CONFIRM : Fld := ⟨0x200018, 16, 16⟩
/-- The whole of FWU_BOOT (15_startup_config_update). -/
def FWU_BOOT : Fld := ⟨0x200020, 0, 64⟩
def FWU_BOOT_SLOT : Fld := ⟨0x200020, 0, 1⟩
def FWU_BOOT_FALLBACK : Fld := ⟨0x200020, 1, 1⟩
def FWU_BOOT_HOOPSTRAP : Fld := ⟨0x200020, 2, 1⟩
def FWU_BOOT_PHASE : Fld := ⟨0x200020, 3, 4⟩
def FWU_BOOT_RELEASE : Fld := ⟨0x200020, 16, 32⟩
/-- The whole of FWU_ARB (15_startup_config_update). -/
def FWU_ARB : Fld := ⟨0x200028, 0, 64⟩
def FWU_ARB_FLOOR : Fld := ⟨0x200028, 0, 7⟩
def FWU_ARB_FUSES_OUT : Fld := ⟨0x200028, 7, 1⟩
def FWU_ARB_SVN : Fld := ⟨0x200028, 8, 16⟩
/-- The whole of FWU_LEVELS0 (15_startup_config_update). -/
def FWU_LEVELS0 : Fld := ⟨0x200030, 0, 64⟩
def FWU_LEVELS0_L_MC : Fld := ⟨0x200030, 0, 16⟩
def FWU_LEVELS0_L_PMU : Fld := ⟨0x200030, 16, 16⟩
def FWU_LEVELS0_L_PORT : Fld := ⟨0x200030, 32, 16⟩
def FWU_LEVELS0_L_TIER : Fld := ⟨0x200030, 48, 16⟩
/-- The whole of FWU_LEVELS1 (15_startup_config_update). -/
def FWU_LEVELS1 : Fld := ⟨0x200038, 0, 64⟩
def FWU_LEVELS1_L_CFG : Fld := ⟨0x200038, 0, 16⟩
def FWU_LEVELS1_L_HW : Fld := ⟨0x200038, 16, 16⟩
def FWU_LEVELS1_PORTMIX : Fld := ⟨0x200038, 32, 1⟩
/-- The whole of FWU_BUF (15_startup_config_update). -/
def FWU_BUF (j : Nat) : Fld := ⟨0x200100 + 0x8 * j, 0, 64⟩
/-- The whole of PMU_CFG (14_power_holdup_resets). -/
def PMU_CFG : Fld := ⟨0x300000, 0, 64⟩
def PMU_CFG_RIDE_MS : Fld := ⟨0x300000, 0, 12⟩
def PMU_CFG_RET_MIN : Fld := ⟨0x300000, 12, 10⟩
def PMU_CFG_RETURN_MS : Fld := ⟨0x300000, 22, 14⟩
/-- The whole of PMU_PACK_CFG (14_power_holdup_resets). -/
def PMU_PACK_CFG : Fld := ⟨0x300008, 0, 64⟩
def PMU_PACK_CFG_CHEM : Fld := ⟨0x300008, 0, 2⟩
def PMU_PACK_CFG_CELLS : Fld := ⟨0x300008, 2, 4⟩
def PMU_PACK_CFG_VMAX : Fld := ⟨0x300008, 6, 9⟩
def PMU_PACK_CFG_VMIN : Fld := ⟨0x300008, 15, 9⟩
def PMU_PACK_CFG_ICHG : Fld := ⟨0x300008, 24, 7⟩
def PMU_PACK_CFG_IMAX : Fld := ⟨0x300008, 31, 7⟩
def PMU_PACK_CFG_DESIGN_WH : Fld := ⟨0x300008, 38, 12⟩
def PMU_PACK_CFG_GAUGE : Fld := ⟨0x300008, 50, 1⟩
def PMU_PACK_CFG_EOL_PCT : Fld := ⟨0x300008, 51, 7⟩
/-- The whole of PMU_STATE (14_power_holdup_resets). -/
def PMU_STATE : Fld := ⟨0x300010, 0, 64⟩
def PMU_STATE_STATE : Fld := ⟨0x300010, 0, 3⟩
def PMU_STATE_FEEDA : Fld := ⟨0x300010, 3, 2⟩
def PMU_STATE_FEEDB : Fld := ⟨0x300010, 5, 2⟩
def PMU_STATE_PACK : Fld := ⟨0x300010, 7, 3⟩
def PMU_STATE_RTAVAIL : Fld := ⟨0x300010, 10, 1⟩
def PMU_STATE_REFUSED : Fld := ⟨0x300010, 11, 1⟩
def PMU_STATE_RFCODE : Fld := ⟨0x300010, 12, 3⟩
/-- The whole of PMU_FEED (14_power_holdup_resets). -/
def PMU_FEED : Fld := ⟨0x300018, 0, 64⟩
def PMU_FEED_VA : Fld := ⟨0x300018, 0, 16⟩
def PMU_FEED_VB : Fld := ⟨0x300018, 16, 16⟩
def PMU_FEED_IIN : Fld := ⟨0x300018, 32, 12⟩
def PMU_FEED_PIN : Fld := ⟨0x300018, 44, 12⟩
/-- The whole of PMU_PACK_STS (14_power_holdup_resets). -/
def PMU_PACK_STS : Fld := ⟨0x300020, 0, 64⟩
def PMU_PACK_STS_VPACK : Fld := ⟨0x300020, 0, 16⟩
def PMU_PACK_STS_IPACK : Fld := ⟨0x300020, 16, 16⟩
def PMU_PACK_STS_TEMP : Fld := ⟨0x300020, 32, 8⟩
def PMU_PACK_STS_SOC : Fld := ⟨0x300020, 40, 14⟩
/-- The whole of PMU_PACK_EST (14_power_holdup_resets). -/
def PMU_PACK_EST : Fld := ⟨0x300028, 0, 64⟩
def PMU_PACK_EST_FCC : Fld := ⟨0x300028, 0, 16⟩
def PMU_PACK_EST_SOH : Fld := ⟨0x300028, 16, 10⟩
def PMU_PACK_EST_RETMIN : Fld := ⟨0x300028, 26, 16⟩
def PMU_PACK_EST_RTNEED : Fld := ⟨0x300028, 42, 16⟩
/-- The whole of PMU_CTL (14_power_holdup_resets). -/
def PMU_CTL : Fld := ⟨0x300030, 0, 64⟩
def PMU_CTL_STBY_ENTER : Fld := ⟨0x300030, 0, 1⟩
def PMU_CTL_STBY_EXIT : Fld := ⟨0x300030, 1, 1⟩
def PMU_CTL_CAPTEST : Fld := ⟨0x300030, 2, 1⟩
def PMU_CTL_CAPABORT : Fld := ⟨0x300030, 3, 1⟩
/-- The whole of PMU_RESET (14_power_holdup_resets). -/
def PMU_RESET : Fld := ⟨0x300038, 0, 64⟩
def PMU_RESET_KIND : Fld := ⟨0x300038, 0, 2⟩
def PMU_RESET_CONFIRM : Fld := ⟨0x300038, 16, 16⟩
/-- The whole of PMU_LASTOFF (14_power_holdup_resets). -/
def PMU_LASTOFF : Fld := ⟨0x300040, 0, 64⟩
def PMU_LASTOFF_REASON : Fld := ⟨0x300040, 0, 4⟩
def PMU_LASTOFF_RETSEC : Fld := ⟨0x300040, 8, 32⟩
/-- The whole of PMU_CNT (14_power_holdup_resets). -/
def PMU_CNT : Fld := ⟨0x300048, 0, 64⟩
def PMU_CNT_RIDES : Fld := ⟨0x300048, 0, 16⟩
def PMU_CNT_RETENTIONS : Fld := ⟨0x300048, 16, 16⟩
def PMU_CNT_DRAINS : Fld := ⟨0x300048, 32, 16⟩
def PMU_CNT_RSTIGN : Fld := ⟨0x300048, 48, 16⟩
/-- The whole of ETH_MODE (03_coldel_framing). -/
def ETH_MODE : Fld := ⟨0x1000000, 0, 64⟩
def ETH_MODE_MODE : Fld := ⟨0x1000000, 0, 2⟩
def ETH_MODE_APPLIED : Fld := ⟨0x1000000, 2, 2⟩
/-- The whole of ETH_STS (03_coldel_framing). -/
def ETH_STS (i : Nat) : Fld := ⟨0x1000008 + 0x100000 * i, 0, 64⟩
def ETH_STS_LINK_A (i : Nat) : Fld := ⟨0x1000008 + 0x100000 * i, 0, 1⟩
def ETH_STS_FEC_LOCK_A (i : Nat) : Fld := ⟨0x1000008 + 0x100000 * i, 1, 1⟩
def ETH_STS_READY_A (i : Nat) : Fld := ⟨0x1000008 + 0x100000 * i, 2, 1⟩
def ETH_STS_LINK_B (i : Nat) : Fld := ⟨0x1000008 + 0x100000 * i, 4, 1⟩
def ETH_STS_FEC_LOCK_B (i : Nat) : Fld := ⟨0x1000008 + 0x100000 * i, 5, 1⟩
def ETH_STS_READY_B (i : Nat) : Fld := ⟨0x1000008 + 0x100000 * i, 6, 1⟩
def ETH_STS_CAGE_PRESENT (i : Nat) : Fld := ⟨0x1000008 + 0x100000 * i, 8, 1⟩
def ETH_STS_CAGE_POWERED (i : Nat) : Fld := ⟨0x1000008 + 0x100000 * i, 9, 1⟩
/-- The whole of ETH_CTL (03_coldel_framing). -/
def ETH_CTL (i : Nat) : Fld := ⟨0x1000010 + 0x100000 * i, 0, 64⟩
def ETH_CTL_RESET_A (i : Nat) : Fld := ⟨0x1000010 + 0x100000 * i, 0, 1⟩
def ETH_CTL_RESET_B (i : Nat) : Fld := ⟨0x1000010 + 0x100000 * i, 1, 1⟩
/-- The whole of ETH_FEC_CNT (03_coldel_framing). -/
def ETH_FEC_CNT (i : Nat) : Fld := ⟨0x1000020 + 0x100000 * i, 0, 64⟩
def ETH_FEC_CNT_CORR (i : Nat) : Fld := ⟨0x1000020 + 0x100000 * i, 0, 32⟩
def ETH_FEC_CNT_UNCORR (i : Nat) : Fld := ⟨0x1000020 + 0x100000 * i, 32, 32⟩
/-- The whole of ETH_RXERR_CNT (03_coldel_framing). -/
def ETH_RXERR_CNT (i : Nat) : Fld := ⟨0x1000028 + 0x100000 * i, 0, 64⟩
def ETH_RXERR_CNT_FCS (i : Nat) : Fld := ⟨0x1000028 + 0x100000 * i, 0, 32⟩
def ETH_RXERR_CNT_PAUSE (i : Nat) : Fld := ⟨0x1000028 + 0x100000 * i, 32, 16⟩
def ETH_RXERR_CNT_PFC (i : Nat) : Fld := ⟨0x1000028 + 0x100000 * i, 48, 16⟩
/-- The whole of CDL_ETYPE (03_coldel_framing). -/
def CDL_ETYPE : Fld := ⟨0x1001000, 0, 64⟩
def CDL_ETYPE_COLDEL : Fld := ⟨0x1001000, 0, 16⟩
def CDL_ETYPE_PICOT : Fld := ⟨0x1001000, 16, 16⟩
/-- The whole of CDL_NODE (03_coldel_framing). -/
def CDL_NODE : Fld := ⟨0x1001008, 0, 64⟩
def CDL_NODE_NODE : Fld := ⟨0x1001008, 0, 12⟩
/-- The whole of CDL_PCP (03_coldel_framing). -/
def CDL_PCP : Fld := ⟨0x1001010, 0, 64⟩
def CDL_PCP_TC0 : Fld := ⟨0x1001010, 0, 3⟩
def CDL_PCP_TC1 : Fld := ⟨0x1001010, 3, 3⟩
def CDL_PCP_TC2 : Fld := ⟨0x1001010, 6, 3⟩
def CDL_PCP_TC3 : Fld := ⟨0x1001010, 9, 3⟩
def CDL_PCP_PICOT : Fld := ⟨0x1001010, 12, 3⟩
def CDL_PCP_PTP : Fld := ⟨0x1001010, 15, 3⟩
/-- The whole of CDL_PTP (03_coldel_framing). -/
def CDL_PTP : Fld := ⟨0x1001018, 0, 64⟩
def CDL_PTP_ROLE : Fld := ⟨0x1001018, 0, 2⟩
def CDL_PTP_DOMAIN : Fld := ⟨0x1001018, 2, 8⟩
def CDL_PTP_PORTS : Fld := ⟨0x1001018, 10, 16⟩
/-- The whole of CDL_MACADDR (03_coldel_framing). -/
def CDL_MACADDR (i : Nat) : Fld := ⟨0x1001020 + 0x100000 * i, 0, 64⟩
def CDL_MACADDR_MAC (i : Nat) : Fld := ⟨0x1001020 + 0x100000 * i, 0, 48⟩
/-- The whole of CDL_CONN_SEL (03_coldel_framing). -/
def CDL_CONN_SEL : Fld := ⟨0x1001100, 0, 64⟩
def CDL_CONN_SEL_CONN : Fld := ⟨0x1001100, 0, 16⟩
/-- The whole of CDL_CONN_A (03_coldel_framing). -/
def CDL_CONN_A (sel : Nat) : Fld := ⟨0x1001108 + 0x100000000 * sel, 0, 64⟩
def CDL_CONN_A_EN (sel : Nat) : Fld := ⟨0x1001108 + 0x100000000 * sel, 0, 1⟩
def CDL_CONN_A_PEER (sel : Nat) : Fld := ⟨0x1001108 + 0x100000000 * sel, 1, 12⟩
def CDL_CONN_A_AGENT (sel : Nat) : Fld := ⟨0x1001108 + 0x100000000 * sel, 13, 10⟩
def CDL_CONN_A_AGV (sel : Nat) : Fld := ⟨0x1001108 + 0x100000000 * sel, 23, 1⟩
/-- The whole of CDL_CONN_P (03_coldel_framing). -/
def CDL_CONN_P (sel : Nat) : Fld := ⟨0x1001110 + 0x100000000 * sel, 0, 64⟩
def CDL_CONN_P_PORT (sel : Nat) : Fld := ⟨0x1001110 + 0x100000000 * sel, 0, 4⟩
def CDL_CONN_P_VID (sel : Nat) : Fld := ⟨0x1001110 + 0x100000000 * sel, 4, 12⟩
def CDL_CONN_P_MAC (sel : Nat) : Fld := ⟨0x1001110 + 0x100000000 * sel, 16, 48⟩
/-- The whole of CDL_CONN_Q (03_coldel_framing). -/
def CDL_CONN_Q (sel : Nat) : Fld := ⟨0x1001118 + 0x100000000 * sel, 0, 64⟩
/-- The whole of CDL_CONN_STS (03_coldel_framing). -/
def CDL_CONN_STS : Fld := ⟨0x1001120, 0, 64⟩
def CDL_CONN_STS_OPEN : Fld := ⟨0x1001120, 0, 1⟩
def CDL_CONN_STS_ALT : Fld := ⟨0x1001120, 1, 1⟩
def CDL_CONN_STS_SNOOP : Fld := ⟨0x1001120, 2, 1⟩
def CDL_CONN_STS_REASON : Fld := ⟨0x1001120, 4, 4⟩
def CDL_CONN_STS_RCID : Fld := ⟨0x1001120, 8, 16⟩
/-- The whole of CDL_CONN_RSTS (04_coldel_reliability). -/
def CDL_CONN_RSTS : Fld := ⟨0x1001128, 0, 64⟩
def CDL_CONN_RSTS_PSTATE_P : Fld := ⟨0x1001128, 0, 2⟩
def CDL_CONN_RSTS_PSTATE_Q : Fld := ⟨0x1001128, 2, 2⟩
def CDL_CONN_RSTS_CSTATE : Fld := ⟨0x1001128, 4, 2⟩
def CDL_CONN_RSTS_DETACHED : Fld := ⟨0x1001128, 6, 1⟩
def CDL_CONN_RSTS_UNACK : Fld := ⟨0x1001128, 8, 16⟩
def CDL_CONN_RSTS_SND_UNA : Fld := ⟨0x1001128, 24, 24⟩
/-- The whole of CDL_RXDISC0 (03_coldel_framing). -/
def CDL_RXDISC0 (i : Nat) : Fld := ⟨0x1001200 + 0x100000 * i, 0, 64⟩
def CDL_RXDISC0_BADCRC (i : Nat) : Fld := ⟨0x1001200 + 0x100000 * i, 0, 16⟩
def CDL_RXDISC0_BADVER (i : Nat) : Fld := ⟨0x1001200 + 0x100000 * i, 16, 16⟩
def CDL_RXDISC0_NOCONN (i : Nat) : Fld := ⟨0x1001200 + 0x100000 * i, 32, 16⟩
def CDL_RXDISC0_BADPATH (i : Nat) : Fld := ⟨0x1001200 + 0x100000 * i, 48, 16⟩
/-- The whole of CDL_RXDISC1 (03_coldel_framing). -/
def CDL_RXDISC1 (i : Nat) : Fld := ⟨0x1001208 + 0x100000 * i, 0, 64⟩
def CDL_RXDISC1_OTHER_ETYPE (i : Nat) : Fld := ⟨0x1001208 + 0x100000 * i, 0, 16⟩
def CDL_RXDISC1_PICOT_CRC (i : Nat) : Fld := ⟨0x1001208 + 0x100000 * i, 16, 16⟩
def CDL_RXDISC1_BADLEN (i : Nat) : Fld := ⟨0x1001208 + 0x100000 * i, 32, 16⟩
def CDL_RXDISC1_PROTOCOL (i : Nat) : Fld := ⟨0x1001208 + 0x100000 * i, 48, 16⟩
/-- The whole of CDL_TIMERS (04_coldel_reliability). -/
def CDL_TIMERS : Fld := ⟨0x1001300, 0, 64⟩
def CDL_TIMERS_CREDIT_TO : Fld := ⟨0x1001300, 0, 7⟩
def CDL_TIMERS_GRACE : Fld := ⟨0x1001300, 8, 16⟩
def CDL_TIMERS_FAILBACK : Fld := ⟨0x1001300, 32, 14⟩
/-- The whole of CDL_FLIGHT (04_coldel_reliability). -/
def CDL_FLIGHT : Fld := ⟨0x1001308, 0, 64⟩
def CDL_FLIGHT_FLIGHT_MAX : Fld := ⟨0x1001308, 0, 12⟩
def CDL_FLIGHT_CONN_QUOTA : Fld := ⟨0x1001308, 16, 12⟩
/-- The whole of CDL_CREDIT (04_coldel_reliability). -/
def CDL_CREDIT : Fld := ⟨0x1001310, 0, 64⟩
def CDL_CREDIT_W0 : Fld := ⟨0x1001310, 0, 8⟩
def CDL_CREDIT_W1 : Fld := ⟨0x1001310, 8, 12⟩
def CDL_CREDIT_W3 : Fld := ⟨0x1001310, 20, 12⟩
/-- The whole of CDL_RELY0 (04_coldel_reliability). -/
def CDL_RELY0 (i : Nat) : Fld := ⟨0x1001400 + 0x100000 * i, 0, 64⟩
def CDL_RELY0_RETX (i : Nat) : Fld := ⟨0x1001400 + 0x100000 * i, 0, 16⟩
def CDL_RELY0_NAKTX (i : Nat) : Fld := ⟨0x1001400 + 0x100000 * i, 16, 16⟩
def CDL_RELY0_NAKRX (i : Nat) : Fld := ⟨0x1001400 + 0x100000 * i, 32, 16⟩
def CDL_RELY0_RTO (i : Nat) : Fld := ⟨0x1001400 + 0x100000 * i, 48, 16⟩
/-- The whole of CDL_RELY1 (04_coldel_reliability). -/
def CDL_RELY1 (i : Nat) : Fld := ⟨0x1001408 + 0x100000 * i, 0, 64⟩
def CDL_RELY1_DUP (i : Nat) : Fld := ⟨0x1001408 + 0x100000 * i, 0, 16⟩
def CDL_RELY1_AUDIT_SKIP (i : Nat) : Fld := ⟨0x1001408 + 0x100000 * i, 16, 16⟩
def CDL_RELY1_HOLD_FLUSH (i : Nat) : Fld := ⟨0x1001408 + 0x100000 * i, 32, 16⟩
def CDL_RELY1_STALLEV (i : Nat) : Fld := ⟨0x1001408 + 0x100000 * i, 48, 16⟩
/-- The whole of CDL_RB_STS (04_coldel_reliability). -/
def CDL_RB_STS (i : Nat) : Fld := ⟨0x1001410 + 0x100000 * i, 0, 64⟩
def CDL_RB_STS_USED (i : Nat) : Fld := ⟨0x1001410 + 0x100000 * i, 0, 16⟩
def CDL_RB_STS_PEAK (i : Nat) : Fld := ⟨0x1001410 + 0x100000 * i, 16, 16⟩
def CDL_RB_STS_STALLCYC (i : Nat) : Fld := ⟨0x1001410 + 0x100000 * i, 32, 32⟩
/-- The whole of CAGE_CTL (17_electrical_mechanical). -/
def CAGE_CTL (i : Nat) : Fld := ⟨0x1002000 + 0x100000 * i, 0, 64⟩
def CAGE_CTL_EN (i : Nat) : Fld := ⟨0x1002000 + 0x100000 * i, 0, 1⟩
def CAGE_CTL_HOSTOWN (i : Nat) : Fld := ⟨0x1002000 + 0x100000 * i, 1, 1⟩
def CAGE_CTL_RESET (i : Nat) : Fld := ⟨0x1002000 + 0x100000 * i, 2, 1⟩
/-- The whole of CAGE_STS (17_electrical_mechanical). -/
def CAGE_STS (i : Nat) : Fld := ⟨0x1002008 + 0x100000 * i, 0, 64⟩
def CAGE_STS_STATE (i : Nat) : Fld := ⟨0x1002008 + 0x100000 * i, 0, 3⟩
def CAGE_STS_FAULT (i : Nat) : Fld := ⟨0x1002008 + 0x100000 * i, 3, 3⟩
def CAGE_STS_INT (i : Nat) : Fld := ⟨0x1002008 + 0x100000 * i, 6, 1⟩
def CAGE_STS_COPPER (i : Nat) : Fld := ⟨0x1002008 + 0x100000 * i, 7, 1⟩
def CAGE_STS_MAXPOWER (i : Nat) : Fld := ⟨0x1002008 + 0x100000 * i, 8, 8⟩
def CAGE_STS_TEMP (i : Nat) : Fld := ⟨0x1002008 + 0x100000 * i, 16, 8⟩
def CAGE_STS_BUDGET (i : Nat) : Fld := ⟨0x1002008 + 0x100000 * i, 24, 8⟩
/-- The whole of CAGE_ID (17_electrical_mechanical). -/
def CAGE_ID (i : Nat) : Fld := ⟨0x1002010 + 0x100000 * i, 0, 64⟩
def CAGE_ID_IDENT (i : Nat) : Fld := ⟨0x1002010 + 0x100000 * i, 0, 8⟩
def CAGE_ID_CMISREV (i : Nat) : Fld := ⟨0x1002010 + 0x100000 * i, 8, 8⟩
def CAGE_ID_MEDIA (i : Nat) : Fld := ⟨0x1002010 + 0x100000 * i, 16, 8⟩
def CAGE_ID_APPSEL (i : Nat) : Fld := ⟨0x1002010 + 0x100000 * i, 24, 4⟩
/-- The whole of CAGE_CMIS_CTL (17_electrical_mechanical). -/
def CAGE_CMIS_CTL (i : Nat) : Fld := ⟨0x1002100 + 0x100000 * i, 0, 64⟩
def CAGE_CMIS_CTL_GO (i : Nat) : Fld := ⟨0x1002100 + 0x100000 * i, 0, 1⟩
def CAGE_CMIS_CTL_WRITE (i : Nat) : Fld := ⟨0x1002100 + 0x100000 * i, 1, 1⟩
def CAGE_CMIS_CTL_BUSY (i : Nat) : Fld := ⟨0x1002100 + 0x100000 * i, 2, 1⟩
def CAGE_CMIS_CTL_RESULT (i : Nat) : Fld := ⟨0x1002100 + 0x100000 * i, 3, 3⟩
def CAGE_CMIS_CTL_REFUSED (i : Nat) : Fld := ⟨0x1002100 + 0x100000 * i, 6, 1⟩
def CAGE_CMIS_CTL_BANK (i : Nat) : Fld := ⟨0x1002100 + 0x100000 * i, 8, 8⟩
def CAGE_CMIS_CTL_PAGE (i : Nat) : Fld := ⟨0x1002100 + 0x100000 * i, 16, 8⟩
def CAGE_CMIS_CTL_OFFSET (i : Nat) : Fld := ⟨0x1002100 + 0x100000 * i, 24, 8⟩
def CAGE_CMIS_CTL_LEN (i : Nat) : Fld := ⟨0x1002100 + 0x100000 * i, 32, 4⟩
/-- The whole of CAGE_CMIS_DATA (17_electrical_mechanical). -/
def CAGE_CMIS_DATA (i : Nat) : Fld := ⟨0x1002108 + 0x100000 * i, 0, 64⟩
/-- The whole of DIR_CFG (06_directory_races). -/
def DIR_CFG : Fld := ⟨0x2000000, 0, 64⟩
def DIR_CFG_WAYS : Fld := ⟨0x2000000, 0, 8⟩
def DIR_CFG_SETS : Fld := ⟨0x2000000, 8, 24⟩
/-- The whole of DIR_OCC0 (06_directory_races). -/
def DIR_OCC0 : Fld := ⟨0x2000008, 0, 64⟩
def DIR_OCC0_USED : Fld := ⟨0x2000008, 0, 22⟩
def DIR_OCC0_COARSE : Fld := ⟨0x2000008, 22, 22⟩
/-- The whole of DIR_OCC1 (06_directory_races). -/
def DIR_OCC1 : Fld := ⟨0x2000010, 0, 64⟩
def DIR_OCC1_EM : Fld := ⟨0x2000010, 0, 22⟩
def DIR_OCC1_O : Fld := ⟨0x2000010, 22, 22⟩
/-- The whole of DIR_RCL (06_directory_races). -/
def DIR_RCL : Fld := ⟨0x2000018, 0, 64⟩
def DIR_RCL_RECALLS : Fld := ⟨0x2000018, 0, 32⟩
def DIR_RCL_DIRTY : Fld := ⟨0x2000018, 32, 32⟩
/-- The whole of DIR_RECOV (06_directory_races). -/
def DIR_RECOV : Fld := ⟨0x2000020, 0, 64⟩
def DIR_RECOV_RECOV : Fld := ⟨0x2000020, 0, 16⟩
def DIR_RECOV_DIRTY2 : Fld := ⟨0x2000020, 16, 16⟩
def DIR_RECOV_INFLIGHT : Fld := ⟨0x2000020, 32, 16⟩
/-- The whole of DIR_BLIND (06_directory_races). -/
def DIR_BLIND : Fld := ⟨0x2000028, 0, 64⟩
def DIR_BLIND_COUNT : Fld := ⟨0x2000028, 0, 8⟩
def DIR_BLIND_CLR : Fld := ⟨0x2000028, 8, 1⟩
def DIR_BLIND_SET : Fld := ⟨0x2000028, 9, 16⟩
def DIR_BLIND_DIE : Fld := ⟨0x2000028, 25, 1⟩
def DIR_BLIND_WAY : Fld := ⟨0x2000028, 26, 4⟩
/-- The whole of DIR_PFLIP (06_directory_races). -/
def DIR_PFLIP : Fld := ⟨0x2000030, 0, 64⟩
def DIR_PFLIP_EBYTES : Fld := ⟨0x2000030, 0, 10⟩
def DIR_PFLIP_MBYTES : Fld := ⟨0x2000030, 10, 4⟩
def DIR_PFLIP_DIE : Fld := ⟨0x2000030, 14, 1⟩
def DIR_PFLIP_ARM : Fld := ⟨0x2000030, 15, 1⟩
/-- The whole of DIR_COHCFG (05_coherence_protocol). -/
def DIR_COHCFG : Fld := ⟨0x2000080, 0, 64⟩
def DIR_COHCFG_HINT_CONFLICT : Fld := ⟨0x2000080, 0, 8⟩
def DIR_COHCFG_HINT_BUSY : Fld := ⟨0x2000080, 8, 8⟩
/-- The whole of DIR_NAKCNT (05_coherence_protocol). -/
def DIR_NAKCNT : Fld := ⟨0x2000088, 0, 64⟩
def DIR_NAKCNT_CONFLICT : Fld := ⟨0x2000088, 0, 16⟩
def DIR_NAKCNT_BUSY : Fld := ⟨0x2000088, 16, 16⟩
def DIR_NAKCNT_MIGRATING : Fld := ⟨0x2000088, 32, 16⟩
def DIR_NAKCNT_STALE : Fld := ⟨0x2000088, 48, 16⟩
/-- The whole of DIR_PARKSTS (05_coherence_protocol). -/
def DIR_PARKSTS : Fld := ⟨0x2000090, 0, 64⟩
def DIR_PARKSTS_PARKED : Fld := ⟨0x2000090, 0, 12⟩
def DIR_PARKSTS_PEAK : Fld := ⟨0x2000090, 16, 12⟩
def DIR_PARKSTS_TOTAL : Fld := ⟨0x2000090, 32, 32⟩
/-- The whole of DIR_SEQSTS (06_directory_races). -/
def DIR_SEQSTS : Fld := ⟨0x2000100, 0, 64⟩
def DIR_SEQSTS_LAST : Fld := ⟨0x2000100, 0, 48⟩
def DIR_SEQSTS_BOBBIN : Fld := ⟨0x2000100, 48, 1⟩
def DIR_SEQSTS_PENDING : Fld := ⟨0x2000100, 49, 12⟩
/-- The whole of DIR_SEQCNT (06_directory_races). -/
def DIR_SEQCNT : Fld := ⟨0x2000108, 0, 64⟩
def DIR_SEQCNT_WRITES : Fld := ⟨0x2000108, 0, 32⟩
def DIR_SEQCNT_FENCES : Fld := ⟨0x2000108, 32, 16⟩
def DIR_SEQCNT_BUSY : Fld := ⟨0x2000108, 48, 16⟩
/-- The whole of POOL_STS (07_pools_roles). -/
def POOL_STS : Fld := ⟨0x2100000, 0, 64⟩
def POOL_STS_SELF : Fld := ⟨0x2100000, 0, 6⟩
def POOL_STS_SELFV : Fld := ⟨0x2100000, 6, 1⟩
def POOL_STS_HOMES : Fld := ⟨0x2100000, 7, 7⟩
def POOL_STS_BOBBIN : Fld := ⟨0x2100000, 14, 1⟩
def POOL_STS_FACE : Fld := ⟨0x2100000, 15, 1⟩
def POOL_STS_RGEN : Fld := ⟨0x2100000, 32, 32⟩
/-- The whole of POOL_VER (07_pools_roles). -/
def POOL_VER (i : Nat) : Fld := ⟨0x2100008 + 0x8000 * i, 0, 64⟩
def POOL_VER_VERSION (i : Nat) : Fld := ⟨0x2100008 + 0x8000 * i, 0, 32⟩
/-- The whole of POOL_ROLES (07_pools_roles). -/
def POOL_ROLES (i : Nat) : Fld := ⟨0x2100010 + 0x8000 * i, 0, 64⟩
def POOL_ROLES_BOBBIN (i : Nat) : Fld := ⟨0x2100010 + 0x8000 * i, 0, 6⟩
def POOL_ROLES_BOBV (i : Nat) : Fld := ⟨0x2100010 + 0x8000 * i, 6, 1⟩
def POOL_ROLES_FACEV (i : Nat) : Fld := ⟨0x2100010 + 0x8000 * i, 7, 1⟩
def POOL_ROLES_FACE (i : Nat) : Fld := ⟨0x2100010 + 0x8000 * i, 8, 6⟩
def POOL_ROLES_BEPOCH (i : Nat) : Fld := ⟨0x2100010 + 0x8000 * i, 16, 16⟩
def POOL_ROLES_FEPOCH (i : Nat) : Fld := ⟨0x2100010 + 0x8000 * i, 32, 16⟩
/-- The whole of POOL_MEMSEL (07_pools_roles). -/
def POOL_MEMSEL (i : Nat) : Fld := ⟨0x2100100 + 0x8000 * i, 0, 64⟩
def POOL_MEMSEL_INDEX (i : Nat) : Fld := ⟨0x2100100 + 0x8000 * i, 0, 6⟩
/-- The whole of POOL_MEM_A (07_pools_roles). -/
def POOL_MEM_A (i sel : Nat) : Fld := ⟨0x2100108 + 0x8000 * i + 0x100000000 * sel, 0, 64⟩
def POOL_MEM_A_VALID (i sel : Nat) : Fld := ⟨0x2100108 + 0x8000 * i + 0x100000000 * sel, 0, 1⟩
def POOL_MEM_A_SPARE (i sel : Nat) : Fld := ⟨0x2100108 + 0x8000 * i + 0x100000000 * sel, 1, 1⟩
def POOL_MEM_A_UPLINK (i sel : Nat) : Fld := ⟨0x2100108 + 0x8000 * i + 0x100000000 * sel, 2, 1⟩
def POOL_MEM_A_NODE (i sel : Nat) : Fld := ⟨0x2100108 + 0x8000 * i + 0x100000000 * sel, 3, 12⟩
def POOL_MEM_A_EPOCH (i sel : Nat) : Fld := ⟨0x2100108 + 0x8000 * i + 0x100000000 * sel, 16, 16⟩
/-- The whole of POOL_MEM_P (07_pools_roles). -/
def POOL_MEM_P (i sel : Nat) : Fld := ⟨0x2100110 + 0x8000 * i + 0x100000000 * sel, 0, 64⟩
/-- The whole of POOL_MEM_Q (07_pools_roles). -/
def POOL_MEM_Q (i sel : Nat) : Fld := ⟨0x2100118 + 0x8000 * i + 0x100000000 * sel, 0, 64⟩
/-- The whole of POOL_CHANSTS (07_pools_roles). -/
def POOL_CHANSTS (i : Nat) : Fld := ⟨0x2100120 + 0x8000 * i, 0, 64⟩
def POOL_CHANSTS_STATE (i : Nat) : Fld := ⟨0x2100120 + 0x8000 * i, 0, 2⟩
def POOL_CHANSTS_ALT (i : Nat) : Fld := ⟨0x2100120 + 0x8000 * i, 2, 1⟩
def POOL_CHANSTS_NEXT (i : Nat) : Fld := ⟨0x2100120 + 0x8000 * i, 4, 15⟩
def POOL_CHANSTS_EXPECT (i : Nat) : Fld := ⟨0x2100120 + 0x8000 * i, 20, 15⟩
/-- The whole of POOL_MAPSEL (07_pools_roles). -/
def POOL_MAPSEL (i : Nat) : Fld := ⟨0x2100200 + 0x8000 * i, 0, 64⟩
def POOL_MAPSEL_WORD (i : Nat) : Fld := ⟨0x2100200 + 0x8000 * i, 0, 14⟩
/-- The whole of POOL_MAPDATA (07_pools_roles). -/
def POOL_MAPDATA (i sel : Nat) : Fld := ⟨0x2100208 + 0x8000 * i + 0x100000000 * sel, 0, 64⟩
/-- The whole of POOL_AGSEL (07_pools_roles). -/
def POOL_AGSEL (i : Nat) : Fld := ⟨0x2100300 + 0x8000 * i, 0, 64⟩
def POOL_AGSEL_AGENT (i : Nat) : Fld := ⟨0x2100300 + 0x8000 * i, 0, 10⟩
/-- The whole of POOL_AGENT (07_pools_roles). -/
def POOL_AGENT (i sel : Nat) : Fld := ⟨0x2100308 + 0x8000 * i + 0x100000000 * sel, 0, 64⟩
def POOL_AGENT_INUSE (i sel : Nat) : Fld := ⟨0x2100308 + 0x8000 * i + 0x100000000 * sel, 0, 1⟩
def POOL_AGENT_MEMBER (i sel : Nat) : Fld := ⟨0x2100308 + 0x8000 * i + 0x100000000 * sel, 1, 6⟩
def POOL_AGENT_PROXY (i sel : Nat) : Fld := ⟨0x2100308 + 0x8000 * i + 0x100000000 * sel, 7, 1⟩
def POOL_AGENT_OAGENT (i sel : Nat) : Fld := ⟨0x2100308 + 0x8000 * i + 0x100000000 * sel, 8, 10⟩
def POOL_AGENT_NODE (i sel : Nat) : Fld := ⟨0x2100308 + 0x8000 * i + 0x100000000 * sel, 18, 12⟩
/-- The whole of POOL_DECLARE_DEAD (07_pools_roles). -/
def POOL_DECLARE_DEAD : Fld := ⟨0x2100400, 0, 64⟩
def POOL_DECLARE_DEAD_NODE : Fld := ⟨0x2100400, 0, 12⟩
def POOL_DECLARE_DEAD_GO : Fld := ⟨0x2100400, 12, 1⟩
def POOL_DECLARE_DEAD_BANK : Fld := ⟨0x2100400, 13, 1⟩
/-- The whole of POOL_DEAD_STS (07_pools_roles). -/
def POOL_DEAD_STS : Fld := ⟨0x2100408, 0, 64⟩
def POOL_DEAD_STS_BUSY : Fld := ⟨0x2100408, 0, 1⟩
def POOL_DEAD_STS_REFUSED : Fld := ⟨0x2100408, 1, 1⟩
def POOL_DEAD_STS_DSEQ : Fld := ⟨0x2100408, 8, 16⟩
def POOL_DEAD_STS_LAST : Fld := ⟨0x2100408, 24, 12⟩
/-- The whole of POOL_HOFF (07_pools_roles). -/
def POOL_HOFF : Fld := ⟨0x2100500, 0, 64⟩
def POOL_HOFF_GO : Fld := ⟨0x2100500, 0, 1⟩
def POOL_HOFF_ABORT : Fld := ⟨0x2100500, 1, 1⟩
def POOL_HOFF_TO : Fld := ⟨0x2100500, 2, 6⟩
/-- The whole of POOL_HOFF_STS (07_pools_roles). -/
def POOL_HOFF_STS : Fld := ⟨0x2100508, 0, 64⟩
def POOL_HOFF_STS_PHASE : Fld := ⟨0x2100508, 0, 3⟩
def POOL_HOFF_STS_RESULT : Fld := ⟨0x2100508, 3, 3⟩
def POOL_HOFF_STS_REFUSED : Fld := ⟨0x2100508, 6, 1⟩
def POOL_HOFF_STS_COPIED : Fld := ⟨0x2100508, 8, 32⟩
def POOL_HOFF_STS_RESID : Fld := ⟨0x2100508, 40, 12⟩
/-- The whole of POOL_HOFF_CNT (07_pools_roles). -/
def POOL_HOFF_CNT : Fld := ⟨0x2100510, 0, 64⟩
def POOL_HOFF_CNT_FWD : Fld := ⟨0x2100510, 0, 32⟩
def POOL_HOFF_CNT_DROPPED : Fld := ⟨0x2100510, 32, 16⟩
def POOL_HOFF_CNT_RESENT : Fld := ⟨0x2100510, 48, 16⟩
/-- The whole of POOL_RELAY (07_pools_roles). -/
def POOL_RELAY : Fld := ⟨0x2100600, 0, 64⟩
def POOL_RELAY_USED : Fld := ⟨0x2100600, 0, 15⟩
def POOL_RELAY_PEAK : Fld := ⟨0x2100600, 16, 15⟩
def POOL_RELAY_FULL : Fld := ⟨0x2100600, 32, 16⟩
/-- The whole of TRN_CFG (02_address_tenancy). -/
def TRN_CFG : Fld := ⟨0x3000000, 0, 64⟩
def TRN_CFG_ETR_SIZE : Fld := ⟨0x3000000, 0, 4⟩
def TRN_CFG_ETR_APPLIED : Fld := ⟨0x3000000, 4, 4⟩
def TRN_CFG_SLOTS : Fld := ⟨0x3000000, 8, 24⟩
/-- The whole of TRN_WIN_SEL (02_address_tenancy). -/
def TRN_WIN_SEL : Fld := ⟨0x3000100, 0, 64⟩
def TRN_WIN_SEL_WIN : Fld := ⟨0x3000100, 0, 16⟩
/-- The whole of TRN_WIN_A (02_address_tenancy). -/
def TRN_WIN_A (sel : Nat) : Fld := ⟨0x3000108 + 0x100000000 * sel, 0, 64⟩
def TRN_WIN_A_EN (sel : Nat) : Fld := ⟨0x3000108 + 0x100000000 * sel, 0, 1⟩
def TRN_WIN_A_RD (sel : Nat) : Fld := ⟨0x3000108 + 0x100000000 * sel, 1, 1⟩
def TRN_WIN_A_WR (sel : Nat) : Fld := ⟨0x3000108 + 0x100000000 * sel, 2, 1⟩
def TRN_WIN_A_AT (sel : Nat) : Fld := ⟨0x3000108 + 0x100000000 * sel, 3, 1⟩
def TRN_WIN_A_CO (sel : Nat) : Fld := ⟨0x3000108 + 0x100000000 * sel, 4, 1⟩
def TRN_WIN_A_BASE (sel : Nat) : Fld := ⟨0x3000108 + 0x100000000 * sel, 21, 31⟩
/-- The whole of TRN_WIN_B (02_address_tenancy). -/
def TRN_WIN_B (sel : Nat) : Fld := ⟨0x3000110 + 0x100000000 * sel, 0, 64⟩
def TRN_WIN_B_SIZE (sel : Nat) : Fld := ⟨0x3000110 + 0x100000000 * sel, 0, 24⟩
def TRN_WIN_B_ETOFF (sel : Nat) : Fld := ⟨0x3000110 + 0x100000000 * sel, 32, 29⟩
/-- The whole of TRN_BSET_SEL (02_address_tenancy). -/
def TRN_BSET_SEL : Fld := ⟨0x3000120, 0, 64⟩
def TRN_BSET_SEL_SET : Fld := ⟨0x3000120, 0, 8⟩
def TRN_BSET_SEL_WORD : Fld := ⟨0x3000120, 8, 6⟩
/-- The whole of TRN_BSET_DATA (02_address_tenancy). -/
def TRN_BSET_DATA (sel : Nat) : Fld := ⟨0x3000128 + 0x100000000 * sel, 0, 64⟩
/-- The whole of TRN_CONN_SEL (02_address_tenancy). -/
def TRN_CONN_SEL : Fld := ⟨0x3000130, 0, 64⟩
def TRN_CONN_SEL_CONN : Fld := ⟨0x3000130, 0, 16⟩
/-- The whole of TRN_CONN_BIND (02_address_tenancy). -/
def TRN_CONN_BIND (sel : Nat) : Fld := ⟨0x3000138 + 0x100000000 * sel, 0, 64⟩
def TRN_CONN_BIND_SET (sel : Nat) : Fld := ⟨0x3000138 + 0x100000000 * sel, 0, 8⟩
def TRN_CONN_BIND_BOUND (sel : Nat) : Fld := ⟨0x3000138 + 0x100000000 * sel, 8, 1⟩
def TRN_CONN_BIND_PORT (sel : Nat) : Fld := ⟨0x3000138 + 0x100000000 * sel, 9, 4⟩
/-- The whole of TRN_ET_ADDR (02_address_tenancy). -/
def TRN_ET_ADDR : Fld := ⟨0x3000140, 0, 64⟩
def TRN_ET_ADDR_AINC : Fld := ⟨0x3000140, 0, 1⟩
def TRN_ET_ADDR_OFF : Fld := ⟨0x3000140, 3, 29⟩
/-- The whole of TRN_ET_DATA (02_address_tenancy). -/
def TRN_ET_DATA : Fld := ⟨0x3000148, 0, 64⟩
/-- The whole of TRN_INV (02_address_tenancy). -/
def TRN_INV : Fld := ⟨0x3000200, 0, 64⟩
def TRN_INV_SCOPE : Fld := ⟨0x3000200, 0, 2⟩
def TRN_INV_TENANT : Fld := ⟨0x3000200, 2, 12⟩
/-- The whole of TRN_INV_RANGE (02_address_tenancy). -/
def TRN_INV_RANGE : Fld := ⟨0x3000208, 0, 64⟩
def TRN_INV_RANGE_COUNT : Fld := ⟨0x3000208, 0, 21⟩
def TRN_INV_RANGE_START : Fld := ⟨0x3000208, 21, 31⟩
/-- The whole of TRN_INV_STS (02_address_tenancy). -/
def TRN_INV_STS : Fld := ⟨0x3000210, 0, 64⟩
def TRN_INV_STS_BUSY : Fld := ⟨0x3000210, 0, 1⟩
def TRN_INV_STS_REFUSED : Fld := ⟨0x3000210, 1, 1⟩
/-- The whole of TRN_ASSIGN_ARG0 (02_address_tenancy). -/
def TRN_ASSIGN_ARG0 : Fld := ⟨0x3000300, 0, 64⟩
def TRN_ASSIGN_ARG0_OP : Fld := ⟨0x3000300, 0, 2⟩
def TRN_ASSIGN_ARG0_TENANT : Fld := ⟨0x3000300, 2, 12⟩
def TRN_ASSIGN_ARG0_HSLOT : Fld := ⟨0x3000300, 14, 24⟩
/-- The whole of TRN_ASSIGN_ARG1 (02_address_tenancy). -/
def TRN_ASSIGN_ARG1 : Fld := ⟨0x3000308, 0, 64⟩
def TRN_ASSIGN_ARG1_PAEXT : Fld := ⟨0x3000308, 21, 31⟩
/-- The whole of TRN_ASSIGN (02_address_tenancy). -/
def TRN_ASSIGN : Fld := ⟨0x3000310, 0, 64⟩
def TRN_ASSIGN_GO : Fld := ⟨0x3000310, 0, 1⟩
/-- The whole of TRN_ASSIGN_STS (02_address_tenancy). -/
def TRN_ASSIGN_STS : Fld := ⟨0x3000318, 0, 64⟩
def TRN_ASSIGN_STS_BUSY : Fld := ⟨0x3000318, 0, 1⟩
def TRN_ASSIGN_STS_RESULT : Fld := ⟨0x3000318, 1, 3⟩
def TRN_ASSIGN_STS_REFUSED : Fld := ⟨0x3000318, 4, 1⟩
def TRN_ASSIGN_STS_HSLOT : Fld := ⟨0x3000318, 8, 24⟩
def TRN_ASSIGN_STS_USED : Fld := ⟨0x3000318, 32, 24⟩
/-- The whole of TRN_REFUSE (02_address_tenancy). -/
def TRN_REFUSE : Fld := ⟨0x3000400, 0, 64⟩
def TRN_REFUSE_DENIED : Fld := ⟨0x3000400, 0, 32⟩
def TRN_REFUSE_NOXL : Fld := ⟨0x3000400, 32, 32⟩
/-- The whole of TRN_TENANT (02_address_tenancy). -/
def TRN_TENANT (j : Nat) : Fld := ⟨0x3010000 + 0x8 * j, 0, 64⟩
def TRN_TENANT_EN (j : Nat) : Fld := ⟨0x3010000 + 0x8 * j, 0, 1⟩
def TRN_TENANT_KSLOT0 (j : Nat) : Fld := ⟨0x3010000 + 0x8 * j, 1, 12⟩
def TRN_TENANT_KSLOT1 (j : Nat) : Fld := ⟨0x3010000 + 0x8 * j, 13, 12⟩
/-- The whole of TIER_CFG (08_tiering). -/
def TIER_CFG : Fld := ⟨0x3100000, 0, 64⟩
def TIER_CFG_POOLMODE : Fld := ⟨0x3100000, 0, 2⟩
def TIER_CFG_EPOCH_MS : Fld := ⟨0x3100000, 2, 14⟩
def TIER_CFG_PLAN : Fld := ⟨0x3100000, 16, 8⟩
def TIER_CFG_SCAN : Fld := ⟨0x3100000, 24, 6⟩
def TIER_CFG_MIGEN : Fld := ⟨0x3100000, 30, 1⟩
def TIER_CFG_MIG_MAX : Fld := ⟨0x3100000, 32, 6⟩
/-- The whole of TIER_THR (08_tiering). -/
def TIER_THR (j : Nat) : Fld := ⟨0x3100008 + 0x8 * j, 0, 64⟩
def TIER_THR_DEMOTE_IDLE (j : Nat) : Fld := ⟨0x3100008 + 0x8 * j, 0, 16⟩
def TIER_THR_PROMOTE_HEAT (j : Nat) : Fld := ⟨0x3100008 + 0x8 * j, 16, 8⟩
def TIER_THR_GUARD (j : Nat) : Fld := ⟨0x3100008 + 0x8 * j, 24, 10⟩
/-- The whole of TIER_RESV (08_tiering). -/
def TIER_RESV : Fld := ⟨0x3100020, 0, 64⟩
def TIER_RESV_LOW_PM : Fld := ⟨0x3100020, 0, 10⟩
def TIER_RESV_PRESS_IDLE : Fld := ⟨0x3100020, 10, 16⟩
def TIER_RESV_MOVE : Fld := ⟨0x3100020, 26, 16⟩
/-- The whole of TIER_SCACHE (08_tiering). -/
def TIER_SCACHE : Fld := ⟨0x3100028, 0, 64⟩
def TIER_SCACHE_FILET_WAYS : Fld := ⟨0x3100028, 0, 4⟩
/-- The whole of TIER_REPL (08_tiering). -/
def TIER_REPL : Fld := ⟨0x3100030, 0, 64⟩
def TIER_REPL_HEAT : Fld := ⟨0x3100030, 0, 8⟩
def TIER_REPL_QUIET : Fld := ⟨0x3100030, 8, 16⟩
def TIER_REPL_COPIES : Fld := ⟨0x3100030, 24, 3⟩
/-- The whole of TIER_REPL_TGT (08_tiering). -/
def TIER_REPL_TGT : Fld := ⟨0x3100038, 0, 64⟩
/-- The whole of TIER_LEND (08_tiering). -/
def TIER_LEND : Fld := ⟨0x3100040, 0, 64⟩
def TIER_LEND_LEND : Fld := ⟨0x3100040, 0, 24⟩
def TIER_LEND_BORROW : Fld := ⟨0x3100040, 24, 24⟩
def TIER_LEND_LENDER : Fld := ⟨0x3100040, 48, 12⟩
def TIER_LEND_LENDV : Fld := ⟨0x3100040, 60, 1⟩
/-- The whole of TIER_CAP (08_tiering). -/
def TIER_CAP : Fld := ⟨0x3100100, 0, 64⟩
def TIER_CAP_EFFECTIVE : Fld := ⟨0x3100100, 0, 24⟩
/-- The whole of TIER_DIE (08_tiering). -/
def TIER_DIE (j : Nat) : Fld := ⟨0x3100108 + 0x8 * j, 0, 64⟩
def TIER_DIE_FREE (j : Nat) : Fld := ⟨0x3100108 + 0x8 * j, 0, 32⟩
def TIER_DIE_BINS (j : Nat) : Fld := ⟨0x3100108 + 0x8 * j, 32, 32⟩
/-- The whole of TIER_LENDSTS (08_tiering). -/
def TIER_LENDSTS : Fld := ⟨0x3100118, 0, 64⟩
def TIER_LENDSTS_LENT : Fld := ⟨0x3100118, 0, 32⟩
def TIER_LENDSTS_BORROWED : Fld := ⟨0x3100118, 32, 32⟩
/-- The whole of TIER_MIGCNT (08_tiering). -/
def TIER_MIGCNT : Fld := ⟨0x3100200, 0, 64⟩
def TIER_MIGCNT_PROMOTE : Fld := ⟨0x3100200, 0, 16⟩
def TIER_MIGCNT_DEMOTE : Fld := ⟨0x3100200, 16, 16⟩
def TIER_MIGCNT_ABANDON : Fld := ⟨0x3100200, 32, 16⟩
def TIER_MIGCNT_RELOC : Fld := ⟨0x3100200, 48, 16⟩
/-- The whole of TIER_SCCNT (08_tiering). -/
def TIER_SCCNT : Fld := ⟨0x3100208, 0, 64⟩
def TIER_SCCNT_HIT : Fld := ⟨0x3100208, 0, 32⟩
def TIER_SCCNT_MISS : Fld := ⟨0x3100208, 32, 32⟩
/-- The whole of TIER_WARMCNT (08_tiering). -/
def TIER_WARMCNT : Fld := ⟨0x3100210, 0, 64⟩
def TIER_WARMCNT_WARM : Fld := ⟨0x3100210, 0, 32⟩
def TIER_WARMCNT_PAUSE : Fld := ⟨0x3100210, 32, 16⟩
def TIER_WARMCNT_FULLPROMO : Fld := ⟨0x3100210, 48, 16⟩
/-- The whole of TIER_TMODE (08_tiering). -/
def TIER_TMODE (j : Nat) : Fld := ⟨0x3110000 + 0x8 * j, 0, 64⟩
def TIER_TMODE_MODE (j : Nat) : Fld := ⟨0x3110000 + 0x8 * j, 0, 2⟩
def TIER_TMODE_OVR (j : Nat) : Fld := ⟨0x3110000 + 0x8 * j, 2, 1⟩
def TIER_TMODE_REPL (j : Nat) : Fld := ⟨0x3110000 + 0x8 * j, 3, 1⟩
/-- The whole of CMP_CFG (09_compression_format). -/
def CMP_CFG : Fld := ⟨0x3200000, 0, 64⟩
def CMP_CFG_NCOMP : Fld := ⟨0x3200000, 0, 4⟩
def CMP_CFG_NDECOMP : Fld := ⟨0x3200000, 4, 4⟩
/-- The whole of CMP_ENGSTS (09_compression_format). -/
def CMP_ENGSTS : Fld := ⟨0x3200008, 0, 64⟩
def CMP_ENGSTS_COMP0 : Fld := ⟨0x3200008, 0, 4⟩
def CMP_ENGSTS_COMP1 : Fld := ⟨0x3200008, 4, 4⟩
def CMP_ENGSTS_DEC0 : Fld := ⟨0x3200008, 8, 8⟩
def CMP_ENGSTS_DEC1 : Fld := ⟨0x3200008, 16, 8⟩
/-- The whole of CMP_TYPECNT (09_compression_format). -/
def CMP_TYPECNT : Fld := ⟨0x3200100, 0, 64⟩
def CMP_TYPECNT_ZERO : Fld := ⟨0x3200100, 0, 16⟩
def CMP_TYPECNT_PATTERN : Fld := ⟨0x3200100, 16, 16⟩
def CMP_TYPECNT_LZ : Fld := ⟨0x3200100, 32, 16⟩
def CMP_TYPECNT_RAW : Fld := ⟨0x3200100, 48, 16⟩
/-- The whole of CMP_BYTECNT (09_compression_format). -/
def CMP_BYTECNT : Fld := ⟨0x3200108, 0, 64⟩
def CMP_BYTECNT_ORIG : Fld := ⟨0x3200108, 0, 32⟩
def CMP_BYTECNT_STORED : Fld := ⟨0x3200108, 32, 32⟩
/-- The whole of CMP_DFLTCNT0 (09_compression_format). -/
def CMP_DFLTCNT0 : Fld := ⟨0x3200110, 0, 64⟩
def CMP_DFLTCNT0_ILLEGAL : Fld := ⟨0x3200110, 0, 16⟩
def CMP_DFLTCNT0_DIST : Fld := ⟨0x3200110, 16, 16⟩
def CMP_DFLTCNT0_OVERRUN : Fld := ⟨0x3200110, 32, 16⟩
def CMP_DFLTCNT0_UNDERRUN : Fld := ⟨0x3200110, 48, 16⟩
/-- The whole of CMP_DFLTCNT1 (09_compression_format). -/
def CMP_DFLTCNT1 : Fld := ⟨0x3200118, 0, 64⟩
def CMP_DFLTCNT1_CHECK : Fld := ⟨0x3200118, 0, 16⟩
def CMP_DFLTCNT1_ALARM : Fld := ⟨0x3200118, 16, 16⟩
def CMP_DFLTCNT1_EPAR : Fld := ⟨0x3200118, 32, 16⟩
def CMP_DFLTCNT1_VERIFY : Fld := ⟨0x3200118, 48, 16⟩
/-- The whole of CMP_LASTFLT0 (09_compression_format). -/
def CMP_LASTFLT0 : Fld := ⟨0x3200120, 0, 64⟩
def CMP_LASTFLT0_CODE : Fld := ⟨0x3200120, 0, 4⟩
def CMP_LASTFLT0_TYPE : Fld := ⟨0x3200120, 4, 2⟩
def CMP_LASTFLT0_DIE : Fld := ⟨0x3200120, 6, 1⟩
def CMP_LASTFLT0_ALARM : Fld := ⟨0x3200120, 7, 1⟩
def CMP_LASTFLT0_SEGPA : Fld := ⟨0x3200120, 10, 42⟩
/-- The whole of CMP_LASTFLT1 (09_compression_format). -/
def CMP_LASTFLT1 : Fld := ⟨0x3200128, 0, 64⟩
def CMP_LASTFLT1_INPOS : Fld := ⟨0x3200128, 0, 11⟩
def CMP_LASTFLT1_OUTCNT : Fld := ⟨0x3200128, 16, 11⟩
def CMP_LASTFLT1_OWNER : Fld := ⟨0x3200128, 32, 12⟩
/-- The whole of CMP_PFLIP (09_compression_format). -/
def CMP_PFLIP : Fld := ⟨0x3200200, 0, 64⟩
def CMP_PFLIP_ARM : Fld := ⟨0x3200200, 0, 1⟩
def CMP_PFLIP_DIE : Fld := ⟨0x3200200, 1, 1⟩
def CMP_PFLIP_KIND : Fld := ⟨0x3200200, 2, 1⟩
def CMP_PFLIP_ENGINE : Fld := ⟨0x3200200, 3, 3⟩
/-- The whole of CMP_TCTL (09_compression_format). -/
def CMP_TCTL : Fld := ⟨0x3200300, 0, 64⟩
def CMP_TCTL_GO : Fld := ⟨0x3200300, 0, 1⟩
def CMP_TCTL_OP : Fld := ⟨0x3200300, 1, 1⟩
def CMP_TCTL_DIE : Fld := ⟨0x3200300, 2, 1⟩
def CMP_TCTL_BUSY : Fld := ⟨0x3200300, 3, 1⟩
def CMP_TCTL_RESULT : Fld := ⟨0x3200300, 4, 4⟩
def CMP_TCTL_INPOS : Fld := ⟨0x3200300, 8, 11⟩
def CMP_TCTL_OUTCNT : Fld := ⟨0x3200300, 19, 11⟩
def CMP_TCTL_REFUSED : Fld := ⟨0x3200300, 30, 1⟩
/-- The whole of CMP_TDESC (09_compression_format). -/
def CMP_TDESC : Fld := ⟨0x3200308, 0, 64⟩
def CMP_TDESC_TYPE : Fld := ⟨0x3200308, 0, 2⟩
def CMP_TDESC_LEN : Fld := ⟨0x3200308, 2, 11⟩
def CMP_TDESC_CHK : Fld := ⟨0x3200308, 32, 32⟩
/-- The whole of CMP_TIN (09_compression_format). -/
def CMP_TIN (j : Nat) : Fld := ⟨0x3201000 + 0x8 * j, 0, 64⟩
/-- The whole of CMP_TOUT (09_compression_format). -/
def CMP_TOUT (j : Nat) : Fld := ⟨0x3202000 + 0x8 * j, 0, 64⟩
/-- The whole of XTS_CFG (11_encryption). -/
def XTS_CFG : Fld := ⟨0x3300000, 0, 64⟩
def XTS_CFG_BUDGET_LOG2 : Fld := ⟨0x3300000, 0, 6⟩
def XTS_CFG_RKRATE : Fld := ⟨0x3300000, 8, 6⟩
def XTS_CFG_ALARM_LIMIT : Fld := ⟨0x3300000, 16, 16⟩
def XTS_CFG_LOCKEN : Fld := ⟨0x3300000, 32, 1⟩
/-- The whole of XTS_STS (11_encryption). -/
def XTS_STS : Fld := ⟨0x3300008, 0, 64⟩
def XTS_STS_KEKV : Fld := ⟨0x3300008, 0, 1⟩
def XTS_STS_PVSET : Fld := ⟨0x3300008, 1, 1⟩
def XTS_STS_REKEYS : Fld := ⟨0x3300008, 8, 7⟩
def XTS_STS_KEKID : Fld := ⟨0x3300008, 32, 32⟩
/-- The whole of XTS_ALARM (11_encryption). -/
def XTS_ALARM : Fld := ⟨0x3300010, 0, 64⟩
def XTS_ALARM_WINDOW : Fld := ⟨0x3300010, 0, 16⟩
def XTS_ALARM_LAST : Fld := ⟨0x3300010, 16, 16⟩
def XTS_ALARM_TOTAL : Fld := ⟨0x3300010, 32, 32⟩
/-- The whole of XTS_ZEROISE (11_encryption). -/
def XTS_ZEROISE : Fld := ⟨0x3300018, 0, 64⟩
def XTS_ZEROISE_GO : Fld := ⟨0x3300018, 0, 1⟩
def XTS_ZEROISE_CONFIRM : Fld := ⟨0x3300018, 16, 16⟩
/-- The whole of XTS_PIPES (11_encryption). -/
def XTS_PIPES : Fld := ⟨0x3300020, 0, 64⟩
def XTS_PIPES_INSERV : Fld := ⟨0x3300020, 0, 32⟩
/-- The whole of XTS_DEVPUB (11_encryption). -/
def XTS_DEVPUB (j : Nat) : Fld := ⟨0x3300100 + 0x8 * j, 0, 64⟩
/-- The whole of XTS_PROV (11_encryption). -/
def XTS_PROV (j : Nat) : Fld := ⟨0x3300180 + 0x8 * j, 0, 64⟩
/-- The whole of XTS_KEYIN (11_encryption). -/
def XTS_KEYIN (j : Nat) : Fld := ⟨0x3300200 + 0x8 * j, 0, 64⟩
/-- The whole of XTS_KEYCTL (11_encryption). -/
def XTS_KEYCTL : Fld := ⟨0x3300250, 0, 64⟩
def XTS_KEYCTL_GO : Fld := ⟨0x3300250, 0, 1⟩
def XTS_KEYCTL_OP : Fld := ⟨0x3300250, 1, 1⟩
def XTS_KEYCTL_SLOT : Fld := ⟨0x3300250, 2, 12⟩
def XTS_KEYCTL_BUSY : Fld := ⟨0x3300250, 14, 1⟩
def XTS_KEYCTL_RESULT : Fld := ⟨0x3300250, 15, 3⟩
def XTS_KEYCTL_REFUSED : Fld := ⟨0x3300250, 18, 1⟩
/-- The whole of XTS_SLOTSEL (11_encryption). -/
def XTS_SLOTSEL : Fld := ⟨0x3300258, 0, 64⟩
def XTS_SLOTSEL_SLOT : Fld := ⟨0x3300258, 0, 12⟩
/-- The whole of XTS_SLOT (11_encryption). -/
def XTS_SLOT : Fld := ⟨0x3300260, 0, 64⟩
def XTS_SLOT_VALID : Fld := ⟨0x3300260, 0, 1⟩
def XTS_SLOT_FAILED : Fld := ⟨0x3300260, 1, 1⟩
def XTS_SLOT_REF : Fld := ⟨0x3300260, 2, 1⟩
def XTS_SLOT_DUE : Fld := ⟨0x3300260, 3, 1⟩
def XTS_SLOT_KID : Fld := ⟨0x3300260, 32, 32⟩
/-- The whole of XTS_SLOTCNT (11_encryption). -/
def XTS_SLOTCNT : Fld := ⟨0x3300268, 0, 64⟩
def XTS_SLOTCNT_WRITES : Fld := ⟨0x3300268, 0, 48⟩
/-- The whole of XTS_TSTATE (11_encryption). -/
def XTS_TSTATE (j : Nat) : Fld := ⟨0x3310000 + 0x8 * j, 0, 64⟩
def XTS_TSTATE_CUR (j : Nat) : Fld := ⟨0x3310000 + 0x8 * j, 0, 1⟩
def XTS_TSTATE_RUNNING (j : Nat) : Fld := ⟨0x3310000 + 0x8 * j, 1, 1⟩
def XTS_TSTATE_PAUSED (j : Nat) : Fld := ⟨0x3310000 + 0x8 * j, 2, 1⟩
def XTS_TSTATE_DUE (j : Nat) : Fld := ⟨0x3310000 + 0x8 * j, 3, 1⟩
def XTS_TSTATE_LEFT (j : Nat) : Fld := ⟨0x3310000 + 0x8 * j, 32, 32⟩
/-- The whole of MEM_CFG (10_dram_integrity). -/
def MEM_CFG (i : Nat) : Fld := ⟨0x4000000 + 0x10000 * i, 0, 64⟩
def MEM_CFG_DPC (i : Nat) : Fld := ⟨0x4000000 + 0x10000 * i, 0, 2⟩
def MEM_CFG_RANKS (i : Nat) : Fld := ⟨0x4000000 + 0x10000 * i, 2, 2⟩
def MEM_CFG_STACK (i : Nat) : Fld := ⟨0x4000000 + 0x10000 * i, 4, 2⟩
def MEM_CFG_CAPGIB (i : Nat) : Fld := ⟨0x4000000 + 0x10000 * i, 6, 10⟩
def MEM_CFG_SPEED (i : Nat) : Fld := ⟨0x4000000 + 0x10000 * i, 16, 16⟩
/-- The whole of MEM_STS (10_dram_integrity). -/
def MEM_STS (i : Nat) : Fld := ⟨0x4000008 + 0x10000 * i, 0, 64⟩
def MEM_STS_READY (i : Nat) : Fld := ⟨0x4000008 + 0x10000 * i, 0, 1⟩
def MEM_STS_LEFTOUT (i : Nat) : Fld := ⟨0x4000008 + 0x10000 * i, 1, 1⟩
def MEM_STS_REASON (i : Nat) : Fld := ⟨0x4000008 + 0x10000 * i, 2, 3⟩
def MEM_STS_SELFREF (i : Nat) : Fld := ⟨0x4000008 + 0x10000 * i, 5, 1⟩
def MEM_STS_HOTREF (i : Nat) : Fld := ⟨0x4000008 + 0x10000 * i, 6, 1⟩
def MEM_STS_THROTTLE (i : Nat) : Fld := ⟨0x4000008 + 0x10000 * i, 7, 1⟩
def MEM_STS_TEMP (i : Nat) : Fld := ⟨0x4000008 + 0x10000 * i, 8, 8⟩
/-- The whole of MEM_ERRCNT (10_dram_integrity). -/
def MEM_ERRCNT (i : Nat) : Fld := ⟨0x4000010 + 0x10000 * i, 0, 64⟩
def MEM_ERRCNT_CE (i : Nat) : Fld := ⟨0x4000010 + 0x10000 * i, 0, 32⟩
def MEM_ERRCNT_UE (i : Nat) : Fld := ⟨0x4000010 + 0x10000 * i, 32, 16⟩
def MEM_ERRCNT_CAPAR (i : Nat) : Fld := ⟨0x4000010 + 0x10000 * i, 48, 16⟩
/-- The whole of MEM_RETIRE (10_dram_integrity). -/
def MEM_RETIRE (i : Nat) : Fld := ⟨0x4000018 + 0x10000 * i, 0, 64⟩
/-- The whole of MEM_DEVSEL (10_dram_integrity). -/
def MEM_DEVSEL (i : Nat) : Fld := ⟨0x4000020 + 0x10000 * i, 0, 64⟩
def MEM_DEVSEL_RANK (i : Nat) : Fld := ⟨0x4000020 + 0x10000 * i, 0, 2⟩
def MEM_DEVSEL_SUBCH (i : Nat) : Fld := ⟨0x4000020 + 0x10000 * i, 2, 1⟩
/-- The whole of MEM_DEVCNT (10_dram_integrity). -/
def MEM_DEVCNT (i : Nat) : Fld := ⟨0x4000028 + 0x10000 * i, 0, 64⟩
/-- The whole of MEM_FLIPMASK (10_dram_integrity). -/
def MEM_FLIPMASK (i j : Nat) : Fld := ⟨0x4000100 + 0x10000 * i + 0x8 * j, 0, 64⟩
/-- The whole of MEM_FLIPCTL (10_dram_integrity). -/
def MEM_FLIPCTL (i : Nat) : Fld := ⟨0x4000150 + 0x10000 * i, 0, 64⟩
def MEM_FLIPCTL_ARM (i : Nat) : Fld := ⟨0x4000150 + 0x10000 * i, 0, 1⟩
def MEM_FLIPCTL_MATCH (i : Nat) : Fld := ⟨0x4000150 + 0x10000 * i, 1, 1⟩
def MEM_FLIPCTL_FRAME (i : Nat) : Fld := ⟨0x4000150 + 0x10000 * i, 2, 32⟩
def MEM_FLIPCTL_LINE (i : Nat) : Fld := ⟨0x4000150 + 0x10000 * i, 34, 6⟩
/-- The whole of ECC_SCRUB (10_dram_integrity). -/
def ECC_SCRUB : Fld := ⟨0x4200000, 0, 64⟩
def ECC_SCRUB_EN : Fld := ⟨0x4200000, 0, 1⟩
def ECC_SCRUB_PERIOD_H : Fld := ⟨0x4200000, 1, 8⟩
/-- The whole of ECC_RETIRE (10_dram_integrity). -/
def ECC_RETIRE : Fld := ⟨0x4200008, 0, 64⟩
def ECC_RETIRE_EN : Fld := ⟨0x4200008, 0, 1⟩
def ECC_RETIRE_THRESH : Fld := ⟨0x4200008, 1, 6⟩
/-- The whole of ECC_SCRUBSTS (10_dram_integrity). -/
def ECC_SCRUBSTS : Fld := ⟨0x4200010, 0, 64⟩
def ECC_SCRUBSTS_PASSES : Fld := ⟨0x4200010, 0, 16⟩
def ECC_SCRUBSTS_PROGRESS : Fld := ⟨0x4200010, 16, 7⟩
def ECC_SCRUBSTS_REWRITES : Fld := ⟨0x4200010, 32, 32⟩
/-- The whole of ECC_UELOG0 (10_dram_integrity). -/
def ECC_UELOG0 : Fld := ⟨0x4200018, 0, 64⟩
def ECC_UELOG0_CHAN : Fld := ⟨0x4200018, 0, 5⟩
def ECC_UELOG0_RANK : Fld := ⟨0x4200018, 5, 2⟩
def ECC_UELOG0_SUBCH : Fld := ⟨0x4200018, 7, 1⟩
def ECC_UELOG0_FRAME : Fld := ⟨0x4200018, 8, 32⟩
def ECC_UELOG0_LINE : Fld := ⟨0x4200018, 40, 6⟩
def ECC_UELOG0_KIND : Fld := ⟨0x4200018, 46, 2⟩
def ECC_UELOG0_SOURCE : Fld := ⟨0x4200018, 48, 3⟩
/-- The whole of ECC_UELOG1 (10_dram_integrity). -/
def ECC_UELOG1 : Fld := ⟨0x4200020, 0, 64⟩
/-- The whole of ECC_MERGECNT (10_dram_integrity). -/
def ECC_MERGECNT : Fld := ⟨0x4200028, 0, 64⟩
def ECC_MERGECNT_CLOSED : Fld := ⟨0x4200028, 0, 32⟩
def ECC_MERGECNT_EARLY : Fld := ⟨0x4200028, 32, 16⟩
def ECC_MERGECNT_FULLMASK : Fld := ⟨0x4200028, 48, 16⟩
/-- The whole of ECC_PFLIP (10_dram_integrity). -/
def ECC_PFLIP : Fld := ⟨0x4200030, 0, 64⟩
def ECC_PFLIP_CLASS : Fld := ⟨0x4200030, 0, 4⟩
def ECC_PFLIP_DIE : Fld := ⟨0x4200030, 4, 1⟩
def ECC_PFLIP_ARM : Fld := ⟨0x4200030, 5, 1⟩
def ECC_PFLIP_UNIT : Fld := ⟨0x4200030, 8, 5⟩
/-- The whole of MTR_CFG (12_metering_counters). -/
def MTR_CFG : Fld := ⟨0x5000000, 0, 64⟩
def MTR_CFG_INTERVAL : Fld := ⟨0x5000000, 0, 12⟩
/-- The whole of MTR_PTPCFG (12_metering_counters). -/
def MTR_PTPCFG : Fld := ⟨0x5000008, 0, 64⟩
def MTR_PTPCFG_PPSOUT : Fld := ⟨0x5000008, 0, 1⟩
def MTR_PTPCFG_PPSIN : Fld := ⟨0x5000008, 1, 1⟩
/-- The whole of MTR_PTPSTS (12_metering_counters). -/
def MTR_PTPSTS : Fld := ⟨0x5000010, 0, 64⟩
def MTR_PTPSTS_STATE : Fld := ⟨0x5000010, 0, 2⟩
def MTR_PTPSTS_PORT : Fld := ⟨0x5000010, 2, 5⟩
def MTR_PTPSTS_OFFSET : Fld := ⟨0x5000010, 8, 32⟩
/-- The whole of MTR_TIME (12_metering_counters). -/
def MTR_TIME : Fld := ⟨0x5000018, 0, 64⟩
/-- The whole of MTR_PPSIN (12_metering_counters). -/
def MTR_PPSIN : Fld := ⟨0x5000020, 0, 64⟩
/-- The whole of MTR_PROD (12_metering_counters). -/
def MTR_PROD : Fld := ⟨0x5000100, 0, 64⟩
/-- The whole of MTR_CONS (12_metering_counters). -/
def MTR_CONS : Fld := ⟨0x5000108, 0, 64⟩
/-- The whole of MTR_LSTS (12_metering_counters). -/
def MTR_LSTS : Fld := ⟨0x5000110, 0, 64⟩
def MTR_LSTS_FULL : Fld := ⟨0x5000110, 0, 1⟩
def MTR_LSTS_REFUSED : Fld := ⟨0x5000110, 1, 1⟩
def MTR_LSTS_CARRIED : Fld := ⟨0x5000110, 16, 13⟩
def MTR_LSTS_MERGEDCNT : Fld := ⟨0x5000110, 32, 32⟩
/-- The whole of MTR_BOUND (12_metering_counters). -/
def MTR_BOUND : Fld := ⟨0x5000118, 0, 64⟩
/-- The whole of MTR_LRD_SEL (12_metering_counters). -/
def MTR_LRD_SEL : Fld := ⟨0x5000200, 0, 64⟩
def MTR_LRD_SEL_INDEX : Fld := ⟨0x5000200, 0, 21⟩
/-- The whole of MTR_LRD (12_metering_counters). -/
def MTR_LRD (j : Nat) : Fld := ⟨0x5000208 + 0x8 * j, 0, 64⟩
/-- The whole of MTR_TSEL (12_metering_counters). -/
def MTR_TSEL : Fld := ⟨0x5000300, 0, 64⟩
def MTR_TSEL_TENANT : Fld := ⟨0x5000300, 0, 12⟩
/-- The whole of MTR_TACC (12_metering_counters). -/
def MTR_TACC (j : Nat) : Fld := ⟨0x5000308 + 0x8 * j, 0, 64⟩
/-- The whole of PRF_GCTL (12_metering_counters). -/
def PRF_GCTL : Fld := ⟨0x5100000, 0, 64⟩
def PRF_GCTL_FREEZE : Fld := ⟨0x5100000, 0, 1⟩
def PRF_GCTL_CLEAR : Fld := ⟨0x5100000, 1, 1⟩
/-- The whole of PRF_TENANT_READ (12_metering_counters). -/
def PRF_TENANT_READ : Fld := ⟨0x5100008, 0, 64⟩
def PRF_TENANT_READ_EN : Fld := ⟨0x5100008, 0, 1⟩
/-- The whole of PRF_DUMP (12_metering_counters). -/
def PRF_DUMP : Fld := ⟨0x5100010, 0, 64⟩
def PRF_DUMP_MS : Fld := ⟨0x5100010, 0, 14⟩
/-- The whole of PRF_DUMPSTS (12_metering_counters). -/
def PRF_DUMPSTS : Fld := ⟨0x5100018, 0, 64⟩
/-- The whole of PRF_SAMPLE0 (12_metering_counters). -/
def PRF_SAMPLE0 : Fld := ⟨0x5100020, 0, 64⟩
def PRF_SAMPLE0_BANK : Fld := ⟨0x5100020, 0, 5⟩
def PRF_SAMPLE0_CTR : Fld := ⟨0x5100020, 5, 3⟩
def PRF_SAMPLE0_TXID : Fld := ⟨0x5100020, 8, 16⟩
def PRF_SAMPLE0_TENANT : Fld := ⟨0x5100020, 24, 12⟩
def PRF_SAMPLE0_TV : Fld := ⟨0x5100020, 36, 1⟩
/-- The whole of PRF_SAMPLE1 (12_metering_counters). -/
def PRF_SAMPLE1 : Fld := ⟨0x5100028, 0, 64⟩
def PRF_SAMPLE1_LOST : Fld := ⟨0x5100028, 0, 32⟩
/-- The whole of PRF_DRD_SEL (12_metering_counters). -/
def PRF_DRD_SEL : Fld := ⟨0x5100100, 0, 64⟩
def PRF_DRD_SEL_SLOT : Fld := ⟨0x5100100, 0, 15⟩
/-- The whole of PRF_DRD (12_metering_counters). -/
def PRF_DRD (j : Nat) : Fld := ⟨0x5100108 + 0x8 * j, 0, 64⟩
/-- The whole of PRF_CYC (12_metering_counters). -/
def PRF_CYC (i : Nat) : Fld := ⟨0x5101000 + 0x100 * i, 0, 64⟩
/-- The whole of PRF_CTL (12_metering_counters). -/
def PRF_CTL (i j : Nat) : Fld := ⟨0x5101008 + 0x100 * i + 0x8 * j, 0, 64⟩
def PRF_CTL_EVENT (i j : Nat) : Fld := ⟨0x5101008 + 0x100 * i + 0x8 * j, 0, 8⟩
def PRF_CTL_MODE (i j : Nat) : Fld := ⟨0x5101008 + 0x100 * i + 0x8 * j, 8, 2⟩
def PRF_CTL_N (i j : Nat) : Fld := ⟨0x5101008 + 0x100 * i + 0x8 * j, 10, 16⟩
def PRF_CTL_QUAL (i j : Nat) : Fld := ⟨0x5101008 + 0x100 * i + 0x8 * j, 26, 1⟩
def PRF_CTL_TENANT (i j : Nat) : Fld := ⟨0x5101008 + 0x100 * i + 0x8 * j, 27, 12⟩
def PRF_CTL_SAMPLE (i j : Nat) : Fld := ⟨0x5101008 + 0x100 * i + 0x8 * j, 39, 1⟩
def PRF_CTL_TREAD (i j : Nat) : Fld := ⟨0x5101008 + 0x100 * i + 0x8 * j, 40, 1⟩
/-- The whole of PRF_CNT (12_metering_counters). -/
def PRF_CNT (i j : Nat) : Fld := ⟨0x5101048 + 0x100 * i + 0x8 * j, 0, 64⟩
def PRF_CNT_COUNT (i j : Nat) : Fld := ⟨0x5101048 + 0x100 * i + 0x8 * j, 0, 48⟩
/-- The whole of PRF_OVF (12_metering_counters). -/
def PRF_OVF (i : Nat) : Fld := ⟨0x5101088 + 0x100 * i, 0, 64⟩
def PRF_OVF_OVF (i : Nat) : Fld := ⟨0x5101088 + 0x100 * i, 0, 8⟩
/-- The whole of NTQ_CFG (13_faults_notices). -/
def NTQ_CFG : Fld := ⟨0x6000000, 0, 64⟩
def NTQ_CFG_HOLDOFF : Fld := ⟨0x6000000, 0, 16⟩
/-- The whole of NTQ_COUNT (13_faults_notices). -/
def NTQ_COUNT : Fld := ⟨0x6000008, 0, 64⟩
def NTQ_COUNT_PENDING : Fld := ⟨0x6000008, 0, 13⟩
def NTQ_COUNT_DELIVERED : Fld := ⟨0x6000008, 16, 13⟩
/-- The whole of NTQ_STS (13_faults_notices). -/
def NTQ_STS : Fld := ⟨0x6000010, 0, 64⟩
def NTQ_STS_OVERRUN : Fld := ⟨0x6000010, 0, 1⟩
def NTQ_STS_RLREFUSED : Fld := ⟨0x6000010, 1, 1⟩
def NTQ_STS_RWREFUSED : Fld := ⟨0x6000010, 2, 1⟩
def NTQ_STS_MARKV : Fld := ⟨0x6000010, 3, 1⟩
def NTQ_STS_M : Fld := ⟨0x6000010, 32, 32⟩
/-- The whole of NTQ_POP (13_faults_notices). -/
def NTQ_POP : Fld := ⟨0x6000018, 0, 64⟩
def NTQ_POP_DSEQ : Fld := ⟨0x6000018, 0, 32⟩
def NTQ_POP_V : Fld := ⟨0x6000018, 32, 1⟩
/-- The whole of NTQ_NREC (13_faults_notices). -/
def NTQ_NREC (j : Nat) : Fld := ⟨0x6000020 + 0x8 * j, 0, 64⟩
/-- The whole of NTQ_CTL (13_faults_notices). -/
def NTQ_CTL : Fld := ⟨0x6000040, 0, 64⟩
def NTQ_CTL_MARK : Fld := ⟨0x6000040, 0, 1⟩
def NTQ_CTL_REWIND : Fld := ⟨0x6000040, 1, 1⟩
/-- The whole of NTQ_RELEASE (13_faults_notices). -/
def NTQ_RELEASE : Fld := ⟨0x6000048, 0, 64⟩
def NTQ_RELEASE_DSEQ : Fld := ⟨0x6000048, 0, 32⟩
def NTQ_RELEASE_GO : Fld := ⟨0x6000048, 32, 1⟩
/-- The whole of NTQ_LOST (13_faults_notices). -/
def NTQ_LOST : Fld := ⟨0x6000050, 0, 64⟩
def NTQ_LOST_LOST : Fld := ⟨0x6000050, 0, 32⟩
/-- The whole of NTQ_FLTMAP (13_faults_notices). -/
def NTQ_FLTMAP : Fld := ⟨0x6000058, 0, 64⟩
def NTQ_FLTMAP_MAP : Fld := ⟨0x6000058, 0, 46⟩
/-- The whole of NTQ_ALERTMAP (13_faults_notices). -/
def NTQ_ALERTMAP : Fld := ⟨0x6000060, 0, 64⟩
def NTQ_ALERTMAP_MAP : Fld := ⟨0x6000060, 0, 46⟩
/-- FLTSTS of the block at base `b` (13_faults_notices, R426). -/
def BLK_FLTSTS (b : Nat) : Fld := ⟨b + 0xf00, 0, 64⟩
def BLK_FLTSTS_CAUSE (b : Nat) : Fld := ⟨b + 0xf00, 1, 63⟩
/-- FLTFIRST of the block at base `b` (13_faults_notices, R426). -/
def BLK_FLTFIRST (b : Nat) : Fld := ⟨b + 0xf08, 0, 64⟩
def BLK_FLTFIRST_V (b : Nat) : Fld := ⟨b + 0xf08, 0, 1⟩
def BLK_FLTFIRST_SEV (b : Nat) : Fld := ⟨b + 0xf08, 1, 3⟩
def BLK_FLTFIRST_CODE (b : Nat) : Fld := ⟨b + 0xf08, 4, 8⟩
def BLK_FLTFIRST_TXID (b : Nat) : Fld := ⟨b + 0xf08, 12, 16⟩
def BLK_FLTFIRST_TIME (b : Nat) : Fld := ⟨b + 0xf08, 28, 36⟩
/-- FLTOVF of the block at base `b` (13_faults_notices, R426). -/
def BLK_FLTOVF (b : Nat) : Fld := ⟨b + 0xf10, 0, 64⟩
def BLK_FLTOVF_OVF (b : Nat) : Fld := ⟨b + 0xf10, 0, 1⟩
def BLK_FLTOVF_MAXSEV (b : Nat) : Fld := ⟨b + 0xf10, 1, 3⟩
def BLK_FLTOVF_COUNT (b : Nat) : Fld := ⟨b + 0xf10, 16, 16⟩

end F

/-- Registers of the Gbl group. -/
def regsGbl : List RegDef := [
  ⟨"GBL_ID", 0x0, 1, 0x0, 1, 0, none, 0x24504c, 0x0, 0x0, 0x0, ⟨0x0, 0x0, 0x0, 0x0, 0x0⟩⟩,
  ⟨"GBL_SERIAL", 0x8, 1, 0x0, 1, 0, none, 0x0, 0x0, 0x0, 0x0, ⟨0x0, 0x0, 0x0, 0x0, 0x0⟩⟩,
  ⟨"GBL_STATUS", 0x10, 1, 0x0, 1, 0, none, 0x0, 0x0, 0x0, 0x0, ⟨0x0, 0x0, 0x0, 0x0, 0x0⟩⟩,
  ⟨"GBL_MCSTS", 0x18, 1, 0x0, 1, 0, none, 0x0, 0x0, 0x0, 0x0, ⟨0x0, 0x0, 0x0, 0x0, 0x0⟩⟩,
  ⟨"GBL_ALLOW_SEL", 0x100, 1, 0x0, 1, 0, none, 0x0, 0x3f, 0x0, 0x0, ⟨0x0, 0x0, 0x0, 0x0, 0x0⟩⟩,
  ⟨"GBL_ALLOW", 0x108, 1, 0x0, 1, 0, (some 0x100), 0x0, 0x0, 0x3fff, 0x0, ⟨0x3fff, 0x0, 0x0, 0x0, 0x0⟩⟩,
  ⟨"GBL_MGT", 0x200, 1, 0x0, 1, 0, none, 0x1000000000, 0x0, 0x3fffffffff, 0x0, ⟨0x3fffffffff, 0x0, 0x0, 0x0, 0x0⟩⟩,
  ⟨"GBL_MGTMAC", 0x208, 1, 0x0, 1, 0, none, 0x0, 0x0, 0x0, 0x0, ⟨0x0, 0x0, 0x0, 0x0, 0x0⟩⟩,
  ⟨"GBL_MGTALLOW", 0x210, 1, 0x0, 8, 8, none, 0x0, 0x0, 0xffffffffff, 0x0, ⟨0xffffffffff, 0x0, 0x0, 0x0, 0x0⟩⟩,
  ⟨"GBL_CSRCNT", 0x300, 1, 0x0, 1, 0, none, 0x0, 0x0, 0x0, 0x0, ⟨0x0, 0x0, 0x0, 0x0, 0xffffffffffffffff⟩⟩]

/-- Registers of the Cfg group. -/
def regsCfg : List RegDef := [
  ⟨"CFG_CTL", 0x100000, 1, 0x0, 1, 0, none, 0x0, 0x0, 0x0, 0x0, ⟨0x0, 0x0, 0x0, 0x0, 0x0⟩⟩,
  ⟨"CFG_WHEN", 0x100008, 1, 0x0, 1, 0, none, 0x0, 0xffffffffffffffff, 0x0, 0x0, ⟨0x0, 0x0, 0x0, 0x0, 0x0⟩⟩,
  ⟨"CFG_STS", 0x100010, 1, 0x0, 1, 0, none, 0x0, 0x0, 0x0, 0xc00000000, ⟨0x0, 0x0, 0x0, 0x0, 0x0⟩⟩,
  ⟨"CFG_REFADDR", 0x100018, 1, 0x0, 1, 0, none, 0x0, 0x0, 0x0, 0x0, ⟨0x0, 0x0, 0x0, 0x0, 0x0⟩⟩,
  ⟨"CFG_LAST", 0x100020, 1, 0x0, 1, 0, none, 0x0, 0x0, 0x0, 0x0, ⟨0x0, 0x0, 0x0, 0x0, 0x0⟩⟩,
  ⟨"CFG_NVM", 0x100028, 1, 0x0, 1, 0, none, 0x0, 0x0, 0x0, 0x0, ⟨0x0, 0x0, 0x0, 0x0, 0xffffffff00000000⟩⟩,
  ⟨"CFG_PEEK_ADDR", 0x100030, 1, 0x0, 1, 0, none, 0x0, 0xffffffff, 0x0, 0x0, ⟨0x0, 0x0, 0x0, 0x0, 0x0⟩⟩,
  ⟨"CFG_PEEK_DATA", 0x100038, 1, 0x0, 1, 0, none, 0x0, 0x0, 0x0, 0x0, ⟨0x0, 0x0, 0x0, 0x0, 0x0⟩⟩]

/-- Registers of the Fwu group. -/
def regsFwu : List RegDef := [
  ⟨"FWU_CTL", 0x200000, 1, 0x0, 1, 0, none, 0x0, 0x0, 0x0, 0x0, ⟨0x0, 0x0, 0x0, 0x0, 0x0⟩⟩,
  ⟨"FWU_ADDR", 0x200008, 1, 0x0, 1, 0, none, 0x0, 0x7fffff, 0x0, 0x0, ⟨0x0, 0x0, 0x0, 0x0, 0x0⟩⟩,
  ⟨"FWU_STS", 0x200010, 1, 0x0, 1, 0, none, 0x0, 0x0, 0x0, 0x4000, ⟨0x0, 0x0, 0x0, 0x0, 0x0⟩⟩,
  ⟨"FWU_CONFIRM", 0x200018, 1, 0x0, 1, 0, none, 0x0, 0x0, 0x0, 0x0, ⟨0x0, 0x0, 0x0, 0x0, 0x0⟩⟩,
  ⟨"FWU_BOOT", 0x200020, 1, 0x0, 1, 0, none, 0x8, 0x0, 0x0, 0x0, ⟨0x0, 0x0, 0x0, 0x0, 0x0⟩⟩,
  ⟨"FWU_ARB", 0x200028, 1, 0x0, 1, 0, none, 0x0, 0x0, 0x0, 0x0, ⟨0x0, 0x0, 0x0, 0x0, 0x0⟩⟩,
  ⟨"FWU_LEVELS0", 0x200030, 1, 0x0, 1, 0, none, 0x0, 0x0, 0x0, 0x0, ⟨0x0, 0x0, 0x0, 0x0, 0x0⟩⟩,
  ⟨"FWU_LEVELS1", 0x200038, 1, 0x0, 1, 0, none, 0x0, 0x0, 0x0, 0x0, ⟨0x0, 0x0, 0x0, 0x0, 0x0⟩⟩,
  ⟨"FWU_BUF", 0x200100, 1, 0x0, 32, 8, none, 0x0, 0xffffffffffffffff, 0x0, 0x0, ⟨0x0, 0x0, 0x0, 0x0, 0x0⟩⟩]

/-- Registers of the Pmu group. -/
def regsPmu : List RegDef := [
  ⟨"PMU_CFG", 0x300000, 1, 0x0, 1, 0, none, 0x1901e7d0, 0x0, 0xfffffffff, 0x0, ⟨0xfffffffff, 0x0, 0x0, 0x0, 0x0⟩⟩,
  ⟨"PMU_PACK_CFG", 0x300008, 1, 0x0, 1, 0, none, 0x230003228000000, 0x0, 0x3ffffffffffffff, 0x0, ⟨0x3ffffffffffffff, 0x0, 0x0, 0x0, 0x0⟩⟩,
  ⟨"PMU_STATE", 0x300010, 1, 0x0, 1, 0, none, 0x7, 0x0, 0x0, 0x800, ⟨0x0, 0x0, 0x0, 0x0, 0x0⟩⟩,
  ⟨"PMU_FEED", 0x300018, 1, 0x0, 1, 0, none, 0x0, 0x0, 0x0, 0x0, ⟨0x0, 0x0, 0x0, 0x0, 0x0⟩⟩,
  ⟨"PMU_PACK_STS", 0x300020, 1, 0x0, 1, 0, none, 0x0, 0x0, 0x0, 0x0, ⟨0x0, 0x0, 0x0, 0x0, 0x0⟩⟩,
  ⟨"PMU_PACK_EST", 0x300028, 1, 0x0, 1, 0, none, 0x0, 0x0, 0x0, 0x0, ⟨0x0, 0x0, 0x0, 0x0, 0x0⟩⟩,
  ⟨"PMU_CTL", 0x300030, 1, 0x0, 1, 0, none, 0x0, 0x0, 0x0, 0x0, ⟨0x0, 0x0, 0x0, 0x0, 0x0⟩⟩,
  ⟨"PMU_RESET", 0x300038, 1, 0x0, 1, 0, none, 0x0, 0x0, 0x0, 0x0, ⟨0x0, 0x0, 0x0, 0x0, 0x0⟩⟩,
  ⟨"PMU_LASTOFF", 0x300040, 1, 0x0, 1, 0, none, 0x0, 0x0, 0x0, 0x0, ⟨0x0, 0x0, 0x0, 0x0, 0x0⟩⟩,
  ⟨"PMU_CNT", 0x300048, 1, 0x0, 1, 0, none, 0x0, 0x0, 0x0, 0x0, ⟨0x0, 0x0, 0x0, 0x0, 0xffffffffffffffff⟩⟩]

/-- Registers of the Port group. -/
def regsPort : List RegDef := [
  ⟨"ETH_MODE", 0x1000000, 1, 0x0, 1, 0, none, 0x0, 0x0, 0x3, 0x0, ⟨0x3, 0x0, 0x0, 0x0, 0x0⟩⟩,
  ⟨"ETH_STS", 0x1000008, 8, 0x100000, 1, 0, none, 0x0, 0x0, 0x0, 0x0, ⟨0x0, 0x0, 0x0, 0x0, 0x0⟩⟩,
  ⟨"ETH_CTL", 0x1000010, 8, 0x100000, 1, 0, none, 0x0, 0x0, 0x0, 0x0, ⟨0x0, 0x0, 0x0, 0x0, 0x0⟩⟩,
  ⟨"ETH_FEC_CNT", 0x1000020, 8, 0x100000, 1, 0, none, 0x0, 0x0, 0x0, 0x0, ⟨0x0, 0x0, 0x0, 0x0, 0xffffffffffffffff⟩⟩,
  ⟨"ETH_RXERR_CNT", 0x1000028, 8, 0x100000, 1, 0, none, 0x0, 0x0, 0x0, 0x0, ⟨0x0, 0x0, 0x0, 0x0, 0xffffffffffffffff⟩⟩,
  ⟨"CDL_ETYPE", 0x1001000, 1, 0x0, 1, 0, none, 0x88b688b5, 0x0, 0xffffffff, 0x0, ⟨0xffffffff, 0x0, 0x0, 0x0, 0x0⟩⟩,
  ⟨"CDL_NODE", 0x1001008, 1, 0x0, 1, 0, none, 0xfff, 0x0, 0xfff, 0x0, ⟨0xfff, 0x0, 0x0, 0x0, 0x0⟩⟩,
  ⟨"CDL_PCP", 0x1001010, 1, 0x0, 1, 0, none, 0x3db1e, 0x0, 0x3ffff, 0x0, ⟨0x3ffff, 0x0, 0x0, 0x0, 0x0⟩⟩,
  ⟨"CDL_PTP", 0x1001018, 1, 0x0, 1, 0, none, 0x3fffc01, 0x0, 0x3ffffff, 0x0, ⟨0x3ffffff, 0x0, 0x0, 0x0, 0x0⟩⟩,
  ⟨"CDL_MACADDR", 0x1001020, 8, 0x100000, 1, 0, none, 0x0, 0x0, 0x0, 0x0, ⟨0x0, 0x0, 0x0, 0x0, 0x0⟩⟩,
  ⟨"CDL_CONN_SEL", 0x1001100, 1, 0x0, 1, 0, none, 0x0, 0xffff, 0x0, 0x0, ⟨0x0, 0x0, 0x0, 0x0, 0x0⟩⟩,
  ⟨"CDL_CONN_A", 0x1001108, 1, 0x0, 1, 0, (some 0x1001100), 0x0, 0x0, 0xffffff, 0x0, ⟨0xffffff, 0x0, 0x0, 0x0, 0x0⟩⟩,
  ⟨"CDL_CONN_P", 0x1001110, 1, 0x0, 1, 0, (some 0x1001100), 0x0, 0x0, 0xffffffffffffffff, 0x0, ⟨0xffffffffffffffff, 0x0, 0x0, 0x0, 0x0⟩⟩,
  ⟨"CDL_CONN_Q", 0x1001118, 1, 0x0, 1, 0, (some 0x1001100), 0x0, 0x0, 0xffffffffffffffff, 0x0, ⟨0xffffffffffffffff, 0x0, 0x0, 0x0, 0x0⟩⟩,
  ⟨"CDL_CONN_STS", 0x1001120, 1, 0x0, 1, 0, none, 0x0, 0x0, 0x0, 0x0, ⟨0x0, 0x0, 0x0, 0x0, 0x0⟩⟩,
  ⟨"CDL_CONN_RSTS", 0x1001128, 1, 0x0, 1, 0, none, 0x5, 0x0, 0x0, 0x0, ⟨0x0, 0x0, 0x0, 0x0, 0x0⟩⟩,
  ⟨"CDL_RXDISC0", 0x1001200, 8, 0x100000, 1, 0, none, 0x0, 0x0, 0x0, 0x0, ⟨0x0, 0x0, 0x0, 0x0, 0xffffffffffffffff⟩⟩,
  ⟨"CDL_RXDISC1", 0x1001208, 8, 0x100000, 1, 0, none, 0x0, 0x0, 0x0, 0x0, ⟨0x0, 0x0, 0x0, 0x0, 0xffffffffffffffff⟩⟩,
  ⟨"CDL_TIMERS", 0x1001300, 1, 0x0, 1, 0, none, 0xa0000fa08, 0x0, 0x3fff00ffff7f, 0x0, ⟨0x3fff00ffff7f, 0x0, 0x0, 0x0, 0x0⟩⟩,
  ⟨"CDL_FLIGHT", 0x1001308, 1, 0x0, 1, 0, none, 0x10002c0, 0x0, 0xfff0fff, 0x0, ⟨0xfff0fff, 0x0, 0x0, 0x0, 0x0⟩⟩,
  ⟨"CDL_CREDIT", 0x1001310, 1, 0x0, 1, 0, none, 0x10020040, 0x0, 0xffffffff, 0x0, ⟨0xffffffff, 0x0, 0x0, 0x0, 0x0⟩⟩,
  ⟨"CDL_RELY0", 0x1001400, 8, 0x100000, 1, 0, none, 0x0, 0x0, 0x0, 0x0, ⟨0x0, 0x0, 0x0, 0x0, 0xffffffffffffffff⟩⟩,
  ⟨"CDL_RELY1", 0x1001408, 8, 0x100000, 1, 0, none, 0x0, 0x0, 0x0, 0x0, ⟨0x0, 0x0, 0x0, 0x0, 0xffffffffffffffff⟩⟩,
  ⟨"CDL_RB_STS", 0x1001410, 8, 0x100000, 1, 0, none, 0x0, 0x0, 0x0, 0x0, ⟨0x0, 0x0, 0x0, 0x0, 0xffffffff00000000⟩⟩,
  ⟨"CAGE_CTL", 0x1002000, 8, 0x100000, 1, 0, none, 0x1, 0x2, 0x1, 0x0, ⟨0x1, 0x0, 0x0, 0x0, 0x0⟩⟩,
  ⟨"CAGE_STS", 0x1002008, 8, 0x100000, 1, 0, none, 0x0, 0x0, 0x0, 0x0, ⟨0x0, 0x0, 0x0, 0x0, 0x0⟩⟩,
  ⟨"CAGE_ID", 0x1002010, 8, 0x100000, 1, 0, none, 0x0, 0x0, 0x0, 0x0, ⟨0x0, 0x0, 0x0, 0x0, 0x0⟩⟩,
  ⟨"CAGE_CMIS_CTL", 0x1002100, 8, 0x100000, 1, 0, none, 0x0, 0xfffffff02, 0x0, 0x40, ⟨0x0, 0x0, 0x0, 0x0, 0x0⟩⟩,
  ⟨"CAGE_CMIS_DATA", 0x1002108, 8, 0x100000, 1, 0, none, 0x0, 0xffffffffffffffff, 0x0, 0x0, ⟨0x0, 0x0, 0x0, 0x0, 0x0⟩⟩]

/-- Registers of the Dir group. -/
def regsDir : List RegDef := [
  ⟨"DIR_CFG", 0x2000000, 1, 0x0, 1, 0, none, 0x2000010, 0x0, 0x0, 0x0, ⟨0x0, 0x0, 0x0, 0x0, 0x0⟩⟩,
  ⟨"DIR_OCC0", 0x2000008, 1, 0x0, 1, 0, none, 0x0, 0x0, 0x0, 0x0, ⟨0x0, 0x0, 0x0, 0x0, 0x0⟩⟩,
  ⟨"DIR_OCC1", 0x2000010, 1, 0x0, 1, 0, none, 0x0, 0x0, 0x0, 0x0, ⟨0x0, 0x0, 0x0, 0x0, 0x0⟩⟩,
  ⟨"DIR_RCL", 0x2000018, 1, 0x0, 1, 0, none, 0x0, 0x0, 0x0, 0x0, ⟨0x0, 0x0, 0x0, 0x0, 0xffffffffffffffff⟩⟩,
  ⟨"DIR_RECOV", 0x2000020, 1, 0x0, 1, 0, none, 0x0, 0x0, 0x0, 0x0, ⟨0x0, 0x0, 0x0, 0x0, 0xffffffff⟩⟩,
  ⟨"DIR_BLIND", 0x2000028, 1, 0x0, 1, 0, none, 0x0, 0x0, 0x0, 0x0, ⟨0x0, 0x0, 0x0, 0x0, 0x0⟩⟩,
  ⟨"DIR_PFLIP", 0x2000030, 1, 0x0, 1, 0, none, 0x0, 0xffff, 0x0, 0x0, ⟨0x0, 0x0, 0x0, 0x0, 0x0⟩⟩,
  ⟨"DIR_COHCFG", 0x2000080, 1, 0x0, 1, 0, none, 0xa02, 0x0, 0xffff, 0x0, ⟨0xffff, 0x0, 0x0, 0x0, 0x0⟩⟩,
  ⟨"DIR_NAKCNT", 0x2000088, 1, 0x0, 1, 0, none, 0x0, 0x0, 0x0, 0x0, ⟨0x0, 0x0, 0x0, 0x0, 0xffffffffffffffff⟩⟩,
  ⟨"DIR_PARKSTS", 0x2000090, 1, 0x0, 1, 0, none, 0x0, 0x0, 0x0, 0x0, ⟨0x0, 0x0, 0x0, 0x0, 0xffffffff00000000⟩⟩,
  ⟨"DIR_SEQSTS", 0x2000100, 1, 0x0, 1, 0, none, 0x0, 0x0, 0x0, 0x0, ⟨0x0, 0x0, 0x0, 0x0, 0x0⟩⟩,
  ⟨"DIR_SEQCNT", 0x2000108, 1, 0x0, 1, 0, none, 0x0, 0x0, 0x0, 0x0, ⟨0x0, 0x0, 0x0, 0x0, 0xffffffffffffffff⟩⟩]

/-- Registers of the Pool group. -/
def regsPool : List RegDef := [
  ⟨"POOL_STS", 0x2100000, 1, 0x0, 1, 0, none, 0x0, 0x0, 0x0, 0x0, ⟨0x0, 0x0, 0x0, 0x0, 0x0⟩⟩,
  ⟨"POOL_VER", 0x2100008, 2, 0x8000, 1, 0, none, 0x0, 0x0, 0xffffffff, 0x0, ⟨0xffffffff, 0x0, 0x0, 0x0, 0x0⟩⟩,
  ⟨"POOL_ROLES", 0x2100010, 2, 0x8000, 1, 0, none, 0x0, 0x0, 0xffffffff3fff, 0x0, ⟨0xffffffff3fff, 0x0, 0x0, 0x0, 0x0⟩⟩,
  ⟨"POOL_MEMSEL", 0x2100100, 2, 0x8000, 1, 0, none, 0x0, 0x3f, 0x0, 0x0, ⟨0x0, 0x0, 0x0, 0x0, 0x0⟩⟩,
  ⟨"POOL_MEM_A", 0x2100108, 2, 0x8000, 1, 0, (some 0x2100100), 0x0, 0x0, 0xffff7fff, 0x0, ⟨0xffff7fff, 0x0, 0x0, 0x0, 0x0⟩⟩,
  ⟨"POOL_MEM_P", 0x2100110, 2, 0x8000, 1, 0, (some 0x2100100), 0x0, 0x0, 0xffffffffffffffff, 0x0, ⟨0xffffffffffffffff, 0x0, 0x0, 0x0, 0x0⟩⟩,
  ⟨"POOL_MEM_Q", 0x2100118, 2, 0x8000, 1, 0, (some 0x2100100), 0x0, 0x0, 0xffffffffffffffff, 0x0, ⟨0xffffffffffffffff, 0x0, 0x0, 0x0, 0x0⟩⟩,
  ⟨"POOL_CHANSTS", 0x2100120, 2, 0x8000, 1, 0, none, 0x3, 0x0, 0x0, 0x0, ⟨0x0, 0x0, 0x0, 0x0, 0x0⟩⟩,
  ⟨"POOL_MAPSEL", 0x2100200, 2, 0x8000, 1, 0, none, 0x0, 0x3fff, 0x0, 0x0, ⟨0x0, 0x0, 0x0, 0x0, 0x0⟩⟩,
  ⟨"POOL_MAPDATA", 0x2100208, 2, 0x8000, 1, 0, (some 0x2100200), 0x0, 0x0, 0xffffffffffffffff, 0x0, ⟨0xffffffffffffffff, 0x0, 0x0, 0x0, 0x0⟩⟩,
  ⟨"POOL_AGSEL", 0x2100300, 2, 0x8000, 1, 0, none, 0x0, 0x3ff, 0x0, 0x0, ⟨0x0, 0x0, 0x0, 0x0, 0x0⟩⟩,
  ⟨"POOL_AGENT", 0x2100308, 2, 0x8000, 1, 0, (some 0x2100300), 0x0, 0x0, 0x3fffffff, 0x0, ⟨0x3fffffff, 0x0, 0x0, 0x0, 0x0⟩⟩,
  ⟨"POOL_DECLARE_DEAD", 0x2100400, 1, 0x0, 1, 0, none, 0x0, 0x0, 0x0, 0x0, ⟨0x0, 0x0, 0x0, 0x0, 0x0⟩⟩,
  ⟨"POOL_DEAD_STS", 0x2100408, 1, 0x0, 1, 0, none, 0x0, 0x0, 0x0, 0x2, ⟨0x0, 0x0, 0x0, 0x0, 0x0⟩⟩,
  ⟨"POOL_HOFF", 0x2100500, 1, 0x0, 1, 0, none, 0x0, 0x0, 0x0, 0x0, ⟨0x0, 0x0, 0x0, 0x0, 0x0⟩⟩,
  ⟨"POOL_HOFF_STS", 0x2100508, 1, 0x0, 1, 0, none, 0x0, 0x0, 0x0, 0x40, ⟨0x0, 0x0, 0x0, 0x0, 0x0⟩⟩,
  ⟨"POOL_HOFF_CNT", 0x2100510, 1, 0x0, 1, 0, none, 0x0, 0x0, 0x0, 0x0, ⟨0x0, 0x0, 0x0, 0x0, 0xffffffffffffffff⟩⟩,
  ⟨"POOL_RELAY", 0x2100600, 1, 0x0, 1, 0, none, 0x0, 0x0, 0x0, 0x0, ⟨0x0, 0x0, 0x0, 0x0, 0xffff00000000⟩⟩]

/-- Registers of the Trn group. -/
def regsTrn : List RegDef := [
  ⟨"TRN_CFG", 0x3000000, 1, 0x0, 1, 0, none, 0x0, 0x0, 0xf, 0x0, ⟨0xf, 0x0, 0x0, 0x0, 0x0⟩⟩,
  ⟨"TRN_WIN_SEL", 0x3000100, 1, 0x0, 1, 0, none, 0x0, 0xffff, 0x0, 0x0, ⟨0x0, 0x0, 0x0, 0x0, 0x0⟩⟩,
  ⟨"TRN_WIN_A", 0x3000108, 1, 0x0, 1, 0, (some 0x3000100), 0x0, 0x0, 0xfffffffe0001f, 0x0, ⟨0xfffffffe0001f, 0x0, 0x0, 0x0, 0x0⟩⟩,
  ⟨"TRN_WIN_B", 0x3000110, 1, 0x0, 1, 0, (some 0x3000100), 0x0, 0x0, 0x1fffffff00ffffff, 0x0, ⟨0x1fffffff00ffffff, 0x0, 0x0, 0x0, 0x0⟩⟩,
  ⟨"TRN_BSET_SEL", 0x3000120, 1, 0x0, 1, 0, none, 0x0, 0x3fff, 0x0, 0x0, ⟨0x0, 0x0, 0x0, 0x0, 0x0⟩⟩,
  ⟨"TRN_BSET_DATA", 0x3000128, 1, 0x0, 1, 0, (some 0x3000120), 0x0, 0x0, 0xffffffffffffffff, 0x0, ⟨0xffffffffffffffff, 0x0, 0x0, 0x0, 0x0⟩⟩,
  ⟨"TRN_CONN_SEL", 0x3000130, 1, 0x0, 1, 0, none, 0x0, 0xffff, 0x0, 0x0, ⟨0x0, 0x0, 0x0, 0x0, 0x0⟩⟩,
  ⟨"TRN_CONN_BIND", 0x3000138, 1, 0x0, 1, 0, (some 0x3000130), 0x0, 0x0, 0x1fff, 0x0, ⟨0x1fff, 0x0, 0x0, 0x0, 0x0⟩⟩,
  ⟨"TRN_ET_ADDR", 0x3000140, 1, 0x0, 1, 0, none, 0x0, 0xfffffff9, 0x0, 0x0, ⟨0x0, 0x0, 0x0, 0x0, 0x0⟩⟩,
  ⟨"TRN_ET_DATA", 0x3000148, 1, 0x0, 1, 0, none, 0x0, 0xffffffffffffffff, 0x0, 0x0, ⟨0x0, 0xffffffffffffffff, 0x0, 0x0, 0x0⟩⟩,
  ⟨"TRN_INV", 0x3000200, 1, 0x0, 1, 0, none, 0x0, 0x0, 0x0, 0x0, ⟨0x0, 0x0, 0x0, 0x0, 0x0⟩⟩,
  ⟨"TRN_INV_RANGE", 0x3000208, 1, 0x0, 1, 0, none, 0x0, 0xfffffffffffff, 0x0, 0x0, ⟨0x0, 0x0, 0x0, 0x0, 0x0⟩⟩,
  ⟨"TRN_INV_STS", 0x3000210, 1, 0x0, 1, 0, none, 0x0, 0x0, 0x0, 0x2, ⟨0x0, 0x0, 0x0, 0x0, 0x0⟩⟩,
  ⟨"TRN_ASSIGN_ARG0", 0x3000300, 1, 0x0, 1, 0, none, 0x0, 0x3fffffffff, 0x0, 0x0, ⟨0x0, 0x0, 0x0, 0x0, 0x0⟩⟩,
  ⟨"TRN_ASSIGN_ARG1", 0x3000308, 1, 0x0, 1, 0, none, 0x0, 0xfffffffe00000, 0x0, 0x0, ⟨0x0, 0x0, 0x0, 0x0, 0x0⟩⟩,
  ⟨"TRN_ASSIGN", 0x3000310, 1, 0x0, 1, 0, none, 0x0, 0x0, 0x0, 0x0, ⟨0x0, 0x0, 0x0, 0x0, 0x0⟩⟩,
  ⟨"TRN_ASSIGN_STS", 0x3000318, 1, 0x0, 1, 0, none, 0x0, 0x0, 0x0, 0x10, ⟨0x0, 0x0, 0x0, 0x0, 0x0⟩⟩,
  ⟨"TRN_REFUSE", 0x3000400, 1, 0x0, 1, 0, none, 0x0, 0x0, 0x0, 0x0, ⟨0x0, 0x0, 0x0, 0x0, 0x0⟩⟩,
  ⟨"TRN_TENANT", 0x3010000, 1, 0x0, 4096, 8, none, 0x0, 0x0, 0x1ffffff, 0x0, ⟨0x1ffffff, 0x0, 0x0, 0x0, 0x0⟩⟩]

/-- Registers of the Tier group. -/
def regsTier : List RegDef := [
  ⟨"TIER_CFG", 0x3100000, 1, 0x0, 1, 0, none, 0x1048800fa1, 0x0, 0x3f7fffffff, 0x0, ⟨0x3f7fffffff, 0x0, 0x0, 0x0, 0x0⟩⟩,
  ⟨"TIER_THR", 0x3100008, 1, 0x0, 1, 0, none, 0xa000258, 0x0, 0x3ffffffff, 0x0, ⟨0x3ffffffff, 0x0, 0x0, 0x0, 0x0⟩⟩,
  ⟨"TIER_THR", 0x3100010, 1, 0x0, 1, 0, none, 0x40078, 0x0, 0x3ffffffff, 0x0, ⟨0x3ffffffff, 0x0, 0x0, 0x0, 0x0⟩⟩,
  ⟨"TIER_THR", 0x3100018, 1, 0x0, 1, 0, none, 0x10001e, 0x0, 0x3ffffffff, 0x0, ⟨0x3ffffffff, 0x0, 0x0, 0x0, 0x0⟩⟩,
  ⟨"TIER_RESV", 0x3100020, 1, 0x0, 1, 0, none, 0x200000280a, 0x0, 0x3ffffffffff, 0x0, ⟨0x3ffffffffff, 0x0, 0x0, 0x0, 0x0⟩⟩,
  ⟨"TIER_SCACHE", 0x3100028, 1, 0x0, 1, 0, none, 0x8, 0x0, 0xf, 0x0, ⟨0xf, 0x0, 0x0, 0x0, 0x0⟩⟩,
  ⟨"TIER_REPL", 0x3100030, 1, 0x0, 1, 0, none, 0x2003cc8, 0x0, 0x7ffffff, 0x0, ⟨0x7ffffff, 0x0, 0x0, 0x0, 0x0⟩⟩,
  ⟨"TIER_REPL_TGT", 0x3100038, 1, 0x0, 1, 0, none, 0x0, 0x0, 0xffffffffffffffff, 0x0, ⟨0xffffffffffffffff, 0x0, 0x0, 0x0, 0x0⟩⟩,
  ⟨"TIER_LEND", 0x3100040, 1, 0x0, 1, 0, none, 0x0, 0x0, 0x1fffffffffffffff, 0x0, ⟨0x1fffffffffffffff, 0x0, 0x0, 0x0, 0x0⟩⟩,
  ⟨"TIER_CAP", 0x3100100, 1, 0x0, 1, 0, none, 0x0, 0x0, 0x0, 0x0, ⟨0x0, 0x0, 0x0, 0x0, 0x0⟩⟩,
  ⟨"TIER_DIE", 0x3100108, 1, 0x0, 2, 8, none, 0x0, 0x0, 0x0, 0x0, ⟨0x0, 0x0, 0x0, 0x0, 0x0⟩⟩,
  ⟨"TIER_LENDSTS", 0x3100118, 1, 0x0, 1, 0, none, 0x0, 0x0, 0x0, 0x0, ⟨0x0, 0x0, 0x0, 0x0, 0x0⟩⟩,
  ⟨"TIER_MIGCNT", 0x3100200, 1, 0x0, 1, 0, none, 0x0, 0x0, 0x0, 0x0, ⟨0x0, 0x0, 0x0, 0x0, 0xffffffffffffffff⟩⟩,
  ⟨"TIER_SCCNT", 0x3100208, 1, 0x0, 1, 0, none, 0x0, 0x0, 0x0, 0x0, ⟨0x0, 0x0, 0x0, 0x0, 0xffffffffffffffff⟩⟩,
  ⟨"TIER_WARMCNT", 0x3100210, 1, 0x0, 1, 0, none, 0x0, 0x0, 0x0, 0x0, ⟨0x0, 0x0, 0x0, 0x0, 0xffffffffffffffff⟩⟩,
  ⟨"TIER_TMODE", 0x3110000, 1, 0x0, 4096, 8, none, 0x1, 0x0, 0xf, 0x0, ⟨0xf, 0x0, 0x0, 0x0, 0x0⟩⟩]

/-- Registers of the Cmp group. -/
def regsCmp : List RegDef := [
  ⟨"CMP_CFG", 0x3200000, 1, 0x0, 1, 0, none, 0x84, 0x0, 0x0, 0x0, ⟨0x0, 0x0, 0x0, 0x0, 0x0⟩⟩,
  ⟨"CMP_ENGSTS", 0x3200008, 1, 0x0, 1, 0, none, 0x0, 0x0, 0x0, 0x0, ⟨0x0, 0x0, 0x0, 0x0, 0x0⟩⟩,
  ⟨"CMP_TYPECNT", 0x3200100, 1, 0x0, 1, 0, none, 0x0, 0x0, 0x0, 0x0, ⟨0x0, 0x0, 0x0, 0x0, 0xffffffffffffffff⟩⟩,
  ⟨"CMP_BYTECNT", 0x3200108, 1, 0x0, 1, 0, none, 0x0, 0x0, 0x0, 0x0, ⟨0x0, 0x0, 0x0, 0x0, 0xffffffffffffffff⟩⟩,
  ⟨"CMP_DFLTCNT0", 0x3200110, 1, 0x0, 1, 0, none, 0x0, 0x0, 0x0, 0x0, ⟨0x0, 0x0, 0x0, 0x0, 0xffffffffffffffff⟩⟩,
  ⟨"CMP_DFLTCNT1", 0x3200118, 1, 0x0, 1, 0, none, 0x0, 0x0, 0x0, 0x0, ⟨0x0, 0x0, 0x0, 0x0, 0xffffffffffffffff⟩⟩,
  ⟨"CMP_LASTFLT0", 0x3200120, 1, 0x0, 1, 0, none, 0x0, 0x0, 0x0, 0x0, ⟨0x0, 0x0, 0x0, 0x0, 0x0⟩⟩,
  ⟨"CMP_LASTFLT1", 0x3200128, 1, 0x0, 1, 0, none, 0x0, 0x0, 0x0, 0x0, ⟨0x0, 0x0, 0x0, 0x0, 0x0⟩⟩,
  ⟨"CMP_PFLIP", 0x3200200, 1, 0x0, 1, 0, none, 0x0, 0x3f, 0x0, 0x0, ⟨0x0, 0x0, 0x0, 0x0, 0x0⟩⟩,
  ⟨"CMP_TCTL", 0x3200300, 1, 0x0, 1, 0, none, 0x0, 0x6, 0x0, 0x40000000, ⟨0x0, 0x0, 0x0, 0x0, 0x0⟩⟩,
  ⟨"CMP_TDESC", 0x3200308, 1, 0x0, 1, 0, none, 0x0, 0xffffffff00001fff, 0x0, 0x0, ⟨0x0, 0x0, 0x0, 0x0, 0x0⟩⟩,
  ⟨"CMP_TIN", 0x3201000, 1, 0x0, 256, 8, none, 0x0, 0xffffffffffffffff, 0x0, 0x0, ⟨0x0, 0x0, 0x0, 0x0, 0x0⟩⟩,
  ⟨"CMP_TOUT", 0x3202000, 1, 0x0, 128, 8, none, 0x0, 0xffffffffffffffff, 0x0, 0x0, ⟨0x0, 0x0, 0x0, 0x0, 0x0⟩⟩]

/-- Registers of the Xts group. -/
def regsXts : List RegDef := [
  ⟨"XTS_CFG", 0x3300000, 1, 0x0, 1, 0, none, 0x101000428, 0x0, 0x1ffff3f3f, 0x0, ⟨0x1ffff3f3f, 0x0, 0x0, 0x0, 0x0⟩⟩,
  ⟨"XTS_STS", 0x3300008, 1, 0x0, 1, 0, none, 0x0, 0x0, 0x0, 0x0, ⟨0x0, 0xffffffff00000001, 0x0, 0x0, 0x0⟩⟩,
  ⟨"XTS_ALARM", 0x3300010, 1, 0x0, 1, 0, none, 0x0, 0x0, 0x0, 0x0, ⟨0x0, 0x0, 0xffffffff00000000, 0x0, 0x0⟩⟩,
  ⟨"XTS_ZEROISE", 0x3300018, 1, 0x0, 1, 0, none, 0x0, 0x0, 0x0, 0x0, ⟨0x0, 0x0, 0x0, 0x0, 0x0⟩⟩,
  ⟨"XTS_PIPES", 0x3300020, 1, 0x0, 1, 0, none, 0x0, 0x0, 0x0, 0x0, ⟨0x0, 0x0, 0x0, 0x0, 0x0⟩⟩,
  ⟨"XTS_DEVPUB", 0x3300100, 1, 0x0, 12, 8, none, 0x0, 0x0, 0x0, 0x0, ⟨0x0, 0x0, 0x0, 0x0, 0x0⟩⟩,
  ⟨"XTS_PROV", 0x3300180, 1, 0x0, 12, 8, none, 0x0, 0x0, 0xffffffffffffffff, 0x0, ⟨0xffffffffffffffff, 0x0, 0x0, 0x0, 0x0⟩⟩,
  ⟨"XTS_KEYIN", 0x3300200, 1, 0x0, 10, 8, none, 0x0, 0x0, 0x0, 0x0, ⟨0x0, 0x0, 0x0, 0x0, 0x0⟩⟩,
  ⟨"XTS_KEYCTL", 0x3300250, 1, 0x0, 1, 0, none, 0x0, 0x3ffe, 0x0, 0x40000, ⟨0x0, 0x0, 0x0, 0x0, 0x0⟩⟩,
  ⟨"XTS_SLOTSEL", 0x3300258, 1, 0x0, 1, 0, none, 0x0, 0xfff, 0x0, 0x0, ⟨0x0, 0x0, 0x0, 0x0, 0x0⟩⟩,
  ⟨"XTS_SLOT", 0x3300260, 1, 0x0, 1, 0, none, 0x0, 0x0, 0x0, 0x0, ⟨0x0, 0xffffffff0000000b, 0x0, 0x0, 0x0⟩⟩,
  ⟨"XTS_SLOTCNT", 0x3300268, 1, 0x0, 1, 0, none, 0x0, 0x0, 0x0, 0x0, ⟨0x0, 0xffffffffffff, 0x0, 0x0, 0x0⟩⟩,
  ⟨"XTS_TSTATE", 0x3310000, 1, 0x0, 4096, 8, none, 0x0, 0x0, 0x1, 0x0, ⟨0x1, 0x8, 0x0, 0x0, 0x0⟩⟩]

/-- Registers of the Mem group. -/
def regsMem : List RegDef := [
  ⟨"MEM_CFG", 0x4000000, 24, 0x10000, 1, 0, none, 0x0, 0x0, 0x0, 0x0, ⟨0x0, 0x0, 0x0, 0x0, 0x0⟩⟩,
  ⟨"MEM_STS", 0x4000008, 24, 0x10000, 1, 0, none, 0x0, 0x0, 0x0, 0x0, ⟨0x0, 0x0, 0x0, 0x0, 0x0⟩⟩,
  ⟨"MEM_ERRCNT", 0x4000010, 24, 0x10000, 1, 0, none, 0x0, 0x0, 0x0, 0x0, ⟨0x0, 0x0, 0x0, 0x0, 0xffffffffffffffff⟩⟩,
  ⟨"MEM_RETIRE", 0x4000018, 24, 0x10000, 1, 0, none, 0x0, 0x0, 0x0, 0x8421084210, ⟨0x0, 0x0, 0xffffffffff, 0x0, 0x0⟩⟩,
  ⟨"MEM_DEVSEL", 0x4000020, 24, 0x10000, 1, 0, none, 0x0, 0x7, 0x0, 0x0, ⟨0x0, 0x0, 0x0, 0x0, 0x0⟩⟩,
  ⟨"MEM_DEVCNT", 0x4000028, 24, 0x10000, 1, 0, none, 0x0, 0x0, 0x0, 0x0, ⟨0x0, 0x0, 0x0, 0x0, 0x0⟩⟩,
  ⟨"MEM_FLIPMASK", 0x4000100, 24, 0x10000, 10, 8, none, 0x0, 0xffffffffffffffff, 0x0, 0x0, ⟨0x0, 0x0, 0x0, 0x0, 0x0⟩⟩,
  ⟨"MEM_FLIPCTL", 0x4000150, 24, 0x10000, 1, 0, none, 0x0, 0xffffffffff, 0x0, 0x0, ⟨0x0, 0x0, 0x0, 0x0, 0x0⟩⟩]

/-- Registers of the Ecc group. -/
def regsEcc : List RegDef := [
  ⟨"ECC_SCRUB", 0x4200000, 1, 0x0, 1, 0, none, 0x31, 0x0, 0x1ff, 0x0, ⟨0x1ff, 0x0, 0x0, 0x0, 0x0⟩⟩,
  ⟨"ECC_RETIRE", 0x4200008, 1, 0x0, 1, 0, none, 0x21, 0x0, 0x7f, 0x0, ⟨0x7f, 0x0, 0x0, 0x0, 0x0⟩⟩,
  ⟨"ECC_SCRUBSTS", 0x4200010, 1, 0x0, 1, 0, none, 0x0, 0x0, 0x0, 0x0, ⟨0x0, 0x0, 0x0, 0x0, 0xffffffff0000ffff⟩⟩,
  ⟨"ECC_UELOG0", 0x4200018, 1, 0x0, 1, 0, none, 0x0, 0x0, 0x0, 0x0, ⟨0x0, 0x0, 0x0, 0x0, 0x0⟩⟩,
  ⟨"ECC_UELOG1", 0x4200020, 1, 0x0, 1, 0, none, 0x0, 0x0, 0x0, 0x0, ⟨0x0, 0x0, 0x0, 0x0, 0x0⟩⟩,
  ⟨"ECC_MERGECNT", 0x4200028, 1, 0x0, 1, 0, none, 0x0, 0x0, 0x0, 0x0, ⟨0x0, 0x0, 0x0, 0x0, 0xffffffffffffffff⟩⟩,
  ⟨"ECC_PFLIP", 0x4200030, 1, 0x0, 1, 0, none, 0x0, 0x1f3f, 0x0, 0x0, ⟨0x0, 0x0, 0x0, 0x0, 0x0⟩⟩]

/-- Registers of the Mtr group. -/
def regsMtr : List RegDef := [
  ⟨"MTR_CFG", 0x5000000, 1, 0x0, 1, 0, none, 0x3c, 0x0, 0xfff, 0x0, ⟨0xfff, 0x0, 0x0, 0x0, 0x0⟩⟩,
  ⟨"MTR_PTPCFG", 0x5000008, 1, 0x0, 1, 0, none, 0x1, 0x0, 0x3, 0x0, ⟨0x3, 0x0, 0x0, 0x0, 0x0⟩⟩,
  ⟨"MTR_PTPSTS", 0x5000010, 1, 0x0, 1, 0, none, 0x0, 0x0, 0x0, 0x0, ⟨0x0, 0x0, 0x0, 0x0, 0x0⟩⟩,
  ⟨"MTR_TIME", 0x5000018, 1, 0x0, 1, 0, none, 0x0, 0x0, 0x0, 0x0, ⟨0x0, 0x0, 0x0, 0x0, 0x0⟩⟩,
  ⟨"MTR_PPSIN", 0x5000020, 1, 0x0, 1, 0, none, 0x0, 0x0, 0x0, 0x0, ⟨0x0, 0x0, 0x0, 0x0, 0x0⟩⟩,
  ⟨"MTR_PROD", 0x5000100, 1, 0x0, 1, 0, none, 0x0, 0x0, 0x0, 0x0, ⟨0x0, 0x0, 0x0, 0xffffffffffffffff, 0x0⟩⟩,
  ⟨"MTR_CONS", 0x5000108, 1, 0x0, 1, 0, none, 0x0, 0xffffffffffffffff, 0x0, 0x0, ⟨0x0, 0x0, 0x0, 0xffffffffffffffff, 0x0⟩⟩,
  ⟨"MTR_LSTS", 0x5000110, 1, 0x0, 1, 0, none, 0x0, 0x0, 0x0, 0x2, ⟨0x0, 0x0, 0x0, 0x0, 0xffffffff00000000⟩⟩,
  ⟨"MTR_BOUND", 0x5000118, 1, 0x0, 1, 0, none, 0x0, 0x0, 0x0, 0x0, ⟨0x0, 0x0, 0x0, 0xffffffffffffffff, 0x0⟩⟩,
  ⟨"MTR_LRD_SEL", 0x5000200, 1, 0x0, 1, 0, none, 0x0, 0x1fffff, 0x0, 0x0, ⟨0x0, 0x0, 0x0, 0x0, 0x0⟩⟩,
  ⟨"MTR_LRD", 0x5000208, 1, 0x0, 16, 8, none, 0x0, 0x0, 0x0, 0x0, ⟨0x0, 0x0, 0x0, 0x0, 0x0⟩⟩,
  ⟨"MTR_TSEL", 0x5000300, 1, 0x0, 1, 0, none, 0x0, 0xfff, 0x0, 0x0, ⟨0x0, 0x0, 0x0, 0x0, 0x0⟩⟩,
  ⟨"MTR_TACC", 0x5000308, 1, 0x0, 16, 8, none, 0x0, 0x0, 0x0, 0x0, ⟨0x0, 0x0, 0x0, 0x0, 0x0⟩⟩]

/-- Registers of the Prf group. -/
def regsPrf : List RegDef := [
  ⟨"PRF_GCTL", 0x5100000, 1, 0x0, 1, 0, none, 0x0, 0x1, 0x0, 0x0, ⟨0x0, 0x0, 0x0, 0x0, 0x1⟩⟩,
  ⟨"PRF_TENANT_READ", 0x5100008, 1, 0x0, 1, 0, none, 0x0, 0x0, 0x1, 0x0, ⟨0x1, 0x0, 0x0, 0x0, 0x0⟩⟩,
  ⟨"PRF_DUMP", 0x5100010, 1, 0x0, 1, 0, none, 0x3e8, 0x0, 0x3fff, 0x0, ⟨0x3fff, 0x0, 0x0, 0x0, 0x0⟩⟩,
  ⟨"PRF_DUMPSTS", 0x5100018, 1, 0x0, 1, 0, none, 0x0, 0x0, 0x0, 0x0, ⟨0x0, 0x0, 0x0, 0x0, 0xffffffffffffffff⟩⟩,
  ⟨"PRF_SAMPLE0", 0x5100020, 1, 0x0, 1, 0, none, 0x0, 0x0, 0x0, 0x0, ⟨0x0, 0x0, 0x0, 0x0, 0x0⟩⟩,
  ⟨"PRF_SAMPLE1", 0x5100028, 1, 0x0, 1, 0, none, 0x0, 0x0, 0x0, 0x0, ⟨0x0, 0x0, 0x0, 0x0, 0xffffffff⟩⟩,
  ⟨"PRF_DRD_SEL", 0x5100100, 1, 0x0, 1, 0, none, 0x0, 0x7fff, 0x0, 0x0, ⟨0x0, 0x0, 0x0, 0x0, 0x0⟩⟩,
  ⟨"PRF_DRD", 0x5100108, 1, 0x0, 256, 8, none, 0x0, 0x0, 0x0, 0x0, ⟨0x0, 0x0, 0x0, 0x0, 0x0⟩⟩,
  ⟨"PRF_CYC", 0x5101000, 17, 0x100, 1, 0, none, 0x0, 0x0, 0x0, 0x0, ⟨0x0, 0x0, 0x0, 0x0, 0xffffffffffffffff⟩⟩,
  ⟨"PRF_CTL", 0x5101008, 17, 0x100, 8, 8, none, 0x0, 0x1ffffffffff, 0x0, 0x0, ⟨0x0, 0x0, 0x0, 0x0, 0x1ffffffffff⟩⟩,
  ⟨"PRF_CNT", 0x5101048, 17, 0x100, 8, 8, none, 0x0, 0x0, 0x0, 0x0, ⟨0x0, 0x0, 0x0, 0x0, 0xffffffffffff⟩⟩,
  ⟨"PRF_OVF", 0x5101088, 17, 0x100, 1, 0, none, 0x0, 0x0, 0x0, 0xff, ⟨0x0, 0x0, 0x0, 0x0, 0xff⟩⟩]

/-- Registers of the Ntq group. -/
def regsNtq : List RegDef := [
  ⟨"NTQ_CFG", 0x6000000, 1, 0x0, 1, 0, none, 0x3e8, 0x0, 0xffff, 0x0, ⟨0xffff, 0x0, 0x0, 0x0, 0x0⟩⟩,
  ⟨"NTQ_COUNT", 0x6000008, 1, 0x0, 1, 0, none, 0x0, 0x0, 0x0, 0x0, ⟨0x0, 0x0, 0x0, 0x0, 0x0⟩⟩,
  ⟨"NTQ_STS", 0x6000010, 1, 0x0, 1, 0, none, 0x0, 0x0, 0x0, 0x7, ⟨0x0, 0x0, 0x0, 0x0, 0x0⟩⟩,
  ⟨"NTQ_POP", 0x6000018, 1, 0x0, 1, 0, none, 0x0, 0x0, 0x0, 0x0, ⟨0x0, 0x0, 0x0, 0x0, 0x0⟩⟩,
  ⟨"NTQ_NREC", 0x6000020, 1, 0x0, 4, 8, none, 0x0, 0x0, 0x0, 0x0, ⟨0x0, 0x0, 0x0, 0x0, 0x0⟩⟩,
  ⟨"NTQ_CTL", 0x6000040, 1, 0x0, 1, 0, none, 0x0, 0x0, 0x0, 0x0, ⟨0x0, 0x0, 0x0, 0x0, 0x0⟩⟩,
  ⟨"NTQ_RELEASE", 0x6000048, 1, 0x0, 1, 0, none, 0x0, 0x0, 0x0, 0x0, ⟨0x0, 0x0, 0x0, 0x0, 0x0⟩⟩,
  ⟨"NTQ_LOST", 0x6000050, 1, 0x0, 1, 0, none, 0x0, 0x0, 0x0, 0x0, ⟨0x0, 0x0, 0xffffffff, 0x0, 0x0⟩⟩,
  ⟨"NTQ_FLTMAP", 0x6000058, 1, 0x0, 1, 0, none, 0x0, 0x0, 0x0, 0x0, ⟨0x0, 0x0, 0x0, 0x0, 0x0⟩⟩,
  ⟨"NTQ_ALERTMAP", 0x6000060, 1, 0x0, 1, 0, none, 0x0, 0x0, 0x0, 0x0, ⟨0x0, 0x0, 0x0, 0x0, 0x0⟩⟩]

/-- Registers of the Flt group. -/
def regsFlt : List RegDef := [
  ⟨"FLTSTS", 0xf00, 4, 0x100000, 1, 0, none, 0x0, 0x0, 0x0, 0xfffffffffffffffe, ⟨0x0, 0x0, 0xfffffffffffffffe, 0x0, 0x0⟩⟩,
  ⟨"FLTSTS", 0x1000f00, 8, 0x100000, 1, 0, none, 0x0, 0x0, 0x0, 0xfffffffffffffffe, ⟨0x0, 0x0, 0xfffffffffffffffe, 0x0, 0x0⟩⟩,
  ⟨"FLTSTS", 0x2000f00, 2, 0x100000, 1, 0, none, 0x0, 0x0, 0x0, 0xfffffffffffffffe, ⟨0x0, 0x0, 0xfffffffffffffffe, 0x0, 0x0⟩⟩,
  ⟨"FLTSTS", 0x3000f00, 4, 0x100000, 1, 0, none, 0x0, 0x0, 0x0, 0xfffffffffffffffe, ⟨0x0, 0x0, 0xfffffffffffffffe, 0x0, 0x0⟩⟩,
  ⟨"FLTSTS", 0x4000f00, 24, 0x10000, 1, 0, none, 0x0, 0x0, 0x0, 0xfffffffffffffffe, ⟨0x0, 0x0, 0xfffffffffffffffe, 0x0, 0x0⟩⟩,
  ⟨"FLTSTS", 0x4200f00, 1, 0x0, 1, 0, none, 0x0, 0x0, 0x0, 0xfffffffffffffffe, ⟨0x0, 0x0, 0xfffffffffffffffe, 0x0, 0x0⟩⟩,
  ⟨"FLTSTS", 0x5000f00, 2, 0x100000, 1, 0, none, 0x0, 0x0, 0x0, 0xfffffffffffffffe, ⟨0x0, 0x0, 0xfffffffffffffffe, 0x0, 0x0⟩⟩,
  ⟨"FLTSTS", 0x6000f00, 1, 0x0, 1, 0, none, 0x0, 0x0, 0x0, 0xfffffffffffffffe, ⟨0x0, 0x0, 0xfffffffffffffffe, 0x0, 0x0⟩⟩,
  ⟨"FLTFIRST", 0xf08, 4, 0x100000, 1, 0, none, 0x0, 0x0, 0x0, 0x1, ⟨0x0, 0x0, 0xffffffffffffffff, 0x0, 0x0⟩⟩,
  ⟨"FLTFIRST", 0x1000f08, 8, 0x100000, 1, 0, none, 0x0, 0x0, 0x0, 0x1, ⟨0x0, 0x0, 0xffffffffffffffff, 0x0, 0x0⟩⟩,
  ⟨"FLTFIRST", 0x2000f08, 2, 0x100000, 1, 0, none, 0x0, 0x0, 0x0, 0x1, ⟨0x0, 0x0, 0xffffffffffffffff, 0x0, 0x0⟩⟩,
  ⟨"FLTFIRST", 0x3000f08, 4, 0x100000, 1, 0, none, 0x0, 0x0, 0x0, 0x1, ⟨0x0, 0x0, 0xffffffffffffffff, 0x0, 0x0⟩⟩,
  ⟨"FLTFIRST", 0x4000f08, 24, 0x10000, 1, 0, none, 0x0, 0x0, 0x0, 0x1, ⟨0x0, 0x0, 0xffffffffffffffff, 0x0, 0x0⟩⟩,
  ⟨"FLTFIRST", 0x4200f08, 1, 0x0, 1, 0, none, 0x0, 0x0, 0x0, 0x1, ⟨0x0, 0x0, 0xffffffffffffffff, 0x0, 0x0⟩⟩,
  ⟨"FLTFIRST", 0x5000f08, 2, 0x100000, 1, 0, none, 0x0, 0x0, 0x0, 0x1, ⟨0x0, 0x0, 0xffffffffffffffff, 0x0, 0x0⟩⟩,
  ⟨"FLTFIRST", 0x6000f08, 1, 0x0, 1, 0, none, 0x0, 0x0, 0x0, 0x1, ⟨0x0, 0x0, 0xffffffffffffffff, 0x0, 0x0⟩⟩,
  ⟨"FLTOVF", 0xf10, 4, 0x100000, 1, 0, none, 0x0, 0x0, 0x0, 0x1, ⟨0x0, 0x0, 0xffff000f, 0x0, 0x0⟩⟩,
  ⟨"FLTOVF", 0x1000f10, 8, 0x100000, 1, 0, none, 0x0, 0x0, 0x0, 0x1, ⟨0x0, 0x0, 0xffff000f, 0x0, 0x0⟩⟩,
  ⟨"FLTOVF", 0x2000f10, 2, 0x100000, 1, 0, none, 0x0, 0x0, 0x0, 0x1, ⟨0x0, 0x0, 0xffff000f, 0x0, 0x0⟩⟩,
  ⟨"FLTOVF", 0x3000f10, 4, 0x100000, 1, 0, none, 0x0, 0x0, 0x0, 0x1, ⟨0x0, 0x0, 0xffff000f, 0x0, 0x0⟩⟩,
  ⟨"FLTOVF", 0x4000f10, 24, 0x10000, 1, 0, none, 0x0, 0x0, 0x0, 0x1, ⟨0x0, 0x0, 0xffff000f, 0x0, 0x0⟩⟩,
  ⟨"FLTOVF", 0x4200f10, 1, 0x0, 1, 0, none, 0x0, 0x0, 0x0, 0x1, ⟨0x0, 0x0, 0xffff000f, 0x0, 0x0⟩⟩,
  ⟨"FLTOVF", 0x5000f10, 2, 0x100000, 1, 0, none, 0x0, 0x0, 0x0, 0x1, ⟨0x0, 0x0, 0xffff000f, 0x0, 0x0⟩⟩,
  ⟨"FLTOVF", 0x6000f10, 1, 0x0, 1, 0, none, 0x0, 0x0, 0x0, 0x1, ⟨0x0, 0x0, 0xffff000f, 0x0, 0x0⟩⟩]

/-- Every register of the map. -/
def regDefs : List RegDef :=
  regsGbl ++ regsCfg ++ regsFwu ++ regsPmu ++ regsPort ++ regsDir ++ regsPool ++ regsTrn ++ regsTier ++ regsCmp ++ regsXts ++ regsMem ++ regsEcc ++ regsMtr ++ regsPrf ++ regsNtq ++ regsFlt

/-- The registers of one address whose reset value is not 0, in rising order, with that value (R11). -/
def regResetTab : Table Nat := [
  (0x0, 0x24504c),
  (0x200, 0x1000000000),
  (0x200020, 0x8),
  (0x300000, 0x1901e7d0),
  (0x300008, 0x230003228000000),
  (0x300010, 0x7),
  (0x1001000, 0x88b688b5),
  (0x1001008, 0xfff),
  (0x1001010, 0x3db1e),
  (0x1001018, 0x3fffc01),
  (0x1001128, 0x5),
  (0x1001300, 0xa0000fa08),
  (0x1001308, 0x10002c0),
  (0x1001310, 0x10020040),
  (0x2000000, 0x2000010),
  (0x2000080, 0xa02),
  (0x3100000, 0x1048800fa1),
  (0x3100008, 0xa000258),
  (0x3100010, 0x40078),
  (0x3100018, 0x10001e),
  (0x3100020, 0x200000280a),
  (0x3100028, 0x8),
  (0x3100030, 0x2003cc8),
  (0x3200000, 0x84),
  (0x3300000, 0x101000428),
  (0x4200000, 0x31),
  (0x4200008, 0x21),
  (0x5000000, 0x3c),
  (0x5000008, 0x1),
  (0x5100010, 0x3e8),
  (0x6000000, 0x3e8)]

/-- The reset value of the register with key `k` (R11). -/
def regReset (k : Nat) : Word :=
  if 0x3110000 ≤ k ∧ k < 0x3118000 then 1                                  -- TIER_TMODE
  else if k ≤ 0x1702000 ∧ k % 0x100000 = 0x2000 ∧ 0x1002000 ≤ k then 1      -- CAGE_CTL
  else BitVec.ofNat 64 ((tget regResetTab k).getD 0)

end Sys2Proof.Machine
end

