-- ==== Sys2Proof/Machine/SysTypes.lean ====
section
/-! DEFINITION. The types of the module's own upkeep: power, start, configuration, firmware, CSR access, time, cages and
the sideband (spec/12, spec/14 to spec/17). -/

namespace Sys2Proof.Machine

/-- What the PMU remembers (R449 to R469): whether a DRAIN or RETENTION returns to STANDBY, the instant at which the
ride-through window began, that of the return to ACTIVE, and that of the entry to RETENTION, whether a resume is under way,
the gauge's missed polls and whether it was given up, the charger's cut-back by feed (R451), whether charging has
terminated, whether temperature stops charge or discharge, whether a junction trip holds STANDBY (R534). -/
structure Power where
  toStby : Bool
  windowAt : Nat
  backAt : Option Nat
  retAt : Nat
  resuming : Bool
  gaugeMiss : Nat
  gaugeOff : Bool
  cutA : Bool
  cutB : Bool
  charged : Bool
  noCharge : Bool
  noDischarge : Bool
  hot : Bool
  deriving DecidableEq, Repr

/-- What start is doing (R478, R529): whether the module has power, the kind of start (0 cold, 1 module reset, 2 warm
reset), whether RST_N holds it at the end of step 1, the sampled straps (R530), and what the start meets while it runs. -/
structure Start where
  powered : Bool
  kind : Nat
  rstHeld : Bool
  shelfId : BitVec 5
  hoopLow : Bool
  inp : Option StartIn
  deriving DecidableEq, Repr

/-- A copy of a boot record as it stands in the NVM (R482); its reserved bytes are 0. -/
structure BootCopy where
  magic : BitVec 32
  seq : BitVec 32
  state : BitVec 2
  once : Bool
  half : Bool
  gen : BitVec 32
  crc : BitVec 32
  deriving DecidableEq, Repr

/-- A slot of the configuration NVM (R482 to R487): the two copies of its boot record, its image in 256-byte pages, and its
active half: whether the boot record names one, the value that each register's RWS fields have in it, its bytes and groups, its
L_CFG, and how many groups lack their APPLIED record. `factory` marks the image that the module left the factory with. -/
structure Slot where
  copy0 : BootCopy
  copy1 : BootCopy
  factory : Bool
  pages : Store 2048
  named : Bool
  nvm : Table (BitVec 64)
  bytes : Nat
  groups : Nat
  level : Nat
  skipped : Nat
  deriving DecidableEq, Repr

/-- The basting bank and the commit under way (R489 to R496): staged writes by register key, whether writes were lost
since the last DISCARD, the CFG_CTL word of the check under way and whether the bank was empty at it, a COMMIT or CHECK that
waits for MARKING to end, the latched commit instant, the group that is being marked, and the registers that behave as
class V (R12). -/
structure Bank where
  staged : Table (BitVec 64)
  lost : Bool
  ctl : Word
  wasEmpty : Bool
  next : Option Word
  instant : Nat
  marking : Table (BitVec 64)
  vol : List Nat
  deriving DecidableEq, Repr

/-- The firmware update unit and Hoop mode (R484, R497 to R506): both slots, the operation under way (0 none, 1 ERASE, 2
PROGRAM, 3 VERIFY), the instant at which the update's step began, whether the update goes by one warm reset and takes the
image's records, whether it reverts after a failure, the fuses blown, the floor that the first POOL_READY after recovery
raises, whether FUSES_OUT has been recorded, the RESULT of each slot at the last start, the last bundle's outcome, and the
TFTP transfer: the peer, its last packet, when it was sent and how often. -/
structure Fwu where
  a : Slot
  b : Slot
  op : Nat
  stepAt : Nat
  warm : Bool
  newCfg : Bool
  failed : Bool
  floor : Nat
  raise : Option Nat
  fusesSaid : Bool
  result0 : Nat
  result1 : Nat
  outcome : Nat
  bundle : List Byte
  peer : Option (BitVec 32 × BitVec 16)
  packet : List Byte
  sentAt : Nat
  tries : Nat
  deriving DecidableEq, Repr

/-- An answer kept in the management cache (R514). -/
structure CsrKept where
  ip : BitVec 32
  port : BitVec 16
  txid : Txid
  time : Nat
  rsp : Msg
  deriving DecidableEq, Repr

/-- A datagram or packet sent from the management port. -/
structure MgtOut where
  ip : BitVec 32
  port : BitVec 16
  bytes : List Byte
  deriving DecidableEq, Repr

/-- CSR access (R510 to R518): the cache, whether the management core is restarting, the instant and the reason of that
restart, the last one before it, the answers that a restart holds back (R517), how often a reset has cleared the
crossbar, and whether a parity error in the crossbar hits the next request (R521). -/
structure CsrSt where
  kept : List CsrKept
  mcDown : Bool
  mcAt : Nat
  reason : Nat
  lastMc : Option Nat
  owed : List (CsrSrc × Msg)
  owedMgt : List MgtOut
  resets : Nat
  xbarBad : Bool
  deriving DecidableEq, Repr

/-- The PTP servo (R396, R397): Sync messages in a row within ±50 ns, the last valid Sync, and whether the counter may
still step. -/
structure Ptp where
  good : Nat
  lastSync : Nat
  mayStep : Bool
  offset : Int
  ppsIn : Option Nat
  ppsOut : Nat
  deriving DecidableEq, Repr

/-- A cage (R538 to R541): the plugged module, the insertion step that waits (0 none, 3 for the module's answer, 7 for
ModuleReady, 8 for DPActivated, 9 for links), the instant since which it waits, and whether the cage is powered and out of
low-power mode. -/
structure Cage where
  info : Option CmisInfo
  step : Nat
  since : Nat
  out : Bool
  deriving DecidableEq, Repr

/-- The shelf SMBus and the temperatures (R532 to R535): the copies held while the datapath is unpowered. -/
structure Shelf where
  temps : Thermal
  status : Word
  alerts : Word
  dimm : Int
  cage : Int
  deriving DecidableEq, Repr

/-- The upkeep of the module, and everything it has put on the management port and the shelf SMBus, oldest first. An
empty SMBus answer is a NACK. `recov` holds the end of the recovery time of a redundancy domain that a fault has hit,
keyed by block * 256 + cause (R434); `test` the test operation of the
compression engines under way, as its OP and DIE (R331). -/
structure Sys where
  power : Power
  start : Start
  bank : Bank
  fwu : Fwu
  csr : CsrSt
  recov : Table Nat
  test : Option (Nat × Nat)
  ptp : Ptp
  cages : Table Cage
  shelf : Shelf
  mgtOut : List MgtOut
  smbusOut : List (List Byte)
  deriving DecidableEq, Repr

/-- A copy of a boot record in erased NOR. -/
def erasedCopy : BootCopy := ⟨BitVec.allOnes 32, BitVec.allOnes 32, 3, true, true, BitVec.allOnes 32, BitVec.allOnes 32⟩

/-- An empty slot: erased NOR. -/
def emptySlot : Slot := ⟨erasedCopy, erasedCopy, false, [], false, [], 0, 0, 0, 0⟩

/-- The boot record that the module left the factory with: CONFIRMED, with SEQ 1 and its good CRC. -/
def factoryCopy : BootCopy := ⟨0x5254425A, 1, 3, false, false, 0, 0x4461BF07⟩

/-- The slot that the module left the factory with. -/
def factorySlot : Slot := ⟨factoryCopy, factoryCopy, true, [], false, [], 0, 0, 0, 0⟩

/-- The upkeep right after reset. -/
def sysReset : Sys where
  power := ⟨false, 0, none, 0, false, 0, false, false, false, false, false, false, false⟩
  start := ⟨false, 0, false, 0, false, none⟩
  bank := ⟨[], false, 0, false, none, 0, [], []⟩
  fwu := ⟨factorySlot, emptySlot, 0, 0, false, false, false, 0, none, false, 0, 1, 0, [], none, [], 0, 0⟩
  csr := ⟨[], false, 0, 0, none, [], [], 0, false⟩
  recov := []
  test := none
  ptp := ⟨0, 0, true, 0, none, 0⟩
  cages := []
  shelf := ⟨⟨25, 25, 25, 25, 25⟩, 0, 0, -128, -128⟩
  mgtOut := []
  smbusOut := []

end Sys2Proof.Machine
end

