-- ==== Sys2Proof/Machine/State.lean ====
section
/-! DEFINITION. The state of the block: plain data, everything the spec gives the module. -/

namespace Sys2Proof.Machine

/-- Why a step stops. -/
inductive Fault where
  /-- Raised by a meaning whose command names a port, channel, cage, die, engine or bank that the module does not
  have (R15, R426): no such event exists. Safe: the hardware has no such behaviour to misstate. -/
  | noSuchUnit
  deriving DecidableEq, Repr

/-- Why the model has no meaning for a command. -/
inductive Refusal where
  /-- Raised by an arm of `exec` whose command has no meaning yet. Safe: the model stops. -/
  | notModelled (mnemonic : String)
  deriving DecidableEq, Repr

/-- The state of the module. -/
structure State where
  /-- Commands waiting, first in, first out. -/
  pending : List Instr
  /-- PTP time in ns (R30). -/
  now : Nat
  /-- The model's own counter that feeds the free values. -/
  free : Nat
  /-- Every CSR whose value is stored, keyed as `Fld.key` says; unlisted registers hold their reset value. -/
  regs : Store 64
  ntq : NoticeQ
  /-- Counters whose overflow sample is pending (R420), as bank * 8 + counter. -/
  samples : List Nat
  link : Link
  mem : Mem
  home : Home
  meter : Meter
  sys : Sys
  /-- The module is in LOCK (R445). -/
  locked : Bool
  deriving DecidableEq, Repr

/-- The state right after reset. -/
def State.reset : State where
  pending := []
  now := 0
  free := 0
  regs := []
  ntq := ⟨[], 0, 0, none, 0, [], []⟩
  samples := []
  link := ⟨[], [], [], [], [], 0, [], [], []⟩
  mem :=
    { dram := [], dramErr := [], dramAt := [], layout := [], devCnt := [], tmap := [], tmapBad := [], etr := [], etrBad := [], ftab := []
      atab := [], keyStore := [], keyStoreBad := [], keys := [], kek := none, merge := [], scache := []
      starved := [], lostSegs := [], engBad := [], caBad := [], useCount := 0
      migs := [], openBins := [], replicaSets := [], replicas := [], spareBorrowed := [], lfsr0 := 1, lfsr1 := 1
      sampled := [], sampledWarm := [], paused := [], heatEpoch := 0, lowCrossed0 := false, lowCrossed1 := false
      pressure0 := false, pressure1 := false, scanAt := 0, patrolAt := 0, replNext := 0, lgen := 0, lenderGens := []
      alarmWin := 0, xcache := [], xcacheBad := [], tblBad := []
      rekeyPass := [], rekeyClean := [], lostPages := [], lendAsk := none }
  home :=
    { dir := [], tree := [], blind := [], txs := [], parked := [], results := [], oreqs := [], fences := [], nextId := 0
      fwdSnps := [], snptx := 0, rtag := 0, assign := none, drops := [], chans := [], rgen := 0, relays := [], decls := []
      dead := []
      hoff := idleHoff
      seqLast := 0, applied := [], marks := [], heldMarks := [], seqHeld := [], rems := []
      confGen := 0, confOld := [] }
  meter := ⟨[], [], [], [], 0, 0, [], [], false, 0, 0, []⟩
  sys := sysReset
  locked := false

end Sys2Proof.Machine
end

