-- ==== Sys2Proof/Machine/Ops.lean ====
section
/-! DEFINITION. The named operations that every family shares: register fields, fault records, notices, counters. -/

namespace Sys2Proof.Machine

/-- A mask of `w` ones. -/
def ones64 (w : Nat) : Word := BitVec.ofNat 64 (2 ^ w - 1)

/-- The stored value of a register. -/
def State.reg (s : State) (key : Nat) : Word := sget regReset s.regs key

/-- Stores a register. -/
def State.setReg (s : State) (key : Nat) (v : Word) : State := { s with regs := sput regReset s.regs key v }

/-- The value of a field in a register word. -/
def Fld.of (f : Fld) (r : Word) : Nat := ((r >>> f.lo) &&& ones64 f.w).toNat

/-- A register word with the field replaced. -/
def Fld.into (f : Fld) (r : Word) (v : Nat) : Word :=
  (r &&& ~~~(ones64 f.w <<< f.lo)) ||| ((BitVec.ofNat 64 v &&& ones64 f.w) <<< f.lo)

/-- The stored value of a field. -/
def State.fld (s : State) (f : Fld) : Nat := f.of (s.reg f.key)

/-- Stores a field; the value is cut to the field's width. -/
def State.setFld (s : State) (f : Fld) (v : Nat) : State := s.setReg f.key (f.into (s.reg f.key) v)

/-- Adds to a field, wrapping. -/
def State.addFld (s : State) (f : Fld) (n : Nat) : State := s.setFld f (s.fld f + n)

/-- Adds 1 to a field, wrapping. -/
def State.incFld (s : State) (f : Fld) : State := s.addFld f 1

/-- Adds to a field, saturating at all ones. -/
def State.satFld (s : State) (f : Fld) (n : Nat) : State := s.setFld f (min (s.fld f + n) (2 ^ f.w - 1))

/-- True where the one-bit field is 1. -/
def State.bit (s : State) (f : Fld) : Bool := s.fld f != 0

/-- The datapath serves requests: the start is complete, the module is in ACTIVE or RIDE-THROUGH, and not in LOCK
(R445, R463, R480). -/
def State.dataUp (s : State) : Bool :=
  !s.locked && s.bit F.GBL_STATUS_POOL_READY && (decide (s.fld F.PMU_STATE_STATE = 1) || decide (s.fld F.PMU_STATE_STATE = 2))

/-- The next fresh value of the model's own counter. -/
def State.fresh (s : State) : Nat × State := (s.free, { s with free := s.free + 1 })

/-- The kind of the block whose bits [31:16] are `b` (R426). -/
def blkKind (b : Nat) : Option Blk :=
  if b = 0 then some .gbl
  else if b = 0x10 then some .cfg
  else if b = 0x20 then some .fwu
  else if b = 0x30 then some .pmu
  else if 0x100 ≤ b ∧ b < 0x180 ∧ b % 16 = 0 then some .port
  else if b = 0x200 then some .dir
  else if b = 0x210 then some .pool
  else if b = 0x300 then some .trn
  else if b = 0x310 then some .tier
  else if b = 0x320 then some .cmp
  else if b = 0x330 then some .xts
  else if 0x400 ≤ b ∧ b < 0x418 then some .mem
  else if b = 0x420 then some .ecc
  else if b = 0x500 then some .mtr
  else if b = 0x510 then some .prf
  else if b = 0x600 then some .ntq
  else none

/-- The 46 blocks with fault registers, in the order of their MAP bits (R426). -/
def faultBlocks : List Nat :=
  [0, 0x10, 0x20, 0x30] ++ (upto 8).map (fun n => 0x100 + 0x10 * n) ++ [0x200, 0x210, 0x300, 0x310, 0x320, 0x330]
    ++ (upto 24).map (fun c => 0x400 + c) ++ [0x420, 0x500, 0x510, 0x600]

/-- Block numbers (bits [31:16] of the base address). -/
def bGBL : Nat := 0
def bCFG : Nat := 0x10
def bFWU : Nat := 0x20
def bPMU : Nat := 0x30
def bPort (n : Nat) : Nat := 0x100 + 0x10 * n
def bDIR : Nat := 0x200
def bPOOL : Nat := 0x210
def bTRN : Nat := 0x300
def bTIER : Nat := 0x310
def bCMP : Nat := 0x320
def bXTS : Nat := 0x330
def bMEM (c : Nat) : Nat := 0x400 + c
def bECC : Nat := 0x420
def bMTR : Nat := 0x500
def bPRF : Nat := 0x510
def bNTQ : Nat := 0x600

/-- An occurrence of a fault cause, with what its notice carries (R437). -/
structure Occ where
  block : Nat
  code : Nat
  esc : Bool
  txid : Nat
  tenant : Option Nat
  obj : Nat
  okind : Nat
  deriving DecidableEq, Repr

/-- An occurrence with no transaction, tenant or object. -/
def occ (block code : Nat) : Occ := ⟨block, code, false, 0, none, 0, 0⟩

/-- An occurrence about an object. -/
def occObj (block code okind obj : Nat) : Occ := ⟨block, code, false, 0, none, obj, okind⟩

/-- An occurrence with no object, met by a request. -/
def reqOcc (block code txid tenant : Nat) : Occ := ⟨block, code, false, txid, some tenant, 0, 0⟩

/-- The severity of an occurrence: its cause's, one step higher where it escalates, never above HALT by
escalation (R434, R435). -/
def Occ.sev (o : Occ) : Nat :=
  let base := match blkKind o.block with
    | some k => causeSev k o.code
    | none => 0
  if o.esc ∧ base < 4 then base + 1 else base

/-- The notice of an occurrence, before its number is given. -/
def Occ.notice (o : Occ) (time : Nat) (first : Bool) : Notice where
  time := time
  sev := o.sev
  esc := o.esc
  first := first
  redeliv := false
  restored := false
  code := o.code
  block := o.block
  txid := o.txid % 0x10000
  tenant := o.tenant.getD 0
  tv := o.tenant.isSome
  obj := o.obj
  okind := o.okind
  nseq := 0
  count := 1

/-- The key of a (block, cause) pair. -/
def pairKey (block code : Nat) : Nat := block * 256 + code

/-- Records an occurrence in its block's fault registers (R427); returns whether it was latched as first. -/
def State.recordRegs (s : State) (o : Occ) : Bool × State :=
  let b := o.block * 0x10000
  let s := s.setReg (b + 0xf00) (s.reg (b + 0xf00) ||| (1 : Word) <<< o.code)
  let first := !s.bit (F.BLK_FLTFIRST_V b)
  let s := if first then
      ((((s.setFld (F.BLK_FLTFIRST_V b) 1).setFld (F.BLK_FLTFIRST_SEV b) o.sev).setFld (F.BLK_FLTFIRST_CODE b)
        o.code).setFld (F.BLK_FLTFIRST_TXID b) o.txid).setFld (F.BLK_FLTFIRST_TIME b) (s.now / 1024)
    else (s.setFld (F.BLK_FLTOVF_OVF b) 1).satFld (F.BLK_FLTOVF_COUNT b) 1
  (first, s.setFld (F.BLK_FLTOVF_MAXSEV b) (max (s.fld (F.BLK_FLTOVF_MAXSEV b)) o.sev))

/-- The number of notices the queue holds (R438). -/
def NoticeQ.capacity : Nat := 4096

/-- The holdoff of a pair whose notice is posted: its window starts afresh, and what it has counted stays counted (R436). -/
def State.holdAfresh (s : State) (n : Notice) : Holdoff :=
  let due := s.now + s.fld F.NTQ_CFG_HOLDOFF * 1000
  match tget s.ntq.holdoffs (pairKey n.block n.code) with
  | some h => { h with due := due }
  | none => ⟨due, 0, n⟩

/-- Puts a notice into the queue under the next number, and starts its pair's holdoff window afresh (R436). -/
def State.enqueueNotice (s : State) (n : Notice) : State :=
  { s with
    ntq.entries := s.ntq.entries ++ [⟨{ n with nseq := s.ntq.nseq }, none⟩]
    ntq.nseq := (s.ntq.nseq + 1) % 2 ^ 32
    ntq.holdoffs := tput s.ntq.holdoffs (pairKey n.block n.code) (s.holdAfresh n) }

/-- Discards a notice of a full queue: OVERRUN, LOST and NTQ cause 0x01 (R440). -/
def State.discardNotice (s : State) : State :=
  let s := (s.setFld F.NTQ_STS_OVERRUN 1).incFld F.NTQ_LOST_LOST
  let s := (s.recordRegs (occ bNTQ Cause.ntq_OVERRUN)).2
  { s with ntq.overrun := s.ntq.overrun + 1 }

/-- Posts a notice, or discards it while the queue is full (R440). -/
def State.postNotice (s : State) (n : Notice) : State :=
  if s.ntq.entries.length < NoticeQ.capacity then s.enqueueNotice n else s.discardNotice

/-- Once space has returned, the first notice posted is that of the overrun (R440). -/
def State.postOverrun (s : State) : State :=
  if s.ntq.overrun = 0 ∨ NoticeQ.capacity ≤ s.ntq.entries.length then s
  else
    let n := { (occ bNTQ Cause.ntq_OVERRUN).notice s.now false with count := min s.ntq.overrun 0xffff }
    { s with ntq.overrun := 0 }.enqueueNotice n

/-- The holdoff of a pair has run out: the occurrences counted in it are posted as one notice (R436). -/
def State.endHoldoff (s : State) (key : Nat) : State :=
  match tget s.ntq.holdoffs key with
  | none => s
  | some h =>
    if s.now < h.due then s
    else
      let s := { s with ntq.holdoffs := tdel s.ntq.holdoffs key }
      if h.count = 0 then s else s.postNotice { h.last with count := min h.count 0xffff }

/-- Posts the notice of an occurrence, or counts it while its pair's holdoff runs (R436). -/
def State.postOcc (s0 : State) (n : Notice) : State :=
  let s := s0.endHoldoff (pairKey n.block n.code)
  match tget s.ntq.holdoffs (pairKey n.block n.code) with
  | some h =>
    if n.sev ≤ 2 ∧ s.now < h.due then
      { s with ntq.holdoffs := tput s.ntq.holdoffs (pairKey n.block n.code) { h with count := h.count + 1, last := n } }
    else s.postNotice n
  | none => s.postNotice n

/-- Records an occurrence of a fault cause and posts it (R427, R436). -/
def State.record (s : State) (o : Occ) : State :=
  let (first, s1) := s.recordRegs o
  s1.postOcc (o.notice s.now first)

/-- The order in which occurrences of one cycle are recorded: highest severity first, then lowest code (R428). -/
def occBefore (a b : Occ) : Bool := decide (b.sev < a.sev) || (decide (a.sev = b.sev) && decide (a.code ≤ b.code))

/-- Puts an occurrence into its place among those of one cycle. -/
def insertOcc (o : Occ) : List Occ → List Occ
  | [] => [o]
  | p :: l => if occBefore o p then o :: p :: l else p :: insertOcc o l

/-- Records the occurrences of one cycle (R428). -/
def State.recordAll (s : State) (l : List Occ) : State :=
  (l.foldl (fun a o => insertOcc o a) []).foldl (fun s o => s.record o) s

/-- The block's alert output (R431). -/
def State.alert (s : State) (block : Nat) : Bool := decide (4 ≤ s.fld (F.BLK_FLTOVF_MAXSEV (block * 0x10000)))

/-- A bit of each block, in MAP order, as one number. -/
def mapBits (f : Nat → Bool) : Nat :=
  (faultBlocks.zipIdx.map fun p => if f p.1 then 2 ^ p.2 else 0).sum

/-- What the events of R418 do to the programmable counters: how an event of `n` occurrences for `tenant` adds to a
counter of bank `bank` under its PRF_CTL (R417, R419). -/
def prfAdds (ctl : Word) (ev n : Nat) (tenant : Option Nat) : Nat :=
  let f (lo w : Nat) : Nat := ((ctl >>> lo) &&& ones64 w).toNat
  if f 0 8 = ev ∧ (f 26 1 = 0 ∨ tenant = some (f 27 12)) then
    if f 8 2 = 1 then n else if f 8 2 = 2 ∧ 0 < n then 1 else 0
  else 0

/-- Adds to one programmable counter; a wrap sets its OVF bit and asks for a sample (R420). -/
def State.prfAdd (s : State) (bank ctr n : Nat) : State :=
  let v := s.fld (F.PRF_CNT_COUNT bank ctr) + n
  let s := s.setFld (F.PRF_CNT_COUNT bank ctr) v
  if v < 2 ^ 48 then s
  else
    let s := s.setFld (F.PRF_OVF_OVF bank) (s.fld (F.PRF_OVF_OVF bank) ||| 2 ^ ctr)
    if !s.bit (F.PRF_CTL_SAMPLE bank ctr) then s
    else if s.samples.contains (bank * 8 + ctr) then s.incFld F.PRF_SAMPLE1_LOST
    else { s with samples := s.samples ++ [bank * 8 + ctr] }

/-- Counts `n` occurrences of an event of class O or C in a bank (R417 to R421). -/
def State.count (s : State) (bank ev n : Nat) (tenant : Option Nat) : State :=
  if s.bit F.PRF_GCTL_FREEZE then s
  else (upto 8).foldl (fun s i =>
    let a := prfAdds (s.reg (F.PRF_CTL bank i).key) ev n tenant
    if a = 0 then s else s.prfAdd bank i a) s

/-- Takes an armed ECC_PFLIP of a class and unit: the next entry written there has wrong parity (R359). -/
def State.takePflip (s : State) (cls die unit : Nat) : Bool × State :=
  let byDie := (3 ≤ cls ∧ cls ≤ 6) ∨ cls = 9
  if s.bit F.ECC_PFLIP_ARM ∧ s.fld F.ECC_PFLIP_CLASS = cls
      ∧ (if byDie then s.fld F.ECC_PFLIP_DIE = die else s.fld F.ECC_PFLIP_UNIT = unit) then
    (true, s.setFld F.ECC_PFLIP_ARM 0)
  else (false, s)

/-- A value of `n` bytes, least significant byte first. -/
def leBytes : Nat → Nat → List Byte
  | 0, _ => []
  | n + 1, v => BitVec.ofNat 8 v :: leBytes n (v / 256)

/-- A value of `n` bytes, most significant byte first, as external standards have it (R5). -/
def beBytes (n v : Nat) : List Byte := (leBytes n v).reverse

/-- The value of a list of bytes, least significant byte first. -/
def leNat : List Byte → Nat
  | [] => 0
  | b :: l => b.toNat + 256 * leNat l

/-- Bytes `i` to `i + n - 1` of a list as a value; missing bytes read as 0. -/
def bytesAt (l : List Byte) (i n : Nat) : Nat := leNat ((l.drop i).take n)

/-- Bits `lo` to `lo + w - 1` of a number. -/
def bitsOf (v lo w : Nat) : Nat := v / 2 ^ lo % 2 ^ w

end Sys2Proof.Machine
end

