-- ==== Sys2Proof/Machine/Wire.lean ====
section
/-! DEFINITION. The wire formats: CRC-32C and CRC16, the Coldel header, Coldel messages (R82 to R108) and Picot
messages (R112 to R119, R156, R161, R236, R249, R263, R300). -/

namespace Sys2Proof

open Sys2Proof.Machine

/-- One bit of a reflected CRC-32C (R86): the reflected polynomial is 0x82F63B78. -/
def crc32Bit (c : BitVec 32) : BitVec 32 := if c.getLsbD 0 then (c >>> 1) ^^^ 0x82F63B78#32 else c >>> 1

/-- One byte of a CRC-32C. -/
def crc32Byte (c : BitVec 32) (b : Byte) : BitVec 32 :=
  crc32Bit (crc32Bit (crc32Bit (crc32Bit (crc32Bit (crc32Bit (crc32Bit (crc32Bit (c ^^^ b.setWidth 32))))))))

/-- The CRC-32C of a list of bytes (R86). -/
def crc32c (l : List Byte) : BitVec 32 := l.foldl crc32Byte 0xFFFFFFFF#32 ^^^ 0xFFFFFFFF#32

/-- One bit of the Picot CRC16 (R114). -/
def crc16Bit (c : BitVec 16) : BitVec 16 := if c.getMsbD 0 then (c <<< 1) ^^^ 0x8BB7#16 else c <<< 1

/-- One byte of the Picot CRC16, most significant bit first. -/
def crc16Byte (c : BitVec 16) (b : Byte) : BitVec 16 :=
  crc16Bit (crc16Bit (crc16Bit (crc16Bit (crc16Bit (crc16Bit (crc16Bit (crc16Bit (c ^^^ (b.setWidth 16 <<< 8)))))))))

/-- The CRC16 of a list of bytes (R114). -/
def crc16 (l : List Byte) : BitVec 16 := l.foldl crc16Byte 0

/-- A flag as 0 or 1. -/
def b2n (b : Bool) : Nat := if b then 1 else 0

/-- The Coldel header as a number of 24 bytes (R83). -/
def CHdr.num (h : CHdr) : Nat :=
  h.ver % 16 + 2 ^ 4 * (h.type % 16) + 2 ^ 8 * (h.tc % 4) + 2 ^ 10 * b2n h.ackreq + 2 ^ 11 * b2n h.retx
    + 2 ^ 12 * b2n h.alt + 2 ^ 16 * (h.conn % 2 ^ 16) + 2 ^ 32 * h.seq.toNat + 2 ^ 56 * h.ack.toNat
    + 2 ^ 80 * (h.plen % 2 ^ 10) + 2 ^ 96 * h.cg0.toNat + 2 ^ 120 * h.cg1.toNat + 2 ^ 144 * h.cg2.toNat
    + 2 ^ 168 * h.cg3.toNat

/-- The header's 24 bytes. -/
def CHdr.bytes (h : CHdr) : List Byte := leBytes 24 h.num

/-- Reads a header from the first 24 bytes. -/
def CHdr.parse (l : List Byte) : CHdr :=
  let n := bytesAt l 0 24
  { ver := bitsOf n 0 4, type := bitsOf n 4 4, tc := bitsOf n 8 2, ackreq := bitsOf n 10 1 = 1,
    retx := bitsOf n 11 1 = 1, alt := bitsOf n 12 1 = 1, conn := bitsOf n 16 16,
    seq := BitVec.ofNat 24 (bitsOf n 32 24), ack := BitVec.ofNat 24 (bitsOf n 56 24), plen := bitsOf n 80 10,
    cg0 := BitVec.ofNat 24 (bitsOf n 96 24), cg1 := BitVec.ofNat 24 (bitsOf n 120 24),
    cg2 := BitVec.ofNat 24 (bitsOf n 144 24), cg3 := BitVec.ofNat 24 (bitsOf n 168 24) }

/-- The grants of a header by class. -/
def CHdr.cg (h : CHdr) (k : Nat) : Seq24 :=
  if k = 0 then h.cg0 else if k = 1 then h.cg1 else if k = 2 then h.cg2 else h.cg3

/-- A whole Coldel frame after the EtherType: header, payload and CRC-32C (R82). -/
def coldelBytes (h : CHdr) (payload : List Byte) : List Byte :=
  let b := h.bytes ++ payload
  b ++ leBytes 4 (crc32c b).toNat

/-- The last four bytes of a unit (R113): its CRC16, then COUNT and RESUME. -/
def countWord (count : Nat) (resume : Bool) : List Byte := leBytes 2 (count % 32768 + 32768 * b2n resume)

/-- The CRC16 of a unit: over its running count, its BODY and its last two bytes (R114). -/
def unitCrc (run : Nat) (body : List Byte) (count : Nat) (resume : Bool) : BitVec 16 :=
  crc16 (leBytes 2 (run % 32768) ++ body ++ countWord count resume)

/-- The 64 bytes of a unit (R113). -/
def Machine.PUnit.bytes (u : Machine.PUnit) : List Byte := u.body ++ leBytes 2 u.crc.toNat ++ countWord u.count u.resume

/-- The 8-byte prefix of a Picot frame (R112): VER 1 and NUNITS, the nodes, and FIRST. -/
def picotPrefix (src dst : NodeId) (first n : Nat) : List Byte :=
  leBytes 8 (1 + 2 ^ 8 * (n % 2 ^ 8) + 2 ^ 16 * src.toNat + 2 ^ 32 * dst.toNat + 2 ^ 48 * (first % 32768))

/-- What follows the EtherType of a frame sent, without the FCS (R82, R112). -/
def Machine.FrameBody.bytes : Machine.FrameBody → List Byte
  | .coldel h payload => coldelBytes h payload
  | .picot src dst first units => picotPrefix src dst first units.length ++ units.flatMap Machine.PUnit.bytes

/-- The 802.1Q tag of a frame sent: a C-tag on a path with a VID, none on an untagged one (R78, R99, CDL_CONN_P.VID). -/
def Machine.OutFrame.tagBytes (f : Machine.OutFrame) : List Byte :=
  if f.vid = 0 then [] else beBytes 2 0x8100 ++ beBytes 2 (f.pcp % 8 * 2 ^ 13 + b2n f.dei * 2 ^ 12 + f.vid % 2 ^ 12)

/-- A frame as it is sent, up to the FCS (R82): destination MAC, source MAC, tag, EtherType and what follows. -/
def Machine.OutFrame.bytes (f : Machine.OutFrame) : List Byte :=
  beBytes 6 f.dst.toNat ++ beBytes 6 f.src.toNat ++ f.tagBytes ++ beBytes 2 f.etype ++ f.body.bytes

/-- Opcodes of requests (R103). -/
def ReqOp.code : ReqOp → Nat
  | .readShared => 0x10
  | .readOwn => 0x11
  | .upgrade => 0x12
  | .readNoCache => 0x13
  | .writeNoCache => 0x14
  | .writeBack => 0x15
  | .evictClean => 0x16
  | .fetchAdd => 0x18
  | .swap => 0x19
  | .compareSwap => 0x1A
  | .fence => 0x1F

/-- The request of an opcode. -/
def ReqOp.ofCode (n : Nat) : Option ReqOp :=
  if n = 0x10 then some .readShared else if n = 0x11 then some .readOwn else if n = 0x12 then some .upgrade
  else if n = 0x13 then some .readNoCache else if n = 0x14 then some .writeNoCache
  else if n = 0x15 then some .writeBack else if n = 0x16 then some .evictClean else if n = 0x18 then some .fetchAdd
  else if n = 0x19 then some .swap else if n = 0x1A then some .compareSwap else if n = 0x1F then some .fence
  else none

/-- Bytes of a request's tail (R103, R104). -/
def ReqOp.tail : ReqOp → Nat
  | .writeNoCache => 72
  | .writeBack => 64
  | .fetchAdd => 32
  | .swap => 32
  | .compareSwap => 32
  | _ => 0

/-- True of FetchAdd, Swap and CompareSwap. -/
def ReqOp.isAtomic : ReqOp → Bool
  | .fetchAdd => true
  | .swap => true
  | .compareSwap => true
  | _ => false

/-- Opcodes of responses (R103). -/
def RespOp.code : RespOp → Nat
  | .data => 0x20
  | .dataOwned => 0x21
  | .ack => 0x22
  | .nak => 0x23
  | .atomicData => 0x24

/-- Opcodes of snoops (R103). -/
def SnpOp.code : SnpOp → Nat
  | .shared => 0x30
  | .invalid => 0x31
  | .ownerFwd => 0x32

/-- The 16-byte request header (R104). -/
def Req.head (r : Req) : Nat :=
  r.op.code + 2 ^ 8 * r.hdr.retry.toNat + 2 ^ 12 * b2n r.hdr.sz16 + 2 ^ 13 * b2n r.hdr.scope
    + 2 ^ 16 * r.hdr.tenant.toNat + 2 ^ 32 * r.hdr.txid.toNat + 2 ^ 48 * r.hdr.agent.toNat
    + 2 ^ 64 * r.hdr.addr.toNat

/-- A request's bytes (R104). -/
def Req.bytes (r : Req) : List Byte :=
  leBytes 16 r.head ++ (match r.op with
    | .writeNoCache => leBytes 8 r.mask.toNat ++ leBytes 64 r.data.toNat
    | .writeBack => leBytes 64 r.data.toNat
    | .fetchAdd => leBytes 16 r.opa.toNat ++ leBytes 16 r.opb.toNat
    | .swap => leBytes 16 r.opa.toNat ++ leBytes 16 r.opb.toNat
    | .compareSwap => leBytes 16 r.opa.toNat ++ leBytes 16 r.opb.toNat
    | _ => [])

/-- The request header in the first 16 bytes. -/
def parseReqHdr (l : List Byte) : ReqHdr :=
  let n := bytesAt l 0 16
  { retry := BitVec.ofNat 4 (bitsOf n 8 4), sz16 := bitsOf n 12 1 = 1, scope := bitsOf n 13 1 = 1,
    tenant := BitVec.ofNat 12 (bitsOf n 16 12), txid := BitVec.ofNat 16 (bitsOf n 32 16),
    agent := BitVec.ofNat 10 (bitsOf n 48 10), addr := BitVec.ofNat 52 (bitsOf n 64 52) }

/-- Reads a request of a known opcode. -/
def parseReq (op : ReqOp) (l : List Byte) : Req :=
  { op := op, hdr := parseReqHdr l
    mask := if op = .writeNoCache then BitVec.ofNat 64 (bytesAt l 16 8) else 0
    data := if op = .writeNoCache then BitVec.ofNat 512 (bytesAt l 24 64)
      else if op = .writeBack then BitVec.ofNat 512 (bytesAt l 16 64) else 0
    opa := if op.isAtomic then BitVec.ofNat 128 (bytesAt l 16 16) else 0
    opb := if op.isAtomic then BitVec.ofNat 128 (bytesAt l 32 16) else 0 }

/-- A response's bytes (R106). -/
def Resp.bytes (r : Resp) : List Byte :=
  let top := match r.op with
    | .nak => r.hint.toNat + 2 ^ 16 * r.epoch.toNat + 2 ^ 32 * r.redirect.toNat
    | _ => r.pa.toNat
  leBytes 16 (r.op.code + 2 ^ 8 * r.status.toNat + 2 ^ 12 * b2n r.consumed + 2 ^ 16 * r.tenant.toNat
    + 2 ^ 32 * r.txid.toNat + 2 ^ 48 * r.agent.toNat + 2 ^ 64 * top)
    ++ (match r.op with
      | .data => leBytes 64 r.line.toNat
      | .dataOwned => leBytes 64 r.line.toNat
      | .atomicData => leBytes 16 r.old.toNat
      | _ => [])

/-- Reads a response of a known opcode. -/
def parseResp (op : RespOp) (l : List Byte) : Resp :=
  let n := bytesAt l 0 16
  let nak : Bool := op = .nak
  { op := op, status := BitVec.ofNat 4 (bitsOf n 8 4), consumed := bitsOf n 12 1 = 1,
    tenant := BitVec.ofNat 12 (bitsOf n 16 12), txid := BitVec.ofNat 16 (bitsOf n 32 16),
    agent := BitVec.ofNat 10 (bitsOf n 48 10),
    pa := if nak then 0 else BitVec.ofNat 52 (bitsOf n 64 52),
    hint := if nak then BitVec.ofNat 16 (bitsOf n 64 16) else 0,
    epoch := if nak then BitVec.ofNat 16 (bitsOf n 80 16) else 0,
    redirect := if nak then BitVec.ofNat 12 (bitsOf n 96 12) else 0,
    line := if op = .data ∨ op = .dataOwned then BitVec.ofNat 512 (bytesAt l 16 64) else 0,
    old := if op = .atomicData then BitVec.ofNat 128 (bytesAt l 16 16) else 0 }

/-- The 16-byte header of snoops and snoop responses (R107). -/
def snpHead (opc state : Nat) (wbif dirty : Bool) (tenant : TenantId) (snptx : BitVec 16) (agent : AgentId)
    (pa : Addr) : List Byte :=
  leBytes 16 (opc + 2 ^ 8 * state + 2 ^ 11 * b2n wbif + 2 ^ 12 * b2n dirty + 2 ^ 16 * tenant.toNat
    + 2 ^ 32 * snptx.toNat + 2 ^ 48 * agent.toNat + 2 ^ 64 * pa.toNat)

/-- A snoop's bytes. -/
def Snp.bytes (p : Snp) : List Byte := snpHead p.op.code 0 false false p.tenant p.snptx p.agent p.pa

/-- A snoop response's bytes. -/
def SnpResp.bytes (p : SnpResp) : List Byte :=
  match p.data with
  | none => snpHead 0x38 p.newState.toNat p.wbif p.dirty p.tenant p.snptx p.agent p.pa
  | some d => snpHead 0x39 p.newState.toNat p.wbif p.dirty p.tenant p.snptx p.agent p.pa ++ leBytes 64 d.toNat

/-- Reads a snoop. -/
def parseSnp (op : SnpOp) (l : List Byte) : Snp :=
  let n := bytesAt l 0 16
  { op := op, tenant := BitVec.ofNat 12 (bitsOf n 16 12), snptx := BitVec.ofNat 16 (bitsOf n 32 16),
    agent := BitVec.ofNat 10 (bitsOf n 48 10), pa := BitVec.ofNat 52 (bitsOf n 64 52) }

/-- Reads a snoop response. -/
def parseSnpResp (withData : Bool) (l : List Byte) : SnpResp :=
  let n := bytesAt l 0 16
  { newState := BitVec.ofNat 3 (bitsOf n 8 3), wbif := bitsOf n 11 1 = 1, dirty := bitsOf n 12 1 = 1,
    tenant := BitVec.ofNat 12 (bitsOf n 16 12), snptx := BitVec.ofNat 16 (bitsOf n 32 16),
    agent := BitVec.ofNat 10 (bitsOf n 48 10), pa := BitVec.ofNat 52 (bitsOf n 64 52),
    data := if withData then some (BitVec.ofNat 512 (bytesAt l 16 64)) else none }

/-- A message's bytes (R103 to R108). -/
def Msg.bytes : Msg → List Byte
  | .csrRead t a => leBytes 16 (0x01 + 2 ^ 32 * t.toNat + 2 ^ 64 * a.toNat)
  | .csrWrite t a w => leBytes 16 (0x02 + 2 ^ 32 * t.toNat + 2 ^ 64 * a.toNat) ++ leBytes 8 w.toNat
  | .csrRsp st h t d => leBytes 16 (0x03 + 2 ^ 8 * st.toNat + 2 ^ 16 * h.toNat + 2 ^ 32 * t.toNat + 2 ^ 64 * d.toNat)
  | .req r => r.bytes
  | .resp r => r.bytes
  | .snp p => p.bytes
  | .snpRsp p => p.bytes

/-- The traffic class of a message (R103). -/
def Msg.tc : Msg → Nat
  | .csrRead .. => 0
  | .csrWrite .. => 0
  | .csrRsp .. => 0
  | .req _ => 1
  | .resp _ => 2
  | .snp _ => 3
  | .snpRsp _ => 3

/-- The size in bytes that an opcode fixes (R103); 0 for an opcode of no Coldel message. -/
def opcSize (opc : Nat) : Nat :=
  if opc = 0x01 ∨ opc = 0x03 then 16 else if opc = 0x02 then 24
  else match ReqOp.ofCode opc with
    | some op => 16 + op.tail
    | none =>
      if opc = 0x20 ∨ opc = 0x21 ∨ opc = 0x39 then 80
      else if opc = 0x22 ∨ opc = 0x23 ∨ opc = 0x30 ∨ opc = 0x31 ∨ opc = 0x32 ∨ opc = 0x38 then 16
      else if opc = 0x24 then 32 else 0

/-- Reads the message at the start of a list of bytes; none where the opcode is no Coldel message or bytes lack. -/
def parseMsg (l : List Byte) : Option Msg :=
  let opc := bytesAt l 0 1
  if opcSize opc = 0 ∨ l.length < opcSize opc then none
  else match ReqOp.ofCode opc with
    | some op => some (.req (parseReq op l))
    | none =>
      let n := bytesAt l 0 16
      let txid := BitVec.ofNat 16 (bitsOf n 32 16)
      if opc = 0x01 then some (.csrRead txid (BitVec.ofNat 32 (bitsOf n 64 32)))
      else if opc = 0x02 then
        some (.csrWrite txid (BitVec.ofNat 32 (bitsOf n 64 32)) (BitVec.ofNat 64 (bytesAt l 16 8)))
      else if opc = 0x03 then
        some (.csrRsp (BitVec.ofNat 4 (bitsOf n 8 4)) (BitVec.ofNat 16 (bitsOf n 16 16)) txid
          (BitVec.ofNat 64 (bitsOf n 64 64)))
      else if opc = 0x20 then some (.resp (parseResp .data l))
      else if opc = 0x21 then some (.resp (parseResp .dataOwned l))
      else if opc = 0x22 then some (.resp (parseResp .ack l))
      else if opc = 0x23 then some (.resp (parseResp .nak l))
      else if opc = 0x24 then some (.resp (parseResp .atomicData l))
      else if opc = 0x30 then some (.snp (parseSnp .shared l))
      else if opc = 0x31 then some (.snp (parseSnp .invalid l))
      else if opc = 0x32 then some (.snp (parseSnp .ownerFwd l))
      else if opc = 0x38 then some (.snpRsp (parseSnpResp false l))
      else some (.snpRsp (parseSnpResp true l))

/-- Reads the messages of a DATA payload (R100): each at an 8-byte boundary, up to PAD or the end. The fuel bounds
the number of messages. -/
def parsePayload : Nat → List Byte → Option (List Msg)
  | 0, l => if l = [] then some [] else none
  | fuel + 1, l =>
    if l = [] then some []
    else if bytesAt l 0 1 = 0 then (if l.all (· == 0) then some [] else none)
    else match parseMsg l with
      | none => none
      | some m => (parsePayload fuel (l.drop (opcSize (bytesAt l 0 1)))).map (m :: ·)

/-- True where a host may send the message, it belongs to class `tc` and its address is aligned (R99, R102, R104).
DESIGN CHOICE (log entry 164): a value other than 0 in a field that R104 says is otherwise 0 (SZ16 or SCOPE of another
opcode, a Fence's ADDR, an operand byte that is not used) breaks no message rule; it is ignored like a reserved field. -/
def Msg.hostOk (m : Msg) (tc : Nat) : Bool :=
  decide (m.tc = tc) && (match m with
    | .csrRead .. => true
    | .csrWrite .. => true
    | .req r =>
      if r.op.isAtomic then decide (r.hdr.addr.toNat % (if r.hdr.sz16 then 16 else 8) = 0)
      else decide (r.op = .fence) || decide (r.hdr.addr.toNat % 64 = 0)
    | .snpRsp p => decide (p.pa.toNat % 64 = 0)
    | _ => false)

/-- The agent that a TC1 or TC3 message names. -/
def Msg.agent : Msg → Option AgentId
  | .req r => some r.hdr.agent
  | .resp r => some r.agent
  | .snp p => some p.agent
  | .snpRsp p => some p.agent
  | _ => none

/-- The envelope's 16 bytes (R119). -/
def Envelope.bytes (opc inner : Nat) (e : Envelope) : List Byte :=
  leBytes 16 (opc + 2 ^ 16 * e.origin.toNat + 2 ^ 32 * e.oconn.toNat + 2 ^ 48 * e.epoch.toNat
    + 2 ^ 64 * e.hslot.toNat + 2 ^ 88 * inner)

/-- One RoleState entry's bytes (R263). -/
def RoleEntry.bytes : RoleEntry → List Byte
  | .copy off line => leBytes 8 off.toNat ++ leBytes 64 line.toNat
  | .dirent pa e => leBytes 8 pa.toNat ++ leBytes 10 e.toNat ++ leBytes 6 0
  | .residual pa => leBytes 8 pa.toNat
  | .movedTx o c t a pa => leBytes 8 (o.toNat + 2 ^ 16 * c.toNat + 2 ^ 32 * t.toNat + 2 ^ 48 * a.toNat)
      ++ leBytes 8 pa.toNat
  | .result o c t resp => leBytes 8 (o.toNat + 2 ^ 16 * c.toNat + 2 ^ 32 * t.toNat) ++ leBytes 32 resp.toNat
  | .lineDone pa e => leBytes 8 pa.toNat ++ leBytes 10 e.toNat ++ leBytes 6 0
  | .bobbin g => leBytes 8 g.toNat
  | .endMark => []
  | .abort => []

/-- Bytes of one entry of a RoleState KIND (R263). -/
def roleEntrySize (kind : Nat) : Nat :=
  if kind = 0 then 72 else if kind = 1 ∨ kind = 5 then 24 else if kind = 2 ∨ kind = 6 then 8
  else if kind = 3 then 16 else if kind = 4 then 40 else 0

/-- Reads one RoleState entry. -/
def parseRoleEntry (kind : Nat) (l : List Byte) : RoleEntry :=
  let n := bytesAt l 0 8
  if kind = 0 then .copy (BitVec.ofNat 64 n) (BitVec.ofNat 512 (bytesAt l 8 64))
  else if kind = 1 then .dirent (BitVec.ofNat 52 n) (BitVec.ofNat 80 (bytesAt l 8 10))
  else if kind = 2 then .residual (BitVec.ofNat 52 n)
  else if kind = 3 then .movedTx (BitVec.ofNat 12 n) (BitVec.ofNat 16 (bitsOf n 16 16))
    (BitVec.ofNat 16 (bitsOf n 32 16)) (BitVec.ofNat 10 (bitsOf n 48 16)) (BitVec.ofNat 52 (bytesAt l 8 8))
  else if kind = 4 then .result (BitVec.ofNat 12 n) (BitVec.ofNat 16 (bitsOf n 16 16))
    (BitVec.ofNat 16 (bitsOf n 32 16)) (BitVec.ofNat 256 (bytesAt l 8 32))
  else if kind = 5 then .lineDone (BitVec.ofNat 52 n) (BitVec.ofNat 80 (bytesAt l 8 10))
  else if kind = 6 then .bobbin (BitVec.ofNat 48 n)
  else if kind = 7 then .endMark
  else .abort

/-- A Picot message's bytes. -/
def PMsg.bytes : PMsg → List Byte
  | .fwdToHome e m => e.bytes 0x40 (m.bytes.length / 8) ++ m.bytes
  | .fwdToOrigin e m => e.bytes 0x41 (m.bytes.length / 8) ++ m.bytes
  | .resultRelease o c t => leBytes 16 (0x42 + 2 ^ 16 * o.toNat + 2 ^ 32 * c.toNat + 2 ^ 48 * t.toNat)
  | .deadNotice d n k q =>
    leBytes 16 (0x43 + 2 ^ 8 * b2n d + 2 ^ 16 * n.toNat + 2 ^ 32 * k.toNat + 2 ^ 48 * q.toNat)
  | .seqReq k n r e pa m d =>
    leBytes 16 (0x44 + 2 ^ 8 * k.toNat + 2 ^ 16 * n.toNat + 2 ^ 32 * r.toNat + 2 ^ 48 * e.toNat + 2 ^ 64 * pa.toNat)
      ++ (if k = 0 then leBytes 8 m.toNat ++ leBytes 64 d.toNat else [])
  | .seqGrant st n r e q =>
    leBytes 16 (0x45 + 2 ^ 8 * st.toNat + 2 ^ 16 * n.toNat + 2 ^ 32 * r.toNat + 2 ^ 48 * e.toNat + 2 ^ 64 * q.toNat)
  | .replApply k n r e pa q d =>
    leBytes 24 (0x46 + 2 ^ 8 * k.toNat + 2 ^ 16 * n.toNat + 2 ^ 32 * r.toNat + 2 ^ 48 * e.toNat + 2 ^ 64 * pa.toNat
      + 2 ^ 128 * q.toNat) ++ (if k = 0 then leBytes 64 d.toNat else [])
  | .replDone st n r q =>
    leBytes 16 (0x47 + 2 ^ 8 * st.toNat + 2 ^ 16 * n.toNat + 2 ^ 32 * r.toNat + 2 ^ 64 * q.toNat)
  | .lendReq k n r f c =>
    leBytes 16 (0x48 + 2 ^ 8 * b2n k + 2 ^ 16 * n.toNat + 2 ^ 32 * r.toNat + 2 ^ 64 * f.toNat + 2 ^ 96 * c.toNat)
  | .lendGrant st n r f c g =>
    leBytes 24 (0x49 + 2 ^ 8 * st.toNat + 2 ^ 16 * n.toNat + 2 ^ 32 * r.toNat + 2 ^ 64 * f.toNat + 2 ^ 96 * c.toNat
      + 2 ^ 128 * g.toNat)
  | .remAccess k n r ln f g pa o gen ks ps d =>
    let h := 0x4A + 2 ^ 8 * k.toNat + 2 ^ 16 * n.toNat + 2 ^ 32 * r.toNat + 2 ^ 48 * ln.toNat
    if k.toNat < 2 then
      leBytes 16 (h + 2 ^ 64 * f.toNat + 2 ^ 96 * g.toNat) ++ (if k = 1 then leBytes 64 d.toNat else [])
    else if k = 2 then
      leBytes 32 (h + 2 ^ 64 * pa.toNat + 2 ^ 128 * o.toNat + 2 ^ 144 * gen.toNat + 2 ^ 160 * b2n ks
        + 2 ^ 192 * ps.toNat)
    else leBytes 16 (h + 2 ^ 64 * pa.toNat) ++ leBytes 64 d.toNat
  | .remAnswer st n r ln f g d =>
    leBytes 16 (0x4B + 2 ^ 8 * st.toNat + 2 ^ 16 * n.toNat + 2 ^ 32 * r.toNat + 2 ^ 48 * ln.toNat + 2 ^ 64 * f.toNat
      + 2 ^ 96 * g.toNat) ++ (match d with
        | some d => leBytes 64 d.toNat
        | none => [])
  | .roleState k n e l =>
    let cnt := if k.toNat < 7 then l.length else 0
    leBytes 8 (0x4C + 2 ^ 8 * k.toNat + 2 ^ 16 * n.toNat + 2 ^ 32 * e.toNat + 2 ^ 48 * cnt)
      ++ (if k.toNat < 7 then l.flatMap RoleEntry.bytes else [])
  | .roleResend n c t => leBytes 16 (0x4D + 2 ^ 16 * n.toNat + 2 ^ 32 * c.toNat + 2 ^ 48 * t.toNat)
  | .chanStart ev a b bk g ge pv =>
    leBytes 24 (0x4E + 2 ^ 8 * b2n ev + 2 ^ 16 * a.toNat + 2 ^ 32 * b.toNat + 2 ^ 48 * b2n bk + 2 ^ 64 * g.toNat
      + 2 ^ 96 * ge.toNat + 2 ^ 128 * pv.toNat)

/-- The length in bytes of the Picot message that starts a stream, once its header is there; none where the header
is not complete or the opcode is no Picot message. A REMANSWER that answers a KIND 0 read carries data: `reads` says
whether the tag in it is that of a read. -/
def pmsgLen (reads : Nat → Bool) (l : List Byte) : Option Nat :=
  let opc := bytesAt l 0 1
  let k := bytesAt l 1 1 % 4
  if l.length < 8 then none
  else if opc = 0x40 ∨ opc = 0x41 then (if l.length < 12 then none else some (16 + 8 * bytesAt l 11 1))
  else if opc = 0x42 ∨ opc = 0x43 ∨ opc = 0x45 ∨ opc = 0x47 ∨ opc = 0x48 ∨ opc = 0x4D then some 16
  else if opc = 0x44 then some (if k = 0 then 88 else 16)
  else if opc = 0x46 then some (if k = 0 then 88 else 24)
  else if opc = 0x49 ∨ opc = 0x4E then some 24
  else if opc = 0x4A then some (if k = 0 then 16 else if k = 2 then 32 else 80)
  else if opc = 0x4B then some (if k = 0 ∧ reads (bytesAt l 4 2) then 80 else 16)
  else if opc = 0x4C then some (8 + bytesAt l 6 2 * roleEntrySize (bytesAt l 1 1 % 16))
  else none

/-- Reads `n` RoleState entries. -/
def parseRoleEntries (kind : Nat) : Nat → List Byte → List RoleEntry
  | 0, _ => []
  | n + 1, l => parseRoleEntry kind l :: parseRoleEntries kind n (l.drop (roleEntrySize kind))

/-- Reads a whole Picot message of `len` bytes at the start of `l`. -/
def parsePMsg (l : List Byte) (len : Nat) : Option PMsg :=
  let n := bytesAt l 0 24
  let opc := bitsOf n 0 8
  let node := BitVec.ofNat 12 (bitsOf n 16 12)
  let w16 (lo : Nat) : BitVec 16 := BitVec.ofNat 16 (bitsOf n lo 16)
  let w32 (lo : Nat) : BitVec 32 := BitVec.ofNat 32 (bitsOf n lo 32)
  let pa := BitVec.ofNat 52 (bitsOf n 64 52)
  let k := BitVec.ofNat 2 (bitsOf n 8 2)
  let env : Envelope := ⟨node, w16 32, w16 48, BitVec.ofNat 24 (bitsOf n 64 24)⟩
  if opc = 0x40 then (parseMsg ((l.take len).drop 16)).map (.fwdToHome env)
  else if opc = 0x41 then (parseMsg ((l.take len).drop 16)).map (.fwdToOrigin env)
  else if opc = 0x42 then some (.resultRelease node (w16 32) (w16 48))
  else if opc = 0x43 then some (.deadNotice (bitsOf n 8 1 = 1) node (BitVec.ofNat 12 (bitsOf n 32 12)) (w16 48))
  else if opc = 0x44 then
    some (.seqReq k node (w16 32) (w16 48) pa (if k = 0 then BitVec.ofNat 64 (bytesAt l 16 8) else 0)
      (if k = 0 then BitVec.ofNat 512 (bytesAt l 24 64) else 0))
  else if opc = 0x45 then some (.seqGrant k node (w16 32) (w16 48) (BitVec.ofNat 48 (bitsOf n 64 48)))
  else if opc = 0x46 then
    some (.replApply k node (w16 32) (w16 48) pa (BitVec.ofNat 48 (bitsOf n 128 48))
      (if k = 0 then BitVec.ofNat 512 (bytesAt l 24 64) else 0))
  else if opc = 0x47 then some (.replDone k node (w16 32) (BitVec.ofNat 48 (bitsOf n 64 48)))
  else if opc = 0x48 then some (.lendReq (bitsOf n 8 1 = 1) node (w16 32) (w32 64) (w32 96))
  else if opc = 0x49 then some (.lendGrant k node (w16 32) (w32 64) (w32 96) (w32 128))
  else if opc = 0x4A then
    let ln := BitVec.ofNat 6 (bitsOf n 48 6)
    if bitsOf n 8 2 < 2 then
      some (.remAccess k node (w16 32) ln (w32 64) (w32 96) 0 0 0 false 0
        (if k = 1 then BitVec.ofNat 512 (bytesAt l 16 64) else 0))
    else if k = 2 then
      some (.remAccess k node (w16 32) ln 0 0 pa (BitVec.ofNat 12 (bitsOf n 128 12)) (w16 144) (bitsOf n 160 1 = 1)
        (BitVec.ofNat 64 (bytesAt l 24 8)) 0)
    else some (.remAccess k node (w16 32) ln 0 0 pa 0 0 false 0 (BitVec.ofNat 512 (bytesAt l 16 64)))
  else if opc = 0x4B then
    some (.remAnswer k node (w16 32) (BitVec.ofNat 6 (bitsOf n 48 6)) (w32 64) (w32 96)
      (if len = 80 then some (BitVec.ofNat 512 (bytesAt l 16 64)) else none))
  else if opc = 0x4C then
    let kind := bitsOf n 8 4
    some (.roleState (BitVec.ofNat 4 kind) node (w16 32)
      (if kind < 7 then parseRoleEntries kind (bitsOf n 48 16) (l.drop 8)
       else if kind = 7 then [.endMark] else if kind = 8 then [.abort] else []))
  else if opc = 0x4D then some (.roleResend node (w16 32) (w16 48))
  else if opc = 0x4E then
    some (.chanStart (bitsOf n 8 1 = 1) node (BitVec.ofNat 12 (bitsOf n 32 12)) (bitsOf n 48 1 = 1) (w32 64) (w32 96)
      (w32 128))
  else none

end Sys2Proof
end

