-- ==== Sys2Proof/Machine/Conn.lean ====
section
/-! DEFINITION. Connections: sequences, credit, replay, paths, failover, holding and closes (spec/03, spec/04). -/

namespace Sys2Proof.Machine

/-- Reads the value of class `k`. -/
def Per4.get {α : Type} (p : Per4 α) (k : Nat) : α :=
  if k = 0 then p.c0 else if k = 1 then p.c1 else if k = 2 then p.c2 else p.c3

/-- Replaces the value of class `k`. -/
def Per4.set {α : Type} (p : Per4 α) (k : Nat) (v : α) : Per4 α :=
  if k = 0 then { p with c0 := v } else if k = 1 then { p with c1 := v } else if k = 2 then { p with c2 := v }
  else { p with c3 := v }

/-- The same value for each class. -/
def per4 {α : Type} (v : α) : Per4 α := ⟨v, v, v, v⟩

/-- `a` precedes `b` modulo 2^24 (R122). -/
def precedes (a b : Seq24) : Bool := let d := (b - a).toNat; decide (1 ≤ d) && decide (d < 2 ^ 23)

/-- `a` follows `b` modulo 2^24 (R122). -/
def follows (a b : Seq24) : Bool := precedes b a

/-- The later of two values (R133). -/
def laterSeq (a b : Seq24) : Seq24 := if follows b a then b else a

/-- The port mode in effect (R76). -/
def State.portMode (s : State) : Nat := s.fld F.ETH_MODE_APPLIED

/-- How many ports the mode has (R76). -/
def portCount (mode : Nat) : Nat := if mode = 1 then 4 else if mode = 2 then 16 else 8

/-- The engine that serves port `p` for connection `k` (R15, R16). -/
def engineOf (mode p k : Nat) : Nat := if mode = 1 then 2 * p + k % 2 else if mode = 2 then p / 2 else p

/-- The port blocks whose fields describe port `p` (spec/03, port block registers). -/
def portBlocks (mode p : Nat) : List Nat := if mode = 1 then [2 * p, 2 * p + 1] else if mode = 2 then [p / 2] else [p]

/-- A port's link state. -/
def State.port (s : State) (p : Nat) : PortSt := (tget s.link.ports p).getD ⟨false, false, false⟩

/-- True where the module has the port in its mode. -/
def State.hasPort (s : State) (p : Nat) : Bool := decide (p < portCount s.portMode)

/-- The module's node ID. -/
def State.node (s : State) : NodeId := BitVec.ofNat 12 (s.fld F.CDL_NODE_NODE)

/-- A path word of CDL_CONN_P or CDL_CONN_Q: port, VID and MAC. -/
structure Path where
  port : Nat
  vid : Nat
  mac : BitVec 48
  deriving DecidableEq, Repr

/-- Reads a path word. -/
def pathOf (w : Word) : Path := ⟨bitsOf w.toNat 0 4, bitsOf w.toNat 4 12, BitVec.ofNat 48 (bitsOf w.toNat 16 48)⟩

/-- The path of connection `k`: primary, or alternate. -/
def State.connPath (s : State) (k : Nat) (alt : Bool) : Path :=
  pathOf (s.reg (if alt then F.CDL_CONN_Q k else F.CDL_CONN_P k).key)

/-- True where the connection has an alternate path (R94). -/
def State.hasAlt (s : State) (k : Nat) : Bool := (s.connPath k true).mac != 0

/-- A path record's key as one number. -/
def pathNum (p : PathKey) : Nat := ((p.engine * 16 + p.port) * 2 ^ 48 + p.mac.toNat) * 4096 + p.vid.toNat

/-- The record key of a path of an engine. -/
def Path.key (p : Path) (engine : Nat) : PathKey := ⟨engine, p.port, p.mac, BitVec.ofNat 12 p.vid⟩

/-- An open connection. -/
def State.conn (s : State) (k : Nat) : Option Conn := tget s.link.conns k

/-- Stores an open connection. -/
def State.putConn (s : State) (k : Nat) (c : Conn) : State := { s with link.conns := tput s.link.conns k c }

/-- Changes an open connection. -/
def State.modConn (s : State) (k : Nat) (f : Conn → Conn) : State := { s with link.conns := tmod s.link.conns k f }

/-- A path record. -/
def State.path (s : State) (k : PathKey) : Option PathRec := tget s.link.paths (pathNum k)

/-- Stores a path record. -/
def State.putPath (s : State) (r : PathRec) : State := { s with link.paths := tput s.link.paths (pathNum r.key) r }

/-- The state of a connection's path as the connection sees it (R134, R140). -/
def State.pathView (s : State) (k : Nat) (c : Conn) (alt : Bool) : PathState :=
  if alt && !s.hasAlt k then .broken
  else
    let r := match s.path ((s.connPath k alt).key c.engine) with
      | some r => r.state
      | none => .broken
    match (if alt then c.viewQ else c.viewP) with
    | some v => if r ≠ .up then r else if v.ret then .returning else .broken
    | none => r

/-- Sends a frame from a port; a port that is not ready sends nothing. -/
def State.emit (s : State) (f : OutFrame) : State :=
  if (s.port f.port).ready then { s with link.tx := s.link.tx ++ [f] } else s

/-- The PCP of a traffic class (R99). -/
def State.pcp (s : State) (tc : Nat) : Nat :=
  s.fld (if tc = 0 then F.CDL_PCP_TC0 else if tc = 1 then F.CDL_PCP_TC1 else if tc = 2 then F.CDL_PCP_TC2
    else F.CDL_PCP_TC3)

/-- The MAC of a port: CDL_MACADDR.MAC of its block, plus 1 for a B port. -/
def portMacOf (mode p : Nat) : BitVec 48 :=
  if mode = 1 then Config.portMac (2 * p)
  else if mode = 2 then Config.portMac (p / 2) + BitVec.ofNat 48 (p % 2)
  else Config.portMac p

/-- Sends a frame of an EtherType on a path, from the port's own MAC, with DEI 0 (R82, R99). -/
def State.emitOn (s : State) (p : Path) (pcp etype : Nat) (body : FrameBody) : State :=
  s.emit ⟨p.port, p.mac, portMacOf s.portMode p.port, p.vid, pcp, false, etype, body⟩

/-- Sends a Coldel frame on a path. -/
def State.emitColdel (s : State) (p : Path) (h : CHdr) (payload : List Byte) : State :=
  s.emitOn p (s.pcp h.tc) (s.fld F.CDL_ETYPE_COLDEL) (.coldel h payload)

/-- The header of a packet of an open connection: every packet carries RCV_NXT and the grants (R126). -/
def Conn.hdr (c : Conn) (type tc : Nat) (ackreq retx alt : Bool) (seq : Seq24) (plen : Nat) : CHdr :=
  ⟨1, type, tc, ackreq, retx, alt, c.rcid.toNat, seq, c.rcvNxt, plen, c.grant.c0, c.grant.c1, c.grant.c2, c.grant.c3⟩

/-- A payload padded with zeros to 64 bytes. -/
def pad64 (l : List Byte) : List Byte := l ++ List.replicate (64 - l.length) 0

/-- Sends a control packet of an open connection on its primary or alternate path. -/
def State.sendCtl (s : State) (k : Nat) (type : Nat) (alt : Bool) (payload : List Byte) : State :=
  match s.conn k with
  | none => s
  | some c =>
    (s.emitColdel (s.connPath k alt) (c.hdr type 0 false false alt c.sndNxt 8) (pad64 payload)).modConn k
      fun c => { c with grantAck := none }

/-- Sends an ACK on the connection's current path (R126). -/
def State.sendAck (s : State) (k : Nat) : State :=
  match s.conn k with
  | none => s
  | some c => s.sendCtl k 1 c.onAlt []

/-- Credit units of a payload of `plen` 8-byte units (R85). -/
def unitsOf (plen : Nat) : Nat := (8 * plen + 63) / 64

/-- Units of a receive pool (R131). -/
def poolUnits (k : Nat) : Nat := if k = 0 then 4096 else if k = 1 then 32768 else if k = 3 then 28672 else 0

/-- The units of a pool that the engine's grants reserve and processing has not freed (R131). -/
def State.reserved (s : State) (engine k : Nat) : Nat :=
  (s.link.conns.map fun e => if e.2.engine = engine then (e.2.grant.get k - e.2.freed.get k).toNat else 0).sum

/-- The window of a class (CDL_CREDIT). -/
def State.window (s : State) (k : Nat) : Nat :=
  if k = 0 then s.fld F.CDL_CREDIT_W0 else if k = 1 then s.fld F.CDL_CREDIT_W1
  else if k = 3 then s.fld F.CDL_CREDIT_W3 else 0

/-- Advances one grant as far as the window and the pool's free space allow (R131). -/
def State.advanceGrant (s : State) (k cls : Nat) : State :=
  match s.conn k with
  | none => s
  | some c =>
    let want := s.window cls - (c.grant.get cls - c.recv.get cls).toNat
    let room := poolUnits cls - s.reserved c.engine cls
    let n := min want room
    if n = 0 then s
    else s.modConn k fun c =>
      { c with grant := c.grant.set cls (c.grant.get cls + BitVec.ofNat 24 n),
               grantAck := some (c.grantAck.getD s.now) }

/-- Advances the grants of TC0, TC1 and TC3; GRANT2 stays 0 (R131). -/
def State.advanceGrants (s : State) (k : Nat) : State :=
  ((s.advanceGrant k 0).advanceGrant k 1).advanceGrant k 3

/-- The replay-buffer bytes of a packet, in 64-byte units (R144). -/
def DataPkt.repUnits (p : DataPkt) : Nat := (24 + 8 * p.plen + 63) / 64

/-- The replay-buffer units in use by a connection. -/
def Conn.repUnits (c : Conn) : Nat := (c.replay.map fun e => e.pkt.repUnits).sum

/-- The replay-buffer units in use in an engine (CDL_RB_STS.USED). -/
def State.rbUsed (s : State) (engine : Nat) : Nat :=
  (s.link.conns.map fun e => if e.2.engine = engine then e.2.repUnits else 0).sum

/-- An engine's free replay space is less than the largest entry (R147). -/
def State.rbFull (s : State) (engine : Nat) : Bool := decide (2097152 < s.rbUsed engine * 64 + 4224)

/-- The stall episodes of engines whose replay space has returned are over (R147). -/
def State.unstall (s : State) : State := { s with link.stalled := s.link.stalled.filter s.rbFull }

/-- Bytes sent on a path record and not yet acknowledged, over the engine's connections (R145). -/
def State.inFlight (s : State) (key : PathKey) : Nat :=
  (s.link.conns.map fun e =>
    if e.2.engine = key.engine then
      (e.2.replay.map fun r =>
        if (s.connPath e.1 r.alt).key e.2.engine = key then 24 + 8 * r.pkt.plen else 0).sum
    else 0).sum

/-- Sends a packet again on a path: RETX 1 and fresh ACK, grants and ALT (R130). DATA sent makes an audit due (R135). -/
def State.resend (s : State) (k : Nat) (c : Conn) (alt ackreq : Bool) (p : DataPkt) : State :=
  let s := s.emitColdel (s.connPath k alt) (c.hdr 0 p.tc ackreq true alt p.seq p.plen) p.payload
  let s := s.modConn k fun c => { c with auditDue := true }
  ((s.incFld (F.CDL_RELY0_RETX c.engine)).count c.engine 2 1 none).count c.engine 3 1 none

/-- Removes the path records that no open connection uses. -/
def State.sweepPaths (s : State) : State :=
  { s with link.paths := s.link.paths.filter fun e =>
      s.link.conns.any fun c =>
        (s.connPath c.1 false).key c.2.engine = e.2.key || (s.connPath c.1 true).key c.2.engine = e.2.key }

/-- The payload of a CLOSE (R89). -/
def closePayload (reason : Nat) (node : NodeId) (conn : Nat) : List Byte :=
  leBytes 6 (reason % 16 + 2 ^ 16 * node.toNat + 2 ^ 32 * (conn % 2 ^ 16))

/-- Discards a connection's transport state and detaches its agent (R157, R158). Coherent responses and snoops stay
open at their home transactions; the results of non-coherent responses are released. -/
def State.dropConn (s : State) (k reason : Nat) : State :=
  match s.conn k with
  | none => s
  | some c =>
    let rels := ((c.txq.c2.filterMap (·.rel)).filter fun r => !r.coh) ++
      (c.replay.flatMap (·.rels)).filter fun r => !r.coh
    { s with
      link.conns := tdel s.link.conns k
      link.closed := tput s.link.closed k ⟨c.rcid, reason, (tget s.link.closed k).bind (·.lastReply)⟩
      link.detached := if c.agv ∧ !s.link.detached.contains (c.agent, k) then s.link.detached ++ [(c.agent, k)]
        else s.link.detached
      link.rels := s.link.rels ++ rels }.sweepPaths.unstall

/-- Closes an open connection: one CLOSE on its current path, then its state is gone (R89, R95, R157). -/
def State.closeConn (s : State) (k reason : Nat) : State :=
  match s.conn k with
  | none => s
  | some c => (s.sendCtl k 6 c.onAlt (closePayload reason s.node k)).dropConn k reason

/-- Closes a connection with PROTOCOL and counts the close (R89, CDL_RXDISC1.PROTOCOL). -/
def State.closeBroken (s : State) (k : Nat) : State :=
  match s.conn k with
  | none => s
  | some c => (s.closeConn k 5).incFld (F.CDL_RXDISC1_PROTOCOL c.engine)

/-- Closes a connection that broke a message rule (R102): cause 0x03. -/
def State.closeProtocol (s : State) (k : Nat) : State :=
  match s.conn k with
  | none => s
  | some c => (s.closeBroken k).record (occObj (bPort c.engine) Cause.port_PROTOCOL 3 k)

/-- Closes a connection whose replay entry fails parity as it is retransmitted (R165): cause 0x15. -/
def State.closeParity (s : State) (k : Nat) : State :=
  match s.conn k with
  | none => s
  | some c => (s.closeBroken k).record (occObj (bPort c.engine) Cause.port_RB_PARITY 3 k)

/-- Sends every entry that `f` accepts again, oldest first, on the connection's current path; an entry whose parity is
wrong closes the connection with PROTOCOL (R165). -/
def State.resendIf (s : State) (k : Nat) (f : DataPkt → Bool) : State :=
  match s.conn k with
  | none => s
  | some c =>
    if c.replay.any fun e => f e.pkt && e.bad then s.closeParity k
    else
      let s := c.replay.foldl (fun s e => if f e.pkt then s.resend k c c.onAlt false e.pkt else s) s
      s.modConn k fun c =>
        { c with replay := c.replay.map (fun e => if f e.pkt then { e with alt := c.onAlt } else e),
                 grantAck := if c.replay.any (fun e => f e.pkt) then none else c.grantAck }

/-- Enters HOLDING (R148, R149): messages of TC0 not yet sent are discarded. -/
def State.enterHolding (s : State) (k : Nat) : State :=
  match s.conn k with
  | none => s
  | some c =>
    (s.putConn k { c with holding := some s.now, flushed := false, txq := c.txq.set 0 [] }).record
      (occObj (bPort c.engine) Cause.port_NO_PATH 3 k)

/-- The current path of a connection has broken: failover to the other where it is UP, otherwise HOLDING
(R141, R148). DESIGN CHOICE (log 179): the rules do not name the case that the other is RETURNING; HOLDING there too. -/
def State.pathLost (s : State) (k : Nat) : State :=
  match s.conn k with
  | none => s
  | some c =>
    if c.holding.isSome then s
    else if s.pathView k c c.onAlt = .up then s
    else if s.pathView k c (!c.onAlt) = .up then
      (s.putConn k { c with onAlt := !c.onAlt, rto := s.now, gotAt := per4 s.now }).resendIf k fun _ => true
    else s.enterHolding k

/-- A path of a connection has become UP: exit from HOLDING with everything sent again, or failback (R141, R148). -/
def State.pathGained (s : State) (k : Nat) : State :=
  match s.conn k with
  | none => s
  | some c =>
    let p := s.pathView k c false
    let q := s.pathView k c true
    if c.holding.isSome then
      if p = .up ∨ q = .up then
        (s.putConn k { c with holding := none, flushed := false, onAlt := decide (p ≠ .up), rto := s.now,
                              gotAt := per4 s.now }).resendIf k fun _ => true
      else s
    else if c.onAlt ∧ p = .up then s.putConn k { c with onAlt := false }
    else s

/-- The connections of an engine that use a path record. -/
def State.usersOf (s : State) (key : PathKey) : List Nat :=
  (s.link.conns.filter fun e => e.2.engine = key.engine ∧
    ((s.connPath e.1 false).key e.2.engine = key ∨ (s.connPath e.1 true).key e.2.engine = key)).map (·.1)

/-- A proof on a path record makes the views of it that are BROKEN for one connection alone RETURNING (R134, R140). -/
def State.proveViews (s : State) (key : PathKey) : State :=
  let on (k : Nat) (c : Conn) (alt : Bool) : Bool := decide ((s.connPath k alt).key c.engine = key)
  let turn (b : Bool) (v : Option View) : Option View := if b then v.map fun v => { v with ret := true } else v
  let f (k : Nat) (c : Conn) : Conn := { c with viewP := turn (on k c false) c.viewP, viewQ := turn (on k c true) c.viewQ }
  { s with link.conns := s.link.conns.map fun e => (e.1, f e.1 e.2) }

/-- A proof on a path record (R139, R140). -/
def State.proof (s : State) (key : PathKey) : State :=
  match s.path key with
  | none => s
  | some r =>
    match r.state with
    | .broken => s.putPath { r with state := .returning, lastProof := s.now, retSince := s.now }
    | .returning =>
      s.putPath { r with lastProof := s.now, retSince := if r.lastProof + 6000 ≤ s.now then s.now else r.retSince }
    | .up => (s.putPath { r with lastProof := s.now }).proveViews key

/-- The views of a connection follow a record that has become BROKEN (R134). -/
def State.followRecord (s : State) (key : PathKey) (k : Nat) : State :=
  let on (c : Conn) (alt : Bool) : Bool := decide ((s.connPath k alt).key c.engine = key)
  s.modConn k fun c =>
    { c with viewP := if on c false then none else c.viewP, viewQ := if on c true then none else c.viewQ }

/-- Handles the ACK value of a packet that arrived on a path (R127, R129, R139). -/
def State.rxAck (s : State) (k : Nat) (a : Seq24) (key : PathKey) : State :=
  match s.conn k with
  | none => s
  | some c =>
    if a = c.sndUna ∨ precedes a c.sndUna then s
    else if follows a c.sndNxt then s.closeBroken k
    else
      let gone := c.replay.filter fun e => precedes e.pkt.seq a
      let proved := gone.any fun e => (s.connPath k e.alt).key c.engine = key
      let s := s.putConn k { c with sndUna := a, rto := s.now, replay := c.replay.filter fun e => !precedes e.pkt.seq a }
      let s := ({ s with link.rels := s.link.rels ++ gone.flatMap fun e : RepEntry => e.rels } : State).unstall
      if proved then s.proof key else s

/-- Takes the grants of a packet (R133). -/
def State.rxGrants (s : State) (k : Nat) (h : CHdr) : State :=
  s.modConn k fun c =>
    (upto 4).foldl (fun c i =>
      if follows (h.cg i) (c.got.get i) then { c with got := c.got.set i (h.cg i), gotAt := c.gotAt.set i s.now } else c) c

/-- The second check of an AUDIT (R136). -/
def Conn.auditOk (c : Conn) (a : HeldAudit) : Bool := (upto 4).all fun i => c.recv.get i = a.sent.get i

/-- Closes a connection with CREDIT_AUDIT (R136). -/
def State.closeAudit (s : State) (k : Nat) : State :=
  match s.conn k with
  | none => s
  | some c => (s.closeConn k 6).record (occObj (bPort c.engine) Cause.port_CREDIT_AUDIT 3 k)

/-- Makes the second check of a held AUDIT once RCV_NXT equals ASEQ. -/
def State.checkHeldAudit (s : State) (k : Nat) : State :=
  match s.conn k with
  | none => s
  | some c =>
    match c.audit with
    | none => s
    | some a =>
      if a.aseq ≠ c.rcvNxt then s
      else if c.auditOk a then s.putConn k { c with audit := none }
      else s.closeAudit k

/-- True where the packet's messages keep the message rules on this connection (R96, R99, R102). -/
def Conn.msgsOk (c : Conn) (tc : Nat) (l : List Msg) : Bool :=
  !l.isEmpty && l.all fun m => m.hostOk tc && (match m.agent with
    | some a => c.agv && decide (a = c.agent)
    | none => true)

/-- Processes stored packets in sequence order (R124). The fuel bounds the packets. -/
def State.deliver (s : State) (k : Nat) : Nat → State
  | 0 => s
  | fuel + 1 =>
    match s.conn k with
    | none => s
    | some c =>
      match c.stored.find? fun p => p.seq = c.rcvNxt with
      | none => s
      | some p =>
        match parsePayload 521 p.payload with
        | none => s.closeProtocol k
        | some msgs =>
          if !c.msgsOk p.tc msgs then s.closeProtocol k
          else
            let u := unitsOf p.plen
            let s := s.putConn k
              { c with stored := c.stored.filter fun q => q.seq ≠ p.seq
                       recv := c.recv.set p.tc (c.recv.get p.tc + BitVec.ofNat 24 u)
                       rcvNxt := c.rcvNxt + 1
                       rxq := c.rxq ++ [⟨p.eng, p.tc, u, msgs⟩]
                       grantAck := some (c.grantAck.getD s.now) }
            let s := if p.tc = 1 then
                msgs.foldl (fun s m => match m with
                  | .req r => s.count c.engine 4 1 (some r.hdr.tenant.toNat)
                  | _ => s) s
              else s
            ((s.advanceGrants k).checkHeldAudit k).deliver k fuel

/-- The missing ranges below the highest stored sequence, oldest first. The fuel bounds the walk over the stored
packets. -/
def missingRanges (next : Seq24) (stored : List DataPkt) : Nat → List (Seq24 × Nat)
  | 0 => []
  | fuel + 1 =>
    let ahead := stored.filter fun p => !precedes p.seq next
    match ahead with
    | [] => []
    | p :: rest =>
      let low := rest.foldl (fun a q => if precedes q.seq a then q.seq else a) p.seq
      if low = next then missingRanges (next + 1) stored fuel
      else (next, (low - next).toNat) :: missingRanges (low + 1) stored fuel

/-- Sends a NAK for the missing ranges not listed within 4 µs, at most 7 (R125). -/
def State.sendNak (s : State) (k : Nat) : State :=
  match s.conn k with
  | none => s
  | some c =>
    let fresh := (missingRanges c.rcvNxt c.stored (2 * c.stored.length + 2)).filter fun r =>
      !c.naks.any fun n => decide (s.now < n.time + 4000) && decide ((r.1 - n.first).toNat < n.count)
    let l := fresh.take 7
    if l.isEmpty then s
    else
      let body := leBytes 8 l.length ++ l.flatMap fun r => leBytes 8 (r.1.toNat + 2 ^ 24 * min r.2 0xffff)
      let s := (s.sendCtl k 2 c.onAlt body).incFld (F.CDL_RELY0_NAKTX c.engine)
      s.modConn k fun c =>
        { c with naks := (c.naks.filter fun n => decide (s.now < n.time + 4000)) ++ l.map fun r => ⟨r.1, r.2, s.now⟩ }

/-- Handles a DATA packet that passed checks 1 to 11, received by a port of engine `eng` (R124 to R126, R135). -/
def State.rxData (s : State) (k eng : Nat) (h : CHdr) (payload : List Byte) : State :=
  match s.conn k with
  | none => s
  | some c0 =>
    let c : Conn := { c0 with auditDue := true }
    let s := (s.putConn k c).count c.engine 1 1 none
    let u := unitsOf h.plen
    if precedes h.seq c.rcvNxt ∨ c.stored.any (fun p => p.seq = h.seq) then
      (s.incFld (F.CDL_RELY1_DUP c.engine)).sendAck k
    else
      let held := ((c.stored.filter fun p => p.tc = h.tc).map fun p => unitsOf p.plen).sum
      if follows (c.recv.get h.tc + BitVec.ofNat 24 (u + held)) (c.grant.get h.tc) then s.closeBroken k
      else
        let s := s.putConn k { c with stored := c.stored ++ [⟨eng, h.tc, h.seq, h.plen, payload⟩] }
        let s := s.deliver k (c.stored.length + 1)
        match s.conn k with
        | none => s
        | some c =>
          let s := if c.stored.isEmpty then s else s.sendNak k
          if h.ackreq then s.sendAck k else s

/-- Ranges of a NAK payload (R90). -/
def nakRanges (payload : List Byte) : List (Seq24 × Nat) :=
  (upto (min 7 (bytesAt payload 0 1 % 8))).map fun i =>
    (BitVec.ofNat 24 (bytesAt payload (8 * i + 8) 3), bytesAt payload (8 * i + 11) 2)

/-- Handles a NAK (R128). DESIGN CHOICE (log 177): R128 does not say what one does while the connection is HOLDING, which sends
nothing (R149); it is counted and retransmits nothing. -/
def State.rxNak (s : State) (k : Nat) (payload : List Byte) : State :=
  match s.conn k with
  | none => s
  | some c =>
    let l := nakRanges payload
    let s := s.addFld (F.CDL_RELY0_NAKRX c.engine) l.length
    if c.holding.isSome then s
    else s.resendIf k fun p => l.any fun r => decide ((p.seq - r.1).toNat < r.2)

/-- Handles a HEARTBEAT on a path record: TXTIME is kept, and an ECHO of the last 6 µs is a proof (R138, R139). -/
def State.rxHeartbeat (s : State) (key : PathKey) (payload : List Byte) : State :=
  match s.path key with
  | none => s
  | some r =>
    let echo := bytesAt payload 8 8
    let s := s.putPath { r with echo := bytesAt payload 0 8 }
    if r.txTimes.any fun t => t = echo ∧ s.now ≤ t + 6000 then s.proof key else s

/-- Four values of 24 bits each, from byte `i` on. -/
def per4At (payload : List Byte) (i : Nat) : Per4 Seq24 :=
  let f (j : Nat) : Seq24 := BitVec.ofNat 24 (bytesAt payload (i + 3 * j) 3)
  ⟨f 0, f 1, f 2, f 3⟩

/-- Handles an AUDIT (R136). -/
def State.rxAudit (s : State) (k : Nat) (payload : List Byte) : State :=
  match s.conn k with
  | none => s
  | some c =>
    let sent := per4At payload 0
    let got := per4At payload 12
    let aseq : Seq24 := BitVec.ofNat 24 (bytesAt payload 24 3)
    if (upto 4).any fun i => follows (got.get i) (c.grant.get i) || follows (sent.get i) (c.grant.get i) then
      s.closeAudit k
    else if follows c.rcvNxt aseq then s.incFld (F.CDL_RELY1_AUDIT_SKIP c.engine)
    else (s.putConn k { c with audit := some ⟨aseq, sent⟩ }).checkHeldAudit k

/-- The reason of a CLOSE (R89). -/
def closeReason (payload : List Byte) : Nat := bytesAt payload 0 1 % 16

/-- Handles a CLOSE from the peer: the connection ends (R157). -/
def State.rxClose (s : State) (k : Nat) (payload : List Byte) : State := s.dropConn k (closeReason payload)

/-- Sends a CLOSE in reply to a frame, at most once per connection ID per 100 µs (R95). -/
def State.replyClose (s : State) (k hdrConn reason : Nat) (f : RxFrame) (vid : Nat) : State :=
  let info := (tget s.link.closed k).getD ⟨0, 0, none⟩
  let busy := match info.lastReply with
    | some t => decide (s.now < t + 100000)
    | none => false
  if busy then s
  else
    let h : CHdr := ⟨1, 6, 0, false, false, false, hdrConn, 0, 0, 8, 0, 0, 0, 0⟩
    let s := s.emitColdel ⟨f.port, vid, f.src⟩ h (pad64 (closePayload reason s.node k))
    { s with link.closed := tput s.link.closed k { info with lastReply := some s.now } }

/-- The CONNECT and ACCEPT payload (R88). -/
structure ConnPayload where
  srcNode : NodeId
  dstNode : NodeId
  srcCid : ConnId
  isn : Seq24
  maxpay : Nat
  agent : AgentId
  agv : Bool
  snoop : Bool
  deriving DecidableEq, Repr

/-- Reads a CONNECT payload. -/
def parseConnect (l : List Byte) : ConnPayload :=
  let n := bytesAt l 0 12
  ⟨BitVec.ofNat 12 (bitsOf n 0 12), BitVec.ofNat 12 (bitsOf n 16 12), BitVec.ofNat 16 (bitsOf n 32 16),
    BitVec.ofNat 24 (bitsOf n 48 24), bitsOf n 72 7, BitVec.ofNat 10 (bitsOf n 80 10), bitsOf n 90 1 = 1,
    bitsOf n 91 1 = 1⟩

/-- The payload of an ACCEPT: MAXPAY 65, AGV 0, SNOOP 0 (R88). -/
def acceptPayload (node peer : NodeId) (k : Nat) (isn : Seq24) : List Byte :=
  leBytes 10 (node.toNat + 2 ^ 16 * peer.toNat + 2 ^ 32 * k + 2 ^ 48 * isn.toNat + 2 ^ 72 * 65)

/-- Sends the ACCEPT of an open connection (R88). -/
def State.sendAccept (s : State) (k : Nat) (alt : Bool) : State :=
  match s.conn k with
  | none => s
  | some c =>
    let h := { c.hdr 5 0 false false alt c.isn 8 with ack := c.risn }
    s.emitColdel (s.connPath k alt) h (pad64 (acceptPayload s.node c.peer k c.isn))

/-- The path record of a newly opened connection: kept where another connection uses it, otherwise UP on the path of
the ACCEPT and BROKEN on the other (R140). -/
def State.openPath (s : State) (key : PathKey) (up : Bool) : State :=
  match s.path key with
  | some _ => s
  | none => s.putPath ⟨key, if up then .up else .broken, s.now, s.now, s.now, [], 0⟩

/-- Opens connection `k` on the path that matched (R84, R88, R92, R123, R131). DESIGN CHOICE (log 165): R88 does not say what
SNOOP 1 means with AGV 0; SNOOP is kept only where AGV is 1. -/
def State.openConn (s : State) (k : Nat) (p : ConnPayload) (h : CHdr) (alt : Bool) (isn : Seq24) : State :=
  let engine := engineOf s.portMode (s.connPath k false).port k
  let g (cls : Nat) : Seq24 := BitVec.ofNat 24 (min (s.window cls) (poolUnits cls - s.reserved engine cls))
  let c : Conn :=
    { engine := engine, peer := p.srcNode, agv := p.agv, agent := p.agent, snoop := p.snoop && p.agv, rcid := p.srcCid
      risn := p.isn, maxpay := p.maxpay, opened := s.link.opens, isn := isn, sndNxt := isn, sndUna := isn
      rcvNxt := p.isn, sent := per4 0, got := ⟨h.cg0, h.cg1, h.cg2, h.cg3⟩, gotAt := per4 s.now, recv := per4 0
      grant := ⟨g 0, g 1, 0, g 3⟩, freed := per4 0, stored := [], rxq := [], replay := [], txq := per4 []
      onAlt := alt, viewP := none, viewQ := none, holding := none, flushed := false, naks := [], rto := s.now
      grantAck := none, audit := none, auditDue := false, lastAudit := s.now }
  let info := (tget s.link.closed k).getD ⟨0, 0, none⟩
  let s := { s with link.opens := s.link.opens + 1, link.closed := tput s.link.closed k { info with rcid := p.srcCid } }
  let s := (s.putConn k c).openPath ((s.connPath k alt).key engine) true
  let s := if s.hasAlt k then s.openPath ((s.connPath k (!alt)).key engine) false else s
  let s := s.sendAccept k alt
  let primaryUp := s.pathView k c false = .up
  let altUp := s.pathView k c true = .up
  let s := s.putConn k { c with onAlt := decide (¬ primaryUp) && decide altUp }
  if primaryUp ∨ altUp then s else s.enterHolding k

/-- True where a CONNECT's grants fall short of R132. -/
def grantsShort (p : ConnPayload) (h : CHdr) : Bool :=
  decide (h.cg0.toNat < 65) || (p.agv && (decide (h.cg2.toNat < 65) || decide (h.cg3.toNat < 65)))

/-- Answers a CONNECT as the pseudocode of R95 shows; `isn` is the value drawn for an opening. -/
def State.rxConnect (s : State) (f : RxFrame) (vid : Nat) (h : CHdr) (payload : List Byte) (isn : Seq24) : State :=
  let k := h.conn
  let p := parseConnect payload
  let refuse (s : State) (reason : Nat) : State := s.replyClose k p.srcCid.toNat reason f vid
  let at_ : Path := ⟨f.port, vid, f.src⟩
  let alt := decide (at_ ≠ s.connPath k false)
  if k = 0 ∨ !s.bit (F.CDL_CONN_A_EN k) then refuse s 1
  else if at_ ≠ s.connPath k false ∧ ¬(s.hasAlt k ∧ at_ = s.connPath k true) then
    s.incFld (F.CDL_RXDISC0_BADPATH (engineOf s.portMode f.port k))
  else if p.srcNode.toNat ≠ s.fld (F.CDL_CONN_A_PEER k) ∨ p.dstNode ≠ s.node ∨ s.node = 0xfff then refuse s 2
  else if p.agv ∧ (!s.bit (F.CDL_CONN_A_AGV k) ∨ p.agent.toNat ≠ s.fld (F.CDL_CONN_A_AGENT k)) then refuse s 3
  else if p.maxpay = 0 ∨ 65 < p.maxpay ∨ (p.agv ∧ p.maxpay < 2) ∨ grantsShort p h then refuse s 5
  else
    let again : Bool := match s.conn k with
      | some c => decide (c.rcid = p.srcCid) && decide (c.risn = p.isn)
      | none => false
    if again then s.sendAccept k alt
    else
      let s := s.closeConn k 8
      let engine := engineOf s.portMode (s.connPath k false).port k
      if 2048 ≤ countIf s.link.conns (fun e => e.2.engine = engine) then refuse s 4
      else s.openConn k p h alt isn

/-- The VID of a received frame: 0 where it carries no tag or a priority tag (R78). -/
def vidOfTag : Tag → Nat
  | .ctag v _ => v.toNat
  | _ => 0

/-- Check 1 of R111 fails: the frame counts in every block that describes its port. -/
def State.badFcs (s : State) (f : RxFrame) : State :=
  (portBlocks s.portMode f.port).foldl (fun s b => s.incFld (F.ETH_RXERR_CNT_FCS b)) s

/-- The address filter of R78. -/
def State.dstAccepted (s : State) (f : RxFrame) : Bool :=
  decide (f.dst = 0xFFFFFFFFFFFF) || decide (f.dst = 0x011B19000000) || decide (f.dst = 0x0180C200000E)
    || decide (f.dst = 0x0180C2000001) || decide (f.dst = portMacOf s.portMode f.port)

/-- Checks 1 and 2 of R111, which every frame passes first, and the discard of S-tagged and stacked frames (R78, log
entry 26); answers whether the frame goes on. -/
def State.rxFilter (s : State) (f : RxFrame) : State × Bool :=
  if !f.fcsGood then (s.badFcs f, false)
  else if !s.dstAccepted f then (s, false)
  else if f.tag = .other then (s.incFld (F.CDL_RXDISC1_OTHER_ETYPE (engineOf s.portMode f.port 0)), false)
  else (s, true)

/-- Checks 1 to 9 of R111 on a frame; answers the header and payload of a Coldel frame that passes. DESIGN CHOICE (log
entry 166): in 800G mode a frame that fails checks 4 to 9, before its connection is known, counts in the block of engine 2p. -/
def State.rxChecks (s : State) (f : RxFrame) : State × Option (CHdr × List Byte) :=
  let e := engineOf s.portMode f.port 0
  let h := CHdr.parse f.body
  let len := 24 + 8 * h.plen
  if !(s.rxFilter f).2 then ((s.rxFilter f).1, none)
  else if (s.takePflip 8 0 e).1 then ((s.takePflip 8 0 e).2.record (occObj (bPort e) Cause.port_RXQ_PARITY 7 f.port), none)
  else if f.etherType = 0x8808 ∨ f.etherType = 0x88F7 ∨ f.etherType.toNat = s.fld F.CDL_ETYPE_PICOT then (s, none)
  else if f.etherType.toNat ≠ s.fld F.CDL_ETYPE_COLDEL then (s.incFld (F.CDL_RXDISC1_OTHER_ETYPE e), none)
  else if h.plen < 8 ∨ 520 < h.plen ∨ f.body.length ≠ len + 4 then (s.incFld (F.CDL_RXDISC1_BADLEN e), none)
  else if crc32c (f.body.take len) ≠ BitVec.ofNat 32 (bytesAt f.body len 4) then
    (s.incFld (F.CDL_RXDISC0_BADCRC e), none)
  else if h.ver ≠ 1 ∨ 8 ≤ h.type ∨ (h.type ≠ 0 ∧ h.plen ≠ 8) then (s.incFld (F.CDL_RXDISC0_BADVER e), none)
  else (s, some (h, (f.body.take len).drop 24))

/-- What a packet of an open connection does once its grants, its ACK value and, for a CLOSE, its reason are known. An
ACCEPT, which no one sends to an end that never opens a connection, does nothing more (R87, R91). -/
def State.rxTyped (s : State) (k eng type : Nat) (key : PathKey) (h : CHdr) (payload : List Byte) : State :=
  if type = 0 then s.rxData k eng h payload
  else if type = 2 then s.rxNak k payload
  else if type = 3 then (if (s.conn k).isSome then s.rxHeartbeat key payload else s)
  else if type = 6 then s.rxClose k payload
  else if type = 7 then s.rxAudit k payload
  else s

/-- A CLOSE with NOT_OPEN carries 0 in its ACK and grant fields, and no values of the connection (R89). -/
def carriesValues (type : Nat) (payload : List Byte) : Bool := decide (type ≠ 6) || decide (closeReason payload ≠ 9)

/-- Receives a frame that is a Coldel packet of type `type`: the checks of R111, then what that type does. A frame
that passes the checks with another type is not this event and changes nothing, but an ACCEPT, which has no event of its own,
passes checks 10 to 12 with whatever event carries it. -/
def State.rxColdel (s : State) (f : RxFrame) (type : Nat) (isn : Seq24) : State :=
  if !(s.port f.port).ready then s
  else
    match s.rxChecks f with
    | (s, none) => s
    | (s, some (h, payload)) =>
      if h.type ≠ type ∧ h.type ≠ 5 then s
      else
        let k := h.conn
        let vid := vidOfTag f.tag
        let e := engineOf s.portMode f.port k
        if h.type = 4 then s.rxConnect f vid h payload isn
        else
          match s.conn k with
          | none =>
            let rcid := ((tget s.link.closed k).map (·.rcid.toNat)).getD 0
            (s.incFld (F.CDL_RXDISC0_NOCONN e)).replyClose k rcid 9 f vid
          | some c =>
            let at_ : Path := ⟨f.port, vid, f.src⟩
            if at_ ≠ s.connPath k false ∧ ¬(s.hasAlt k ∧ at_ = s.connPath k true) then
              s.incFld (F.CDL_RXDISC0_BADPATH e)
            else
              let key := at_.key c.engine
              let s := if carriesValues h.type payload then (s.rxGrants k h).rxAck k h.ack key else s
              s.rxTyped k e h.type key h payload

/-- A message that a HOLDING connection does not keep (R149): one of TC0, and after GRACE a response to a non-coherent
request. -/
def Conn.discards (c : Conn) (m : OutMsg) : Bool :=
  c.holding.isSome && (decide (m.msg.tc = 0) || (c.flushed && decide (m.msg.tc = 2) && !m.coh))

/-- Puts a message into a connection's queue of its class (R133), unless R149 discards it: a discarded response counts in
HOLD_FLUSH and its result-cache entry is released. -/
def State.queueMsg (s : State) (k : Nat) (m : OutMsg) : State :=
  match s.conn k with
  | none => s
  | some c =>
    if !c.discards m then s.putConn k { c with txq := c.txq.set m.msg.tc (c.txq.get m.msg.tc ++ [m]) }
    else if m.msg.tc = 0 then s
    else { s.incFld (F.CDL_RELY1_HOLD_FLUSH c.engine) with link.rels := s.link.rels ++ m.rel.toList }

/-- The waiting messages that one packet takes: as many as fit in `limit` bytes, at least the first. -/
def packPrefix (limit : Nat) : Nat → List OutMsg → List OutMsg
  | _, [] => []
  | used, m :: l =>
    let n := used + m.msg.bytes.length
    if used = 0 ∨ n ≤ limit then m :: packPrefix limit n l else []

/-- Units of a packet that carries these messages. -/
def packUnits (l : List OutMsg) : Nat := unitsOf (max 8 ((l.map fun m => m.msg.bytes.length).sum / 8))

/-- The credit of a class: units that may still be sent (R133). -/
def Conn.credit (c : Conn) (tc : Nat) : Nat :=
  let d := c.got.get tc - c.sent.get tc
  if d.toNat < 2 ^ 23 then d.toNat else 0

/-- The messages that the next packet of a class takes under MAXPAY and the credit. -/
def Conn.nextPack (c : Conn) (tc : Nat) : List OutMsg :=
  let l := packPrefix (64 * min c.maxpay (c.credit tc)) 0 (c.txq.get tc)
  if packUnits l ≤ c.credit tc then l else []

/-- A packet of the class waits and the credit is less than its units (R134). -/
def Conn.starved (c : Conn) (tc : Nat) : Bool := !(c.txq.get tc).isEmpty && (c.nextPack tc).isEmpty

/-- FLIGHT_MAX in bytes for the port rate (R145). -/
def State.flightMax (s : State) : Nat :=
  let b := s.fld F.CDL_FLIGHT_FLIGHT_MAX * 1024
  if s.portMode = 1 then 2 * b else if s.portMode = 2 then b / 2 else b

/-- True where R145, R146 and R147 let the connection send new DATA. -/
def State.mayFly (s : State) (k : Nat) (c : Conn) : Bool :=
  let key := (s.connPath k c.onAlt).key c.engine
  decide (s.inFlight key < s.flightMax) && decide (c.repUnits * 64 < s.fld F.CDL_FLIGHT_CONN_QUOTA * 1024)
    && !s.rbFull c.engine

/-- Counts a TC2 or TC3 message sent to an agent (R418). -/
def State.countSent (s : State) (engine : Nat) (m : Msg) : State :=
  match m with
  | .resp r =>
    let s := s.count engine 5 1 (some r.tenant.toNat)
    if r.op = .nak then s.count engine 7 1 (some r.tenant.toNat) else s
  | .snp _ => s.count engine 6 1 none
  | _ => s

/-- Sends a new DATA packet of a class, if credit, flight, quota and replay space allow (R133, R145 to R147). -/
def State.sendData (s : State) (k tc : Nat) : State :=
  match s.conn k with
  | none => s
  | some c =>
    let l := c.nextPack tc
    if l.isEmpty ∨ c.holding.isSome ∨ s.pathView k c c.onAlt ≠ .up then s
    else if !s.mayFly k c then
      if !s.rbFull c.engine ∨ s.link.stalled.contains c.engine then s
      else { s with link.stalled := c.engine :: s.link.stalled }.incFld (F.CDL_RELY1_STALLEV c.engine)
    else
      let bytes := l.flatMap fun m => m.msg.bytes
      let payload := pad64 bytes
      let plen := payload.length / 8
      let pkt : DataPkt := ⟨c.engine, tc, c.sndNxt, plen, payload⟩
      let (bad, s) := s.takePflip 7 0 c.engine
      let s := s.emitColdel (s.connPath k c.onAlt) (c.hdr 0 tc false false c.onAlt c.sndNxt plen) payload
      let s := l.foldl (fun s m => s.countSent c.engine m.msg) (s.count c.engine 2 1 none)
      let s := s.putConn k
        { c with sndNxt := c.sndNxt + 1, sent := c.sent.set tc (c.sent.get tc + BitVec.ofNat 24 (unitsOf plen))
                 replay := c.replay ++ [⟨pkt, c.onAlt, l.filterMap (·.rel), bad⟩]
                 txq := c.txq.set tc ((c.txq.get tc).drop l.length)
                 rto := if c.replay.isEmpty then s.now else c.rto
                 grantAck := none, auditDue := true }
      s.setFld (F.CDL_RB_STS_PEAK c.engine) (max (s.fld (F.CDL_RB_STS_PEAK c.engine)) (s.rbUsed c.engine))

/-- Takes the first waiting message of class `tc` that `f` accepts out of a connection's class buffers; a packet whose
messages are all taken frees its units (R131). -/
def takeRx (tc : Nat) (f : Msg → Bool) : List RxPkt → Option (Nat × List RxPkt)
  | [] => none
  | p :: l =>
    if p.tc = tc ∧ p.msgs.any f then
      let msgs := p.msgs.eraseIdx ((p.msgs.findIdx? f).getD 0)
      if msgs.isEmpty then some (p.units, l) else some (0, { p with msgs := msgs } :: l)
    else (takeRx tc f l).map fun r => (r.1, p :: r.2)

/-- The messages that wait in a connection's class buffer, in the order in which they are processed (R101). -/
def State.waiting (s : State) (k tc : Nat) : List Msg :=
  ((s.conn k).map fun c => (c.rxq.filter fun p => p.tc = tc).flatMap (·.msgs)).getD []

/-- The message that `f` describes is the next of its class on the connection: it stands first in the class buffer, or
nothing waits there and the command delivers it (R101). -/
def State.inTurn (s : State) (k tc : Nat) (f : Msg → Bool) : Bool :=
  match s.waiting k tc with
  | [] => true
  | m :: _ => f m

/-- The engine whose port received the frame that carried the next message of a class (R165). -/
def State.rxEngine (s : State) (k tc : Nat) : Nat :=
  match s.conn k with
  | none => 0
  | some c => ((c.rxq.find? fun p => p.tc = tc).map (·.eng)).getD c.engine

/-- Takes a delivered message from a connection's class buffer, if it is there, and frees its units. -/
def State.takeMsg (s : State) (k tc : Nat) (f : Msg → Bool) : State :=
  match s.conn k with
  | none => s
  | some c =>
    match takeRx tc f c.rxq with
    | none => s
    | some (u, rxq) =>
      (s.putConn k { c with rxq := rxq, freed := c.freed.set tc (c.freed.get tc + BitVec.ofNat 24 u) }).advanceGrants k

end Sys2Proof.Machine
end

