-- ==== Sys2Proof/Machine/Crypto.lean ====
section
/-! DEFINITION. The cryptography that spec/11 and spec/15 name: AES-256 and XTS (R366 to R368), SHA-384, the P-384
curve (R371 to R373, R503) and AES key wrap with padding (R374, RFC 5649). -/

namespace Sys2Proof.Machine

/-- The AES S-box: entry x in byte x (FIPS 197). -/
def sboxNum : Nat := 0x16bb54b00f2d99416842e6bf0d89a18cdf2855cee9871e9b948ed9691198f8e19e1dc186b95735610ef6034866b53e708a8bbd4b1f74dde8c6b4a61c2e2578ba08ae7a65eaf4566ca94ed58d6d37c8e779e4959162acd3c25c2406490a3a32e0db0b5ede14b8ee4688902a22dc4f816073195d643d7ea7c41744975fec130ccdd2f3ff1021dab6bcf5389d928f40a351a89f3c507f02f94585334d43fbaaefd0cf584c4a39becb6a5bb1fc20ed00d153842fe329b3d63b52a05a6e1b1a2c830975b227ebe28012079a059618c323c7041531d871f1e5a534ccf73f362693fdb7c072a49cafa2d4adf04759fa7dc982ca76abd7fe2b670130c56f6bf27b777c63

/-- The inverse S-box. -/
def invSboxNum : Nat := 0x7d0c2155631469e126d677ba7e042b17619953833cbbebc8b0f52aae4d3be0a0ef9cc9939f7ae52d0d4ab519a97f51605fec8027591012b131c7078833a8dd1ff45acd78fec0db9a2079d2c64b3e56fc1bbe18aa0e62b76f89c5291d711af1476edf751ce837f9e28535ade72274ac9673e6b4f0cecff297eadc674f4111913a6b8a130103bdafc1020f3fca8f1e2cd00645b3b80558e4f70ad3bc8c00abd890849d8da75746155edab9edfd5048706c92b6655dcc5ca4d41698688664f6f87225d18b6d49a25b76b224d92866a12e084ec3fa420b954cee3d23c2a632947b54cbe9dec444438e3487ff2f9b8239e37cfbd7f3819ea340bf38a53630d56a0952

/-- Looks a byte up in a table held as one number. -/
def tabByte (t : Nat) (b : Byte) : Byte := BitVec.ofNat 8 (t >>> (8 * b.toNat))

/-- Multiplication by x in GF(2^8) modulo 0x11B. -/
def xtime (b : Byte) : Byte := if b.getLsbD 7 then (b <<< 1) ^^^ 0x1B#8 else b <<< 1

/-- Multiplication in GF(2^8). -/
def gmul (a b : Byte) : Byte :=
  ((upto 8).foldl (fun (p : Byte × Byte) i => (if b.getLsbD i then p.1 ^^^ p.2 else p.1, xtime p.2))
    ((0 : Byte), a)).1

/-- Exclusive or of two byte lists. -/
def xorBytes (a b : List Byte) : List Byte := List.zipWith (· ^^^ ·) a b

/-- Element `i` of a byte list, 0 past its end. -/
def byteAt (l : List Byte) (i : Nat) : Byte := l.getD i 0

/-- ShiftRows on a state of 16 bytes in column order. -/
def shiftRows (st : List Byte) : List Byte := (upto 16).map fun i => byteAt st ((i + 4 * (i % 4)) % 16)

/-- The inverse of ShiftRows. -/
def invShiftRows (st : List Byte) : List Byte := (upto 16).map fun i => byteAt st ((i + 12 * (i % 4)) % 16)

/-- MixColumns with the coefficients of one row. -/
def mixWith (a b c d : Byte) (st : List Byte) : List Byte :=
  (upto 16).map fun i =>
    let col := i / 4 * 4
    let f (j : Nat) : Byte := byteAt st (col + (i + j) % 4)
    gmul (f 0) a ^^^ gmul (f 1) b ^^^ gmul (f 2) c ^^^ gmul (f 3) d

/-- One word of the AES-256 key schedule after the words `ws` (latest first). -/
def nextKeyWord (i : Nat) (rcon : Byte) (ws : List (List Byte)) : List Byte :=
  let prev := ws.headD []
  let sub (w : List Byte) : List Byte := w.map (tabByte sboxNum)
  let t := if i % 8 = 0 then xorBytes (sub (prev.drop 1 ++ prev.take 1)) [rcon, 0, 0, 0]
    else if i % 8 = 4 then sub prev else prev
  xorBytes (ws.getD 7 []) t

/-- The 60 words of the AES-256 key schedule, latest first. -/
def keyWords (key : List Byte) : List (List Byte) :=
  let init := ((upto 8).map fun i => (key.drop (4 * i)).take 4).reverse
  ((upto 52).foldl (fun (p : List (List Byte) × Byte) j =>
    (nextKeyWord (j + 8) p.2 p.1 :: p.1, if (j + 8) % 8 = 0 then xtime p.2 else p.2)) (init, (1 : Byte))).1

/-- The 15 round keys of AES-256. -/
def roundKeys (key : List Byte) : List (List Byte) :=
  let ws := (keyWords key).reverse
  (upto 15).map fun r => ((ws.drop (4 * r)).take 4).flatten

/-- AES-256 encryption of one block under round keys. -/
def aesEnc (rk : List (List Byte)) (blk : List Byte) : List Byte :=
  let st := (upto 13).foldl (fun st r =>
    xorBytes (mixWith 2 3 1 1 (shiftRows (st.map (tabByte sboxNum)))) (rk.getD (r + 1) [])) (xorBytes blk (rk.getD 0 []))
  xorBytes (shiftRows (st.map (tabByte sboxNum))) (rk.getD 14 [])

/-- AES-256 decryption of one block under round keys. -/
def aesDec (rk : List (List Byte)) (blk : List Byte) : List Byte :=
  let st := (upto 13).foldl (fun st r =>
    mixWith 14 11 13 9 (xorBytes ((invShiftRows st).map (tabByte invSboxNum)) (rk.getD (13 - r) [])))
    (xorBytes blk (rk.getD 14 []))
  xorBytes ((invShiftRows st).map (tabByte invSboxNum)) (rk.getD 0 [])

/-- Multiplication of a tweak by x in GF(2^128), least significant byte first (IEEE 1619). -/
def tweakNext (t : Nat) : Nat :=
  let d := 2 * t
  if d < 2 ^ 128 then d else (d - 2 ^ 128) ^^^ 0x87

/-- XTS over the four blocks of a line (R366, R367): `f` is the cipher direction. -/
def xtsBlocks (f : List Byte → List Byte) : Nat → Nat → List Byte → List Byte
  | 0, _, _ => []
  | n + 1, t, l =>
    let tb := leBytes 16 t
    xorBytes (f (xorBytes (l.take 16) tb)) tb ++ xtsBlocks f n (tweakNext t) (l.drop 16)

/-- The first tweak value: the tweak encrypted under K2. -/
def xtsTweak (key : BitVec 512) (tweak : Nat) : Nat :=
  leNat (aesEnc (roundKeys (leBytes 32 (key.toNat / 2 ^ 256))) (leBytes 16 tweak))

/-- Encrypts a line. A key holds K1 in its low 256 bits and K2 in its high 256, byte 0 of each lowest. -/
def xtsEnc (key : BitVec 512) (tweak : Nat) (line : Line) : Line :=
  BitVec.ofNat 512 (leNat (xtsBlocks (aesEnc (roundKeys (leBytes 32 key.toNat))) 4 (xtsTweak key tweak)
    (leBytes 64 line.toNat)))

/-- Decrypts a line. -/
def xtsDec (key : BitVec 512) (tweak : Nat) (line : Line) : Line :=
  BitVec.ofNat 512 (leNat (xtsBlocks (aesDec (roundKeys (leBytes 32 key.toNat))) 4 (xtsTweak key tweak)
    (leBytes 64 line.toNat)))

/-- The value of bytes, most significant first. -/
def beNat (l : List Byte) : Nat := leNat l.reverse

/-- The 64-bit words of a number, most significant first. -/
def wordsOf (n v : Nat) : List (BitVec 64) := (upto n).map fun i => BitVec.ofNat 64 (v >>> (64 * (n - 1 - i)))

/-- The constants of FIPS 180-4 for SHA-384, eight words to a number: the fractions of the cube roots of the first 80 primes. -/
def shaRows : List Nat := [
  0x428a2f98d728ae227137449123ef65cdb5c0fbcfec4d3b2fe9b5dba58189dbbc3956c25bf348b53859f111f1b605d019923f82a4af194f9bab1c5ed5da6d8118,
  0xd807aa98a303024212835b0145706fbe243185be4ee4b28c550c7dc3d5ffb4e272be5d74f27b896f80deb1fe3b1696b19bdc06a725c71235c19bf174cf692694,
  0xe49b69c19ef14ad2efbe4786384f25e30fc19dc68b8cd5b5240ca1cc77ac9c652de92c6f592b02754a7484aa6ea6e4835cb0a9dcbd41fbd476f988da831153b5,
  0x983e5152ee66dfaba831c66d2db43210b00327c898fb213fbf597fc7beef0ee4c6e00bf33da88fc2d5a79147930aa72506ca6351e003826f142929670a0e6e70,
  0x27b70a8546d22ffc2e1b21385c26c9264d2c6dfc5ac42aed53380d139d95b3df650a73548baf63de766a0abb3c77b2a881c2c92e47edaee692722c851482353b,
  0xa2bfe8a14cf10364a81a664bbc423001c24b8b70d0f89791c76c51a30654be30d192e819d6ef5218d69906245565a910f40e35855771202a106aa07032bbd1b8,
  0x19a4c116b8d2d0c81e376c085141ab532748774cdf8eeb9934b0bcb5e19b48a8391c0cb3c5c95a634ed8aa4ae3418acb5b9cca4f7763e373682e6ff3d6b2b8a3,
  0x748f82ee5defb2fc78a5636f43172f6084c87814a1f0ab728cc702081a6439ec90befffa23631e28a4506cebde82bde9bef9a3f7b2c67915c67178f2e372532b,
  0xca273eceea26619cd186b8c721c0c207eada7dd6cde0eb1ef57d4f7fee6ed17806f067aa72176fba0a637dc5a2c898a6113f9804bef90dae1b710b35131c471b,
  0x28db77f523047d8432caab7b40c724933c9ebe0a15c9bebc431d67c49c100d4c4cc5d4becb3e42b6597f299cfc657e2a5fcb6fab3ad6faec6c44198c4a475817]

/-- The constant of every round. -/
def shaConsts : List (BitVec 64) := shaRows.flatMap (wordsOf 8)

/-- The eight registers of a digest in the making, in the order of FIPS 180-4. -/
structure ShaRegs where
  a : BitVec 64
  b : BitVec 64
  c : BitVec 64
  d : BitVec 64
  e : BitVec 64
  f : BitVec 64
  g : BitVec 64
  h : BitVec 64

/-- Registers from eight words. -/
def ShaRegs.ofWords (l : List (BitVec 64)) : ShaRegs :=
  let w (i : Nat) : BitVec 64 := l.getD i 0
  ⟨w 0, w 1, w 2, w 3, w 4, w 5, w 6, w 7⟩

/-- The words of the registers. -/
def ShaRegs.words (r : ShaRegs) : List (BitVec 64) := [r.a, r.b, r.c, r.d, r.e, r.f, r.g, r.h]

/-- Where SHA-384 starts: the fractions of the square roots of the ninth to sixteenth primes. -/
def shaStart : ShaRegs := .ofWords (wordsOf 8
  0xcbbb9d5dc1059ed8629a292a367cd5079159015a3070dd17152fecd8f70e593967332667ffc00b318eb44a8768581511db0c2e0d64f98fa747b5481dbefa4fa4)

/-- A word rotated right by each of some counts, the results added without carry. -/
def rotSum (l : List Nat) (x : BitVec 64) : BitVec 64 := l.foldl (fun y n => y ^^^ x.rotateRight n) 0

/-- One round: the next word of the window enters the registers, and the window moves on by one word. -/
def shaRound (st : List (BitVec 64) × ShaRegs) (k : BitVec 64) : List (BitVec 64) × ShaRegs :=
  let (win, r) := st
  let w (i : Nat) : BitVec 64 := win.getD i 0
  let pick := r.g ^^^ (r.e &&& (r.f ^^^ r.g))
  let most := (r.a &&& r.b) ||| (r.c &&& (r.a ||| r.b))
  let x := k + w 0 + r.h + pick + rotSum [14, 18, 41] r.e
  let entering := w 0 + w 9 + (rotSum [1, 8] (w 1) ^^^ (w 1 >>> 7)) + (rotSum [19, 61] (w 14) ^^^ (w 14 >>> 6))
  (win.tail ++ [entering], ⟨x + most + rotSum [28, 34, 39] r.a, r.a, r.b, r.c, r.d + x, r.e, r.f, r.g⟩)

/-- A block of 128 bytes enters the registers. -/
def shaBlock (r : ShaRegs) (blk : Nat) : ShaRegs :=
  let out := (shaConsts.foldl shaRound (wordsOf 16 blk, r)).2
  .ofWords (List.zipWith (· + ·) r.words out.words)

/-- The padded blocks of a message of `n` bytes: a one, zeros, and the count of its bits in 16 bytes. -/
def shaBlocksOf (l : List Byte) : List Nat :=
  let n := l.length
  let blocks := (n + 17 + 127) / 128
  let v := (beNat l * 256 + 128) * 256 ^ (128 * blocks - n - 1) + 8 * n
  (upto blocks).map fun i => v >>> (1024 * (blocks - 1 - i))

/-- SHA-384 of a list of bytes. -/
def sha384 (l : List Byte) : List Byte :=
  (((shaBlocksOf l).foldl shaBlock shaStart).words.take 6).flatMap fun w => beBytes 8 w.toNat

/-- The field prime of P-384. -/
def pP : Nat := 2 ^ 384 - 2 ^ 128 - 2 ^ 96 + 2 ^ 32 - 1
/-- The order of P-384's base point. -/
def pN : Nat :=
  0xffffffffffffffffffffffffffffffffffffffffffffffffc7634d81f4372ddf581a0db248b0a77aecec196accc52973
/-- The curve's b. -/
def pB : Nat :=
  0xb3312fa7e23ee7e4988e056be3f82d19181d9c6efe8141120314088f5013875ac656398d8a2ed19d2a85c8edd3ec2aef
/-- The base point. -/
def pG : Nat × Nat :=
  (0xaa87ca22be8b05378eb1c71ef320ad746e1d3b628ba79b9859f741e082542a385502f25dbf55296c3a545e3872760ab7,
   0x3617de4a96262c6f5d9e98bf9292dc29f8f41dbd289a147ce9da3113b5f0b8c00a60b1ce1d7e819d7a431d7c90ea0e5f)

/-- Modular power by repeated squaring; the fuel bounds the bits of the exponent. -/
def powMod (m : Nat) : Nat → Nat → Nat → Nat
  | 0, _, _ => 1 % m
  | fuel + 1, b, e =>
    if e = 0 then 1 % m
    else
      let r := powMod m fuel (b * b % m) (e / 2)
      if e % 2 = 1 then r * b % m else r

/-- Inverse modulo a prime. -/
def invMod (m a : Nat) : Nat := powMod m 400 (a % m) (m - 2)

/-- Addition on the curve; none is the point at infinity. -/
def ecAdd : Option (Nat × Nat) → Option (Nat × Nat) → Option (Nat × Nat)
  | none, q => q
  | p, none => p
  | some (x1, y1), some (x2, y2) =>
    if x1 = x2 ∧ (y1 + y2) % pP = 0 then none
    else
      let l := if x1 = x2 then (3 * x1 * x1 + (pP - 3)) * invMod pP (2 * y1) % pP
        else (y2 + pP - y1) * invMod pP (x2 + pP - x1) % pP
      let x := (l * l + 2 * pP - x1 - x2) % pP
      some (x, (l * (x1 + pP - x) + pP - y1) % pP)

/-- Scalar multiplication; the fuel bounds the bits of the scalar. -/
def ecMul : Nat → Nat → Option (Nat × Nat) → Option (Nat × Nat)
  | 0, _, _ => none
  | fuel + 1, k, p =>
    if k = 0 then none
    else
      let r := ecMul fuel (k / 2) (ecAdd p p)
      if k % 2 = 1 then ecAdd p r else r

/-- True where the coordinates are those of a point of the curve. -/
def ecOnCurve (x y : Nat) : Bool :=
  decide (x < pP) && decide (y < pP) && decide (y * y % pP = (x * x * x + (pP - 3) * x + pB) % pP)

/-- ECDSA verification of a SHA-384 digest under public key `q` (FIPS 186-5). -/
def ecdsaOk (q : Nat × Nat) (digest : List Byte) (r sgn : Nat) : Bool :=
  if r = 0 ∨ pN ≤ r ∨ sgn = 0 ∨ pN ≤ sgn then false
  else
    let w := invMod pN sgn
    let z := beNat digest
    match ecAdd (ecMul 384 (z * w % pN) (some pG)) (ecMul 384 (r * w % pN) (some q)) with
    | none => false
    | some (x, _) => decide (x % pN = r)

/-- The unwrapping steps of RFC 5649 (RFC 3394 W⁻¹) on `n` 64-bit blocks: `t` counts down from 6n. -/
def unwrapSteps (rk : List (List Byte)) (n : Nat) : Nat → List Byte → List Byte → List Byte × List Byte
  | 0, a, r => (a, r)
  | t + 1, a, r =>
    let i := t % n
    let a' := beBytes 8 (Nat.xor (beNat a) (t + 1))
    let b := aesDec rk (a' ++ ((r.drop (8 * i)).take 8))
    unwrapSteps rk n t (b.take 8) (r.take (8 * i) ++ b.drop 8 ++ r.drop (8 * i + 8))

/-- Unwraps a string of RFC 5649 whose message is 72 bytes (R374); none where the check fails. -/
def keyUnwrap (kek : BitVec 256) (w : List Byte) : Option (List Byte) :=
  let rk := roundKeys (leBytes 32 kek.toNat)
  let (a, r) := unwrapSteps rk 9 54 (w.take 8) (w.drop 8)
  if w.length = 80 ∧ a = beBytes 8 0xA65959A600000048 then some r else none

end Sys2Proof.Machine
end

