-- ==== Sys2Proof/Machine/Dram.lean ====
section
/-! DEFINITION. DRAM lines: frames and channels (R335, R336), the line code with its injected errors (R341 to R344,
R350 to R360), free frames (R272, R273, R293) and the on-chip parity of R358 and R359. -/

namespace Sys2Proof.Machine

/-- Bits `lo` to `lo + w - 1` of a word of any width. -/
def bfGet {n : Nat} (v : BitVec n) (lo w : Nat) : Nat := bitsOf v.toNat lo w

/-- The word with those bits replaced by `x`. -/
def bfSet {n : Nat} (v : BitVec n) (lo w x : Nat) : BitVec n :=
  let m : BitVec n := BitVec.ofNat n (2 ^ w - 1)
  (v &&& ~~~(m <<< lo)) ||| ((BitVec.ofNat n x &&& m) <<< lo)

/-- A request on whose behalf memory is used: what its fault records name. -/
structure Who where
  txid : Nat
  tenant : Option Nat
  pa : Nat
  deriving DecidableEq, Repr

/-- No request. -/
def nobody : Who := ⟨0, none, 0⟩

/-- The occurrence of a cause about a PA, for a request. -/
def Who.occ (w : Who) (block code : Nat) : Occ := ⟨block, code, false, w.txid, w.tenant, w.pa, 1⟩

/-- True where channel `c` is trained and in service. -/
def State.chReady (s : State) (c : Nat) : Bool := s.bit (F.MEM_STS_READY c)

/-- The channel of a frame (R336). -/
def frameChan (f : Nat) : Nat := f % 24

/-- The die of a channel (R336). -/
def chanDie (c : Nat) : Nat := if c < 12 then 0 else 1

/-- The die of a frame. -/
def frameDie (f : Nat) : Nat := chanDie (frameChan f)

/-- The channel group of a frame (R336). -/
def frameGroup (f : Nat) : Nat := frameChan f / 4

/-- The rank of a frame (R336). -/
def State.frameRank (s : State) (f : Nat) : Nat :=
  let c := frameChan f
  let r := max 1 (s.fld (F.MEM_CFG_RANKS c))
  let q := f / 24 / max 1 (s.fld (F.MEM_CFG_CAPGIB c) * 2 ^ 18 / r)
  2 * (q / r) + q % r

/-- The device position class of a line: rank and subchannel (R357). -/
def State.rankSub (s : State) (f line : Nat) : Nat := 2 * s.frameRank f + line % 2

/-- The location of a line as ECC_UELOG0 [45:0] lays it out (R437). -/
def State.location (s : State) (f line : Nat) : Nat :=
  frameChan f + 2 ^ 5 * s.frameRank f + 2 ^ 7 * (line % 2) + 2 ^ 8 * f + 2 ^ 40 * line

/-- The occurrence of a cause about a line: its PA where a request names it, otherwise its location. -/
def State.lineOcc (s : State) (w : Who) (block code f line : Nat) : Occ :=
  if w.pa = 0 then occObj block code 4 (s.location f line) else w.occ block code

/-- The nibbles of device `d` in a codeword (R341). -/
def deviceMask (d : Nat) : BitVec 640 :=
  BitVec.ofNat 640 (((upto 16).map fun b => 15 * 2 ^ (8 * (5 * b + d / 2) + 4 * (d % 2))).sum)

/-- The devices in which an error pattern has bits. -/
def errDevices (e : BitVec 640) : List Nat := (upto 10).filter fun d => e &&& deviceMask d != 0

/-- The retired device of a rank and subchannel, if any (R357). -/
def State.retired (s : State) (c k : Nat) : Option Nat :=
  let r := s.reg (F.MEM_RETIRE c).key
  if bfGet r (5 * k + 4) 1 = 1 then some (bfGet r (5 * k) 4) else none

/-- The key of a device's correctable count. -/
def devKey (c k d : Nat) : Nat := (c * 8 + k) * 16 + d

/-- Adds one correctable error to a device's count and retires the device at the threshold (R355). -/
def State.countDevice (s : State) (f line d : Nat) : State :=
  let c := frameChan f
  let k := s.rankSub f line
  let n := min 63 ((tget s.mem.devCnt (devKey c k d)).getD 0 + 1)
  let s := { s with mem.devCnt := tput s.mem.devCnt (devKey c k d) n }
  if s.bit F.ECC_RETIRE_EN ∧ s.fld F.ECC_RETIRE_THRESH ≤ n ∧ s.retired c k = none then
    let r := s.reg (F.MEM_RETIRE c).key
    (s.setReg (F.MEM_RETIRE c).key (bfSet (bfSet r (5 * k) 4 d) (5 * k + 4) 1 1)).record
      (occObj (bMEM c) Cause.mem_DEV_RETIRE 4 (s.location f line))
  else s

/-- The 80-byte flip mask of a channel (R360). -/
def State.flipMask (s : State) (c : Nat) : BitVec 640 :=
  BitVec.ofNat 640 (((upto 10).map fun r => (s.reg (F.MEM_FLIPMASK c r).key).toNat * 2 ^ (64 * r)).sum)

/-- Writes a codeword: an armed flip mask that qualifies is XORed into it and disarms (R360). -/
def State.storeLine (s : State) (f line : Nat) (d : Line) : State :=
  let c := frameChan f
  let key := f * 64 + line
  let hit := s.bit (F.MEM_FLIPCTL_ARM c) && (!s.bit (F.MEM_FLIPCTL_MATCH c)
    || (decide (s.fld (F.MEM_FLIPCTL_FRAME c) = f) && decide (s.fld (F.MEM_FLIPCTL_LINE c) = line)))
  let err := if hit then s.flipMask c else 0
  let s := if hit then s.setFld (F.MEM_FLIPCTL_ARM c) 0 else s
  { s with mem.dram := sput (fun _ => 0) s.mem.dram key d, mem.dramErr := sput (fun _ => 0) s.mem.dramErr key err
           mem.dramAt := tdel s.mem.dramAt key }

/-- KIND of ECC_UELOG0: errors in two or more devices, or a codeword of another address (R342). -/
def ueDEVICES : Nat := 0
def ueADDRESS : Nat := 1

/-- Fills ECC_UELOG0 and ECC_UELOG1 and counts the uncorrectable read. -/
def State.logUe (s : State) (f line source kind : Nat) : State :=
  let s := s.setReg F.ECC_UELOG0.key (BitVec.ofNat 64 (s.location f line + 2 ^ 46 * kind + 2 ^ 48 * source))
  (s.setReg F.ECC_UELOG1.key (BitVec.ofNat 64 s.now)).incFld (F.MEM_ERRCNT_UE (frameChan f))

/-- SOURCE codes of ECC_UELOG0. -/
def srcDemand : Nat := 0
def srcRmw : Nat := 1
def srcPatrol : Nat := 2
def srcMigration : Nat := 3
def srcLender : Nat := 4
def srcReplica : Nat := 5
def srcRegion : Nat := 6

/-- The fault cause of an uncorrectable read by its source (R352); a reserved region's cause is its own. -/
def State.recordUe (s : State) (w : Who) (f line source : Nat) : State :=
  if source = srcRmw then s.record (s.lineOcc w (bMEM (frameChan f)) Cause.mem_UE_MERGE f line)
  else if source = srcPatrol then s.record (occObj bECC Cause.ecc_PATROL_UE 4 (s.location f line))
  else if source = srcRegion then s
  else s.record (s.lineOcc w (bMEM (frameChan f)) Cause.mem_UE_READ f line)

/-- Checks a returned codeword with error pattern `err` and its data as written: the line code corrects one device,
none beside a retired one (R342, R356). A corrected codeword is written back (R350). -/
def State.checkLine (s : State) (w : Who) (f line source : Nat) (d : Line) (err : BitVec 640) : State × RawRead :=
  let c := frameChan f
  let k := s.rankSub f line
  let ret := s.retired c k
  let devs := (errDevices err).filter fun x => ret != some x
  let bad : State × RawRead := ((s.logUe f line source ueDEVICES).recordUe w f line source, .bad)
  match devs with
  | [] => (s, .line d false)
  | [x] =>
    if ret.isSome then bad
    else
      let s := (s.incFld (F.MEM_ERRCNT_CE c)).record (s.lineOcc w (bMEM c) Cause.mem_CE f line)
      let s := ((s.countDevice f line x).storeLine f line d).incFld F.ECC_SCRUBSTS_REWRITES
      (s.count (8 + c / 4) 7 1 none, .line d true)
  | _ => bad

/-- The codeword at an address was made for another address (R342). -/
def State.misplaced (s : State) (key : Nat) : Bool :=
  match tget s.mem.dramAt key with
  | some k => decide (k ≠ key)
  | none => false

/-- A command on a channel whose command/address parity is wrong is retried: cause 0x07, and MEM_ERRCNT.CAPAR counts it
(spec/10; no command of the model sets `caBad`, log 54). -/
def State.caCheck (s : State) (c : Nat) : State :=
  if s.mem.caBad.contains c then
    (({ s with mem.caBad := s.mem.caBad.filter (· ≠ c) } : State).incFld (F.MEM_ERRCNT_CAPAR c)).record (occ (bMEM c) Cause.mem_CA_PARITY)
  else s

/-- Reads a stored line through the line code (R342, R350, R352). -/
def State.readRaw (s : State) (w : Who) (f line source : Nat) : State × RawRead :=
  let c := frameChan f
  if !s.chReady c then (s, .halted)
  else
    let s := (s.caCheck c).count (8 + c / 4) 1 1 w.tenant
    let (bad, s) := s.takePflip 1 0 c
    let s := if bad then s.record (s.lineOcc w (bMEM c) Cause.mem_RQ_PARITY f line) else s
    let key := f * 64 + line
    if s.misplaced key then ((s.logUe f line source ueADDRESS).recordUe w f line source, .bad)
    else s.checkLine w f line source (sget (fun _ => 0) s.mem.dram key) (sget (fun _ => 0) s.mem.dramErr key)

/-- Writes a line (R343). Answers false where the write is lost: its channel is out of service, or its write-queue
entry failed parity (R353, R354). -/
def State.writeRaw (s : State) (w : Who) (f line : Nat) (d : Line) : State × Bool :=
  let c := frameChan f
  if !s.chReady c then (s, false)
  else
    let s := (s.caCheck c).count (8 + c / 4) 2 1 w.tenant
    let (bad, s) := s.takePflip 2 0 c
    if bad then (s.record (s.lineOcc w (bMEM c) Cause.mem_WQ_PARITY f line), false)
    else (s.storeLine f line d, true)

/-- GiB of DIMM that start found on channel `c`. -/
def State.chanGib (s : State) (c : Nat) : Nat := s.fld (F.MEM_CFG_DPC c) * s.fld (F.MEM_CFG_CAPGIB c)

/-- Raw capacity in bytes (R335). -/
def State.rawBytes (s : State) : Nat := ((upto 24).map s.chanGib).sum * 2 ^ 30

/-- Frames of one channel. -/
def State.chanFrames (s : State) (c : Nat) : Nat := s.chanGib c * 2 ^ 18

/-- The number N of home slots (R49). -/
def State.slotCount (s : State) : Nat := min (2 * s.rawBytes / 2 ^ 21) 12582912

/-- Bytes of the translation region (R50, R544). -/
def State.etrBytes (s : State) : Nat := 2 ^ 28 * (s.fld F.TRN_CFG_ETR_APPLIED + 1)

/-- Bytes of the reserved regions: tier map (R38), tier engine region (R272), translation region (R50), key store
(R376), ledger with checkpoints (R409), dump region (R423) and DRAIN save area (R463). -/
def State.reservedBytes (s : State) : Nat :=
  s.rawBytes / 64 + s.rawBytes / 256 + s.etrBytes + 327680 + 2 ^ 28 + 2 ^ 19 + 2 ^ 26 + 2 ^ 28

/-- The reserved regions whose entries an uncorrectable line loses. -/
inductive Region where
  | tierMap | frameTable | ageTable | translation | keyStore | ledger | checkpoints | other
  deriving DecidableEq, Repr

/-- The regions in the order of the reserved space, each with its bytes: the tier map, directly after it the tier engine
region with its two tables, and the others (R38, R50, R272, R376, R409). -/
def State.regionSizes (s : State) : List (Region × Nat) :=
  [(.tierMap, s.rawBytes / 64), (.frameTable, s.rawBytes / 512), (.ageTable, s.rawBytes / 512), (.translation, s.etrBytes),
    (.keyStore, 327680), (.ledger, 2 ^ 28), (.checkpoints, 2 ^ 19)]

/-- The region at a byte of the reserved space, and the byte within it. -/
def regionAt : List (Region × Nat) → Nat → Region × Nat
  | [], i => (.other, i)
  | (r, n) :: l, i => if i < n then (r, i) else regionAt l (i - n)

/-- Where a region begins in the reserved space. -/
def regionStart (r : Region) : List (Region × Nat) → Nat
  | [] => 0
  | (q, n) :: l => if q = r then 0 else n + regionStart r l

/-- Byte `i` of a region stands on a channel in service; which frame holds a line of the reserved space is the free value
Config.regionFrame (R337; log 15). -/
def State.regionUp (s : State) (r : Region) (i : Nat) : Bool :=
  s.chReady (frameChan (Config.regionFrame ((regionStart r s.regionSizes + i) / 64)))

/-- Channels in service. -/
def State.channelsUp (s : State) : Nat := countIf (upto 24) s.chReady

/-- Lays the reserved regions out, once at a start: half on each die, evenly over its channels in service, on the lowest
frames of each (R335, R337). A channel that halts later changes nothing. -/
def State.layOut (s : State) : State :=
  let frames := (s.reservedBytes + 4095) / 4096
  let up (die : Nat) : Nat := countIf (upto 24) fun c => s.chReady c && decide (chanDie c = die)
  let share (c : Nat) : Nat :=
    let n := up (chanDie c)
    if s.chReady c then ((frames + 1) / 2 + n - 1) / n else 0
  { s with mem.layout := (upto 24).map share }

/-- Channel-local frames that the reserved regions take on a channel. -/
def State.reservedLocal (s : State) (c : Nat) : Nat := s.mem.layout.getD c 0

/-- What they take on each channel of a die that holds some: one number, as they are laid out. -/
def State.reservedDie (s : State) (die : Nat) : Nat :=
  ((((upto 24).filter fun c => chanDie c = die).map s.reservedLocal).find? (· ≠ 0)).getD 0

/-- The most that they take on any channel. -/
def State.reservedTop (s : State) : Nat := max (s.reservedDie 0) (s.reservedDie 1)

/-- True where a frame belongs to tenant capacity (R273). -/
def State.tenantFrame (s : State) (f : Nat) : Bool :=
  let c := frameChan f
  s.chReady c && decide (s.reservedLocal c ≤ f / 24) && decide (f / 24 < s.chanFrames c)

/-- Tenant frames of a die. -/
def State.dieFrames (s : State) (die : Nat) : Nat :=
  ((upto 24).map fun c => if chanDie c = die ∧ s.chReady c then s.chanFrames c - s.reservedLocal c else 0).sum

/-- A frame-table entry (R272). -/
def State.ftabAt (s : State) (f : Nat) : Word := sget (fun _ => 0) s.mem.ftab f

/-- Writes a frame-table entry. -/
def State.setFtab (s : State) (f : Nat) (v : Word) : State := { s with mem.ftab := sput (fun _ => 0) s.mem.ftab f v }

/-- STATE values of a frame-table entry. -/
def fFREE : Nat := 0
def fHOT : Nat := 1
def fBIN : Nat := 2
def fLENT : Nat := 3

/-- A frame-table entry of a state, with its granule map and borrower. -/
def ftabWord (st gmap borrower : Nat) : Word := BitVec.ofNat 64 (st + 4 * gmap + 2 ^ 18 * borrower)

/-- True where the tier engine may allocate the frame (R273). -/
def State.allocatable (s : State) (f : Nat) : Bool :=
  s.tenantFrame f && decide (bfGet (s.ftabAt f) 0 2 = fFREE) && decide (bfGet (s.ftabAt f) 30 1 = 0)

/-- Free frames of a die (TIER_DIEd.FREE). -/
def State.freeFrames (s : State) (die : Nat) : Nat :=
  s.dieFrames die - countIf s.mem.ftab fun e =>
    s.tenantFrame e.1 && decide (frameDie e.1 = die) && (decide (bfGet e.2 0 2 ≠ fFREE) || decide (bfGet e.2 30 1 = 1))

/-- Bin frames of a die (TIER_DIEd.BINS). -/
def State.binFrames (s : State) (die : Nat) : Nat :=
  countIf s.mem.ftab fun e => decide (frameDie e.1 = die) && decide (bfGet e.2 0 2 = fBIN)

/-- The LOW level of a die (R293). -/
def State.lowLevel (s : State) (die : Nat) : Nat :=
  s.fld F.TIER_RESV_LOW_PM * s.dieFrames die / 1000 + s.fld F.TIER_RESV_MOVE

/-- The first allocatable frame of a die at or after `f`; the fuel bounds the frames tried. -/
def State.searchFrame (s : State) (die : Nat) : Nat → Nat → Option Nat
  | 0, _ => none
  | fuel + 1, f => if frameDie f = die ∧ s.allocatable f then some f else s.searchFrame die fuel (f + 1)

/-- The frame that the free queue of a die gives next: any free frame may be next, so the choice is the free value
Config.framePick where that names one, otherwise the lowest (R273). -/
def State.pickFrame (s : State) (die : Nat) : Option Nat :=
  let p := Config.framePick s.free
  if frameDie p = die ∧ s.allocatable p then some p
  else s.searchFrame die (24 * (s.mem.ftab.length + 2)) (24 * s.reservedDie die)

/-- Records FREE_LOW once per crossing of a die's LOW level, and turns pressure demotion on and off (R293). -/
def State.watchFree (s : State) (die : Nat) : State :=
  let free := s.freeFrames die
  let low := s.lowLevel die
  let was := if die = 0 then s.mem.lowCrossed0 else s.mem.lowCrossed1
  let below := decide (free < low)
  let s := if below ∧ !was then s.record (occ bTIER Cause.tier_FREE_LOW) else s
  let p := if die = 0 then s.mem.pressure0 else s.mem.pressure1
  let p' := if below then true else if 2 * low ≤ free then false else p
  if die = 0 then { s with mem.lowCrossed0 := below, mem.pressure0 := p' }
  else { s with mem.lowCrossed1 := below, mem.pressure1 := p' }

/-- Takes a free frame of a die into a state. -/
def State.takeFrame (s : State) (die st gmap : Nat) : Option (Nat × State) :=
  (s.pickFrame die).map fun f =>
    (f, ({ s with free := s.free + 1 }.setFtab f (ftabWord st gmap 0)).watchFree die)

/-- Returns a frame to the free pool. -/
def State.freeFrame (s : State) (f : Nat) : State :=
  (s.setFtab f (bfSet (s.ftabAt f) 0 30 0)).watchFree (frameDie f)

/-- A register after the zeroisation of class K: XTS_TSTATE[t].DUE is 0 (R11, R391). -/
def zeroDue (e : Nat × Word) : Nat × Word :=
  if (F.XTS_TSTATE_DUE 0).key ≤ e.1 ∧ e.1 ≤ (F.XTS_TSTATE_DUE 4095).key then (e.1, (F.XTS_TSTATE_DUE 0).into e.2 0) else e

/-- Every stored register after the zeroisation of class K, in canonical form. -/
def State.zeroDues (s : State) : State :=
  { s with regs := (s.regs.filter fun e => (zeroDue e).2 != regReset e.1).map zeroDue }

/-- Enters LOCK (R391, R445): keys, key-encryption key, every store of plaintext, the key store and the translation
region are overwritten with zeros, the last two where their channels are in service, and every register field of class K with
them (R11). -/
def State.enterLock (s : State) : State :=
  { s with
    locked := true
    mem.keys := []
    mem.kek := none
    regs := (s.setFld F.XTS_STS_KEKV 0 |>.setFld F.XTS_STS_KEKID 0).zeroDues.regs
    mem.merge := []
    mem.scache := []
    mem.keyStore := s.mem.keyStore.filter fun e => !s.regionUp .keyStore (80 * e.1)
    mem.etr := s.mem.etr.filter fun e => !s.regionUp .translation (8 * e.1)
    mem.migs := []
    link.conns := s.link.conns.map fun e => (e.1, { e.2 with replay := [] }) }

/-- The PTP minute (R381). -/
def State.minute (s : State) : Nat := s.now / 60000000000

/-- The alarm window rolls over to the current PTP minute (R381). -/
def State.rollAlarm (s : State) : State :=
  if s.mem.alarmWin = s.minute then s
  else
    let last := if s.minute = s.mem.alarmWin + 1 then s.fld F.XTS_ALARM_WINDOW else 0
    ({ s with mem.alarmWin := s.minute }.setFld F.XTS_ALARM_LAST last).setFld F.XTS_ALARM_WINDOW 0

/-- Counts a security alarm in the current PTP minute; at the limit the module enters LOCK (R380, R381). -/
def State.alarm (s : State) : State :=
  let s := s.rollAlarm
  let n := s.fld F.XTS_ALARM_WINDOW + 1
  let s := (s.satFld F.XTS_ALARM_WINDOW 1).incFld F.XTS_ALARM_TOTAL
  if s.bit F.XTS_CFG_LOCKEN ∧ s.fld F.XTS_CFG_ALARM_LIMIT ≤ n ∧ !s.locked then
    (s.record (occ bXTS Cause.xts_ALARM_LOCK)).enterLock
  else s

end Sys2Proof.Machine
end

