-- ==== Sys2Proof/Machine/Bin.lean ====
section
/-! DEFINITION. Bins: frames that hold warm pages by granules of 256 bytes (R281, R289, R344). -/

namespace Sys2Proof.Machine

/-- Granules that a run of units takes. -/
def granules (units : Nat) : Nat := (units + 3) / 4

/-- A mask of `n` granules from `g` on. -/
def granMask (g n : Nat) : Nat := (2 ^ n - 1) * 2 ^ g

/-- The lowest run of `n` free granules of a map, if any. -/
def freeRun (gmap n : Nat) : Option Nat :=
  firstIdx 16 fun g => decide (g + n ≤ 16) && decide (gmap &&& granMask g n = 0)

/-- The granule map of a bin. -/
def State.gmapOf (s : State) (f : Nat) : Nat := bfGet (s.ftabAt f) 2 16

/-- Writes a bin's granule map; a bin with none in use returns to the free pool (R289). -/
def State.setGmap (s : State) (f g : Nat) : State :=
  if g = 0 then { s with mem.openBins := s.mem.openBins.filter (· ≠ f) }.freeFrame f
  else
    let s := s.setFtab f (bfSet (s.ftabAt f) 2 16 g)
    let die := frameDie f
    let list := g ≠ 0xFFFF ∧ !s.mem.openBins.contains f ∧ countIf s.mem.openBins (fun x => frameDie x = die) < 64
    if g = 0xFFFF then { s with mem.openBins := s.mem.openBins.filter (· ≠ f) }
    else if list then { s with mem.openBins := s.mem.openBins ++ [f] }
    else s

/-- Releases `n` granules of a bin from `g` on. -/
def State.freeGranules (s : State) (bin g n : Nat) : State :=
  if n = 0 then s else s.setGmap bin (s.gmapOf bin &&& (0xFFFF ^^^ granMask g n))

/-- Writes zeros to every line of a new frame, so that it has a valid line code (R344). -/
def State.zeroFrame (s : State) (w : Who) (f : Nat) : State := (upto 64).foldl (fun s i => (s.writeRaw w f i 0).1) s

/-- Takes a run of granules on a die by first fit from the open bins, or from a new bin (R289). -/
def State.takeRun (s : State) (die n : Nat) : Option (Nat × Nat × State) :=
  let fit (f : Nat) : Option (Nat × Nat) := (freeRun (s.gmapOf f) n).map fun g => (f, g)
  match ((s.mem.openBins.filter fun f => frameDie f = die).filterMap fit).head? with
  | some (f, g) => some (f, g, s.setGmap f (s.gmapOf f ||| granMask g n))
  | none =>
    (s.takeFrame die fBIN (granMask 0 n)).map fun p =>
      (p.1, 0, (p.2.zeroFrame nobody p.1).setGmap p.1 (granMask 0 n))

end Sys2Proof.Machine
end

