-- ==== Sys2Proof/Machine/Cmp.lean ====
section
/-! DEFINITION. The compressed segment format and its engines (R305 to R329). -/

namespace Sys2Proof.Machine

/-- Segment types (R306). -/
def tZERO : Nat := 0
def tPATTERN : Nat := 1
def tLZ : Nat := 2
def tRAW : Nat := 3

/-- What a decoding answers: the fault code of R316 or 0, INPOS, OUTCNT, the output and the tokens decoded. -/
structure DecRes where
  code : Nat
  inPos : Nat
  outCnt : Nat
  out : List Byte
  tokens : Nat
  deriving DecidableEq, Repr

/-- Copies `n` bytes from `d` back in the reversed output (R312). -/
def lzCopy (d : Nat) : Nat → List Byte → List Byte
  | 0, out => out
  | n + 1, out => lzCopy d n (byteAt out (d - 1) :: out)

/-- The decoding of R313: `ctl` holds the flags still to be used with their number, `out` the reversed output. -/
def lzLoop : Nat → List Byte → Nat → Nat × Nat → List Byte → Nat → Nat → DecRes
  | 0, _, pos, _, out, n, tok => ⟨4, pos, n, out.reverse, tok⟩
  | fuel + 1, body, pos, (ctl, left), out, n, tok =>
    match body with
    | [] => if n < 1024 then ⟨4, pos, n, out.reverse, tok⟩ else ⟨0, pos, n, out.reverse, tok⟩
    | x :: rest =>
      if left = 0 then
        if rest = [] then ⟨4, pos + 1, n, out.reverse, tok⟩
        else lzLoop fuel rest (pos + 1) (x.toNat, 8) out n tok
      else if ctl % 2 = 0 then
        if n = 1024 then ⟨3, pos, n, out.reverse, tok⟩
        else lzLoop fuel rest (pos + 1) (ctl / 2, left - 1) (x :: out) (n + 1) (tok + 1)
      else
        match rest with
        | [] => ⟨4, pos, n, out.reverse, tok⟩
        | y :: rest =>
          let m := x.toNat + 256 * y.toNat
          let d := m % 1024
          let len := m / 1024 + 3
          if d = 0 then ⟨1, pos, n, out.reverse, tok⟩
          else if n < d then ⟨2, pos, n, out.reverse, tok⟩
          else if 1024 < n + len then ⟨3, pos, n, out.reverse, tok⟩
          else lzLoop fuel rest (pos + 2) (ctl / 2, left - 1) (lzCopy d len out) (n + len) (tok + 1)

/-- Decodes an LZ body (R313). -/
def lzDecode (body : List Byte) : DecRes := lzLoop (2 * body.length + 2) body 0 (0, 0) [] 0 0

/-- The output of a PATTERN body (R306). -/
def patternOut (body : List Byte) : List Byte := (upto 1024).map fun i => byteAt body (i % 8)

/-- Expands a body of a type and checks it against CHK (R306, R308, R313, R314). -/
def expandBody (type : Nat) (body : List Byte) (chk : Nat) : DecRes :=
  if type = tZERO then ⟨0, 0, 1024, List.replicate 1024 0, 0⟩
  else
    let r := if type = tPATTERN then ⟨0, body.length, 1024, patternOut body, 0⟩
      else if type = tRAW then ⟨0, body.length, 1024, body, 0⟩
      else lzDecode body
    if r.code ≠ 0 then r
    else if (crc32c r.out).toNat ≠ chk then { r with code := 5, inPos := body.length, outCnt := 1024 } else r

/-- Byte `i` of a segment held as one number. -/
def segByte (v : Nat) (i : Nat) : Nat := bitsOf v (8 * i) 8

/-- The hash of the three bytes at a position (R323). -/
def segHash (v pos : Nat) : BitVec 12 := Config.hash3 (BitVec.ofNat 24 (bitsOf v (8 * pos) 24))

/-- Length of the match at `pos` with distance `d`, up to the fuel and the end of the segment. -/
def matchLen (v pos d : Nat) : Nat → Nat → Nat
  | 0, n => n
  | fuel + 1, n =>
    if pos + n < 1024 ∧ segByte v (pos + n) = segByte v (pos + n - d) then matchLen v pos d fuel (n + 1) else n

/-- The longest match among the four nearest candidates that the hash gives, the nearest on a tie (R323). -/
def bestMatch (v pos : Nat) : Nat × Nat :=
  if 1024 < pos + 3 then (0, 0)
  else
    let cands := ((List.range (min pos 1023)).map (· + 1)).filter fun d => segHash v (pos - d) = segHash v pos
    (cands.take 4).foldl (fun b d => let l := matchLen v pos d 66 0; if b.2 < l then (d, l) else b) (0, 0)

/-- A token: a literal byte, or a match of distance and length. -/
inductive LzTok where
  | lit (b : Nat)
  | mat (d n : Nat)
  deriving DecidableEq, Repr

/-- The greedy tokens of a segment from a position on (R323); the fuel bounds the tokens. -/
def greedy (v : Nat) : Nat → Nat → List LzTok
  | 0, _ => []
  | fuel + 1, pos =>
    if 1024 ≤ pos then []
    else
      let (d, n) := bestMatch v pos
      if 3 ≤ n then .mat d n :: greedy v fuel (pos + n) else .lit (segByte v pos) :: greedy v fuel (pos + 1)

/-- The bytes of a token (R311). -/
def LzTok.bytes : LzTok → List Byte
  | .lit b => [BitVec.ofNat 8 b]
  | .mat d n => leBytes 2 (d + 1024 * (n - 3))

/-- True of a match token. -/
def LzTok.isMat : LzTok → Bool
  | .lit _ => false
  | .mat _ _ => true

/-- Groups of eight tokens, each after its control byte (R312); the fuel bounds the groups. -/
def lzGroups : Nat → List LzTok → List Byte
  | 0, _ => []
  | fuel + 1, l =>
    if l.isEmpty then []
    else
      let g := l.take 8
      let flags := ((g.zipIdx.map fun p => if p.1.isMat then 2 ^ p.2 else 0)).sum
      BitVec.ofNat 8 flags :: g.flatMap LzTok.bytes ++ lzGroups fuel (l.drop 8)

/-- A compressed segment: type, length, check value and body; `verify` where the self-check failed (R325). -/
structure Packed where
  type : Nat
  len : Nat
  chk : Nat
  body : List Byte
  verify : Bool
  deriving DecidableEq, Repr

/-- Compresses a segment (R323, R325). -/
def compress (v : BitVec 8192) : Packed :=
  let bytes := leBytes 1024 v.toNat
  let chk := (crc32c bytes).toNat
  if v = 0 then ⟨tZERO, 0, 0, [], false⟩
  else if patternOut (bytes.take 8) = bytes then ⟨tPATTERN, 8, chk, bytes.take 8, false⟩
  else
    let body := lzGroups 129 (greedy v.toNat 1024 0)
    if body.length ≤ 960 then
      if (expandBody tLZ body chk).code = 0 ∧ (lzDecode body).out = bytes then ⟨tLZ, body.length, chk, body, false⟩
      else ⟨tRAW, 1024, chk, bytes, true⟩
    else ⟨tRAW, 1024, chk, bytes, false⟩

/-- Units that a body takes (R309). -/
def bodyUnits (len : Nat) : Nat := (len + 63) / 64

/-- Engines in service on a die: decompressors. -/
def State.decUp (s : State) (die : Nat) : Nat :=
  if die = 0 then s.fld F.CMP_ENGSTS_DEC0 else s.fld F.CMP_ENGSTS_DEC1

/-- Engines in service on a die: compressors. -/
def State.compUp (s : State) (die : Nat) : Nat :=
  if die = 0 then s.fld F.CMP_ENGSTS_COMP0 else s.fld F.CMP_ENGSTS_COMP1

/-- The set bits of a number below `n`. -/
def setBits (v n : Nat) : List Nat := (upto n).filter fun i => bitsOf v i 1 = 1

/-- The engines of a die and kind (0 decompressors, 1 compressors) that are in service. -/
def State.enginesUp (s : State) (die kind : Nat) : List Nat :=
  setBits (if kind = 0 then s.decUp die else s.compUp die) 8

/-- One of some engines: any that is free may run the next segment (R327), so the free value Config.enginePick says. -/
def State.pickEngine (s : State) (l : List Nat) : Nat × State :=
  (l.getD (Config.enginePick s.free % max 1 l.length) 0, { s with free := s.free + 1 })

/-- A segment on this engine meets a parity error: a flip is armed there, which it uses up, or the engine's parity fails
on every run (R328). -/
def State.engineFails (s : State) (die kind e : Nat) : Bool × State :=
  if s.bit F.CMP_PFLIP_ARM ∧ s.fld F.CMP_PFLIP_DIE = die ∧ s.fld F.CMP_PFLIP_KIND = kind
      ∧ s.fld F.CMP_PFLIP_ENGINE = e then (true, s.setFld F.CMP_PFLIP_ARM 0)
  else (s.mem.engBad.contains (die * 16 + kind * 8 + e), s)

/-- Runs one segment on some engine in service; a parity error aborts the run, which is repeated on another engine (R328).
Answers false where the second run failed too, or no other engine is in service (log 185, DEDUCED). -/
def State.runEngine (s : State) (die kind : Nat) (w : Who) : State × Bool :=
  let up := s.enginesUp die kind
  let (e, s) := s.pickEngine up
  match s.engineFails die kind e with
  | (false, s) => (s, true)
  | (true, s) =>
    let s := (s.incFld F.CMP_DFLTCNT1_EPAR).record (w.occ bCMP Cause.cmp_ENGINE_PARITY)
    let rest := up.filter (· ≠ e)
    let (e2, s) := s.pickEngine rest
    if rest.isEmpty then (s.record (w.occ bCMP Cause.cmp_ENGINE_PARITY2), false)
    else
      match s.engineFails die kind e2 with
      | (false, s) => (s, true)
      | (true, s) => ((s.incFld F.CMP_DFLTCNT1_EPAR).record (w.occ bCMP Cause.cmp_ENGINE_PARITY2), false)

/-- Compresses a segment on an engine of a die and counts it; none where no compressor can run it (R328, R329). -/
def State.compressOn (s : State) (die : Nat) (w : Who) (v : BitVec 8192) : State × Option Packed :=
  if s.compUp die = 0 then (s, none)
  else
    match s.runEngine die 1 w with
    | (s, false) => (s, none)
    | (s, true) =>
      let p := compress v
      let s := s.count 16 2 1 w.tenant
      let s := if p.verify then (s.incFld F.CMP_DFLTCNT1_VERIFY).record (w.occ bCMP Cause.cmp_VERIFY) else s
      (s, some p)

/-- Counts a segment that is stored (CMP_TYPECNT, CMP_BYTECNT). -/
def State.countStored (s : State) (p : Packed) : State :=
  let f := if p.type = tZERO then F.CMP_TYPECNT_ZERO else if p.type = tPATTERN then F.CMP_TYPECNT_PATTERN
    else if p.type = tLZ then F.CMP_TYPECNT_LZ else F.CMP_TYPECNT_RAW
  ((s.incFld f).incFld F.CMP_BYTECNT_ORIG).addFld F.CMP_BYTECNT_STORED (bodyUnits p.len)

end Sys2Proof.Machine
end

