-- ==== Sys2Proof/Machine/Page.lean ====
section
/-! DEFINITION. Pages: page descriptors, keys, the segment cache, merge buffers, and reading and writing a line of a
page at its home (R46 to R66, R285 to R292, R309 to R321, R345 to R348, R366 to R379, R545). -/

namespace Sys2Proof.Machine

/-- Tiers (page descriptor). -/
def tierZERO : Nat := 0
def tierHOT : Nat := 1
def tierWARM : Nat := 2
def tierREMOTE : Nat := 3

/-- Fields of a page descriptor. -/
def dTier (d : BitVec 256) : Nat := bfGet d 0 2
def dKsel (d : BitVec 256) : Bool := d.getLsbD 2
def dRepl (d : BitVec 256) : Bool := d.getLsbD 3
def dOwner (d : BitVec 256) : Nat := bfGet d 4 12
def dGen (d : BitVec 256) : Nat := bfGet d 16 16
def dHeat (d : BitVec 256) : Nat := bfGet d 32 8
def dFrame (d : BitVec 256) : Nat := bfGet d 40 32
def dPoison (d : BitVec 256) : BitVec 64 := BitVec.ofNat 64 (bfGet d 72 64)
def dLender (d : BitVec 256) : Nat := bfGet d 144 12
def dChk (d : BitVec 256) (k : Nat) : Nat := bfGet d (72 + 32 * k) 32
def dLen (d : BitVec 256) (k : Nat) : Nat := bfGet d (200 + 11 * k) 11
def dType (d : BitVec 256) (k : Nat) : Nat := bfGet d (244 + 2 * k) 2
def dBinoff (d : BitVec 256) : Nat := bfGet d 252 4

/-- A page's descriptor (R49). -/
def State.desc (s : State) (pk : Nat) : BitVec 256 := sget (fun _ => 0) s.mem.tmap pk

/-- Writes a descriptor; the write repairs one whose read was uncorrectable. -/
def State.setDesc (s : State) (pk : Nat) (d : BitVec 256) : State :=
  { s with mem.tmap := sput (fun _ => 0) s.mem.tmap pk d }

/-- The start unit of segment `k` in its bin (R62). -/
def segStart (d : BitVec 256) (k : Nat) : Nat :=
  4 * dBinoff d + ((upto k).map fun i => bodyUnits (dLen d i)).sum

/-- Units of a warm page. -/
def pageUnits (d : BitVec 256) : Nat := ((upto 4).map fun i => bodyUnits (dLen d i)).sum

/-- A descriptor whose encoding is not allowed (R64, R307). -/
def descBad (d : BitVec 256) : Bool :=
  let t := dTier d
  (dRepl d && decide (t ≠ tierHOT))
    || (decide (t = tierWARM) && (decide (64 < segStart d 4) || (upto 4).any fun k =>
        (decide (dType d k = tPATTERN) && decide (dLen d k ≠ 8))
        || (decide (dType d k = tLZ) && (decide (dLen d k = 0) || decide (960 < dLen d k)))
        || (decide (dType d k = tRAW) && decide (dLen d k ≠ 1024))))
    || ((decide (t = tierHOT) || decide (t = tierREMOTE)) &&
        (decide (bfGet d 136 8 ≠ 0) || decide (bfGet d 156 100 ≠ 0) || (decide (t = tierHOT) && decide (dLender d ≠ 0))))

/-- The die of a home slot: slots of one parity live on one die (R203). -/
def slotDie (slot : Nat) : Nat := slot % 2

/-- The die of a page by its index. -/
def pageDie (pk : Nat) : Nat := slotDie (pk / 512)

/-- The page's 4 KiB address. -/
def pageOf (pa : Nat) : Nat := pa / 4096 * 4096

/-- The line of a page that an address names. -/
def lineOf (pa : Nat) : Nat := pa / 64 % 64

/-- The page index of an address in a slot. -/
def pageIdx (slot pa : Nat) : Nat := 512 * slot + pa / 4096 % 512

/-- The home slot that holds an address's extent, if any (R50). -/
def State.slotHolding (s : State) (pa : Nat) : Option Nat :=
  (s.mem.etr.find? fun e => decide (e.1 < s.slotCount) && e.2.getLsbD 0 && decide (bfGet e.2 32 31 = pa / 2 ^ 21)).map
    (·.1)

/-- The tenant that owns the page of a PA at this home, if an extent holds it. -/
def State.paOwner (s : State) (pa : Nat) : Option Nat :=
  (s.slotHolding pa).map fun slot => dOwner (s.desc (pageIdx slot pa))

/-- Records an occurrence about a PA; its tenant is the request's, otherwise the owner of the page concerned (R437). -/
def State.recordPa (s : State) (o : Occ) : State :=
  s.record { o with tenant := match o.tenant with
    | some t => some t
    | none => s.paOwner o.obj }

/-- The XTS tweak of a tenant line (R367). -/
def tweakOf (pa gen : Nat) : Nat := pa / 64 % 2 ^ 46 + 2 ^ 46 * gen

/-- The key slot that a page's owner and KSEL select (R367). -/
def State.keySlotOf (s : State) (owner : Nat) (ksel : Bool) : Nat :=
  if ksel then s.fld (F.TRN_TENANT_KSLOT1 owner) else s.fld (F.TRN_TENANT_KSLOT0 owner)

/-- The field that new encryptions of a tenant use (XTS_TSTATE.CUR). -/
def State.curOf (s : State) (t : Nat) : Bool := s.bit (F.XTS_TSTATE_CUR t)

/-- A key slot. -/
def State.key (s : State) (n : Nat) : KeySlot := (tget s.mem.keys n).getD ⟨0, false, false, 0, 0, false, false, false⟩

/-- Stores a key slot. -/
def State.setKey (s : State) (n : Nat) (k : KeySlot) : State := { s with mem.keys := tput s.mem.keys n k }

/-- XTS pipelines in service on a die (R369). -/
def State.pipesUp (s : State) (die : Nat) : Nat := bitsOf (s.fld F.XTS_PIPES_INSERV) (16 * die) 16

/-- The key that a die may use from a slot: a copy with wrong parity is served from the other die, and a slot whose two
copies fail becomes FAILED (R378, R379). -/
def State.useKey (s : State) (w : Who) (die slot : Nat) : State × Option (BitVec 512) :=
  let k := s.key slot
  if s.pipesUp die = 0 then (s, none)
  else if !k.valid then (s.record (w.occ bXTS Cause.xts_NO_KEY), none)
  else if k.failed then (s.record (w.occ bXTS Cause.xts_KT_FAILED), none)
  else if k.bad0 ∧ k.bad1 then
    ((s.setKey slot { k with failed := true }).record (w.occ bXTS Cause.xts_KT_FAILED), none)
  else (s, some k.key)

/-- Counts one line encrypted under a slot, and the budget of R382. -/
def State.countEncrypt (s : State) (w : Who) (owner slot : Nat) : State :=
  let k := s.key slot
  let n := k.count + 1
  let budget := 2 ^ s.fld F.XTS_CFG_BUDGET_LOG2
  let s := s.setKey slot { k with count := n % 2 ^ 48, due := k.due || decide (n = budget) }
  let s := if n = budget then
      (s.setFld (F.XTS_TSTATE_DUE owner) 1).record (w.occ bXTS Cause.xts_REKEY_DUE) else s
  if n = 2 * budget then s.record (w.occ bXTS Cause.xts_BUDGET_OVER) else s

/-- Encrypts a line of a page for its owner and selector; none where R378 or R369 refuses. -/
def State.encrypt (s : State) (w : Who) (die owner : Nat) (ksel : Bool) (pa gen : Nat) (d : Line) :
    State × Option Line :=
  let slot := s.keySlotOf owner ksel
  match s.useKey w die slot with
  | (s, none) => (s, none)
  | (s, some k) =>
    (((s.countEncrypt w owner slot).count 16 1 4 (some owner)), some (xtsEnc k (tweakOf pa gen) d))

/-- Decrypts a line of a page. -/
def State.decrypt (s : State) (w : Who) (die owner : Nat) (ksel : Bool) (pa gen : Nat) (c : Line) :
    State × Option Line :=
  match s.useKey w die (s.keySlotOf owner ksel) with
  | (s, none) => (s, none)
  | (s, some k) => (s.count 16 1 4 (some owner), some (xtsDec k (tweakOf pa gen) c))

/-- The migration of a page that runs, if any. -/
def State.migOf (s : State) (pk : Nat) : Option Mig := s.mem.migs.find? fun m => m.page = pk

/-- Gives a borrowed frame back for use (R296). -/
def State.addSpare (s : State) (lender frame : Nat) : State :=
  let b : Borrowed := ⟨lender, frame⟩
  { s with mem.spareBorrowed := s.mem.spareBorrowed ++ [b] }

/-- Frees the destination space of a migration (R282). -/
def State.freeDest (s : State) (d : Dest) : State :=
  match d with
  | .none => s
  | .frame f => s.freeFrame f
  | .run bin g n => s.freeGranules bin g n
  | .lent b => s.addSpare b.lender b.frame

/-- Ends a migration without a fault record. -/
def State.endMig (s : State) (pk : Nat) : State := { s with mem.migs := s.mem.migs.filter fun m => m.page ≠ pk }

/-- Abandons a page's migration: its destination space is freed and the page stays at its source (R282, R283). -/
def State.abandonMig (s : State) (pk : Nat) : State :=
  match s.migOf pk with
  | none => s
  | some m =>
    (((s.endMig pk).freeDest m.dest).incFld F.TIER_MIGCNT_ABANDON).recordPa
      (occObj bTIER Cause.tier_MIG_ABANDON 1 m.pa)

/-- Sets the POISON bit of a line of a HOT or REMOTE page; a migration of the page is abandoned (R283). -/
def State.poisonBit (s : State) (pk line : Nat) : State :=
  let d := s.desc pk
  (s.setDesc pk (bfSet d (72 + line) 1 1)).abandonMig pk

/-- The cache entry of a segment (R290): its place and content. -/
def State.segEntry (s : State) (die seg : Nat) : Option (Nat × SEntry) :=
  let base := (die * 128 + seg % 128) * 16
  ((upto 16).filterMap fun i => (tget s.mem.scache (base + i)).map fun e => (base + i, e)).find? fun p => p.2.seg = seg

/-- True where R63's mark says that a warm segment is poisoned. -/
def segPoisoned (d : BitVec 256) (k : Nat) : Bool := decide (dType d k = tZERO) && decide (dLen d k ≠ 0)

/-- A warm segment is poisoned: by R63's mark, or as one of LEN 0, which that mark cannot show. -/
def State.segLost (s : State) (pk k : Nat) : Bool :=
  segPoisoned (s.desc pk) k || s.mem.lostSegs.contains (4 * pk + k)

/-- Marks a warm segment as poisoned: TYPE 0 with its LEN kept (R63). One of LEN 0, which that mark cannot show, is listed instead
(log 181, DESIGN CHOICE). -/
def State.markSeg (s : State) (pk k : Nat) : State :=
  if dLen (s.desc pk) k ≠ 0 then s.setDesc pk (bfSet (s.desc pk) (244 + 2 * k) 2 tZERO)
  else if s.mem.lostSegs.contains (4 * pk + k) then s
  else { s with mem.lostSegs := s.mem.lostSegs ++ [4 * pk + k] }

/-- Poisons a warm segment; a migration of its page is abandoned (R283). -/
def State.poisonSeg (s : State) (pk k : Nat) : State := (s.markSeg pk k).abandonMig pk

/-- A page that leaves WARM has no listed segment. -/
def State.forgetSegs (s : State) (pk : Nat) : State :=
  { s with mem.lostSegs := s.mem.lostSegs.filter fun x => x / 4 ≠ pk }

/-- Line `i` of a segment. -/
def segLine (v : BitVec 8192) (i : Nat) : Line := BitVec.ofNat 512 (bfGet v (512 * i) 512)

/-- A segment with line `i` replaced. -/
def segPut (v : BitVec 8192) (i : Nat) (d : Line) : BitVec 8192 := bfSet v (512 * i) 512 d.toNat

/-- A line with the masked bytes replaced. -/
def overlay (old new : Line) (mask : BitVec 64) : Line :=
  let m : Line := BitVec.ofNat 512 (((upto 64).map fun i => if mask.getLsbD i then 255 * 2 ^ (8 * i) else 0).sum)
  (old &&& ~~~m) ||| (new &&& m)

/-- What reading or writing stored data answers. -/
inductive MemRes (α : Type) where
  | ok (a : α)
  | poison
  | decomp
  | internal
  | migrating
  | remote
  deriving DecidableEq, Repr

/-- Reads the units of a segment's body through the line code and decrypts them (R309, R310): the bytes so far, and
whether every unit was read without correction. -/
def State.readUnits (s : State) (w : Who) (pk ppa k source : Nat) (d : BitVec 256) :
    Nat → Nat → State × MemRes (List Byte × Bool)
  | 0, _ => (s, .ok ([], true))
  | n + 1, j =>
    match s.readRaw w (dFrame d) (segStart d k + j) source with
    | (s, .halted) => (s, .internal)
    | (s, .bad) => (s, .poison)
    | (s, .line c corr) =>
      match s.decrypt w (pageDie pk) (dOwner d) (dKsel d) (ppa + 1024 * k + 64 * j) (dGen d) c with
      | (s, none) => (s, .internal)
      | (s, some p) =>
        match State.readUnits s w pk ppa k source d n (j + 1) with
        | (s, .ok (l, clean)) => (s, .ok (leBytes 64 p.toNat ++ l, clean && !corr))
        | r => r

/-- The field that counts a decompressor fault code. -/
def faultField (code : Nat) : Fld :=
  if code = 1 then F.CMP_DFLTCNT0_ILLEGAL else if code = 2 then F.CMP_DFLTCNT0_DIST
  else if code = 3 then F.CMP_DFLTCNT0_OVERRUN else if code = 4 then F.CMP_DFLTCNT0_UNDERRUN
  else F.CMP_DFLTCNT1_CHECK

/-- Records a decompressor fault and its security alarm (R317, R320, R332). -/
def State.decompFault (s : State) (w : Who) (pk ppa k : Nat) (d : BitVec 256) (r : DecRes) (clean : Bool) : State :=
  let s := (s.incFld (faultField r.code)).count 16 6 1 none
  let segpa := (ppa + 1024 * k) / 1024
  let s := s.setReg F.CMP_LASTFLT0.key (BitVec.ofNat 64
    (r.code + 2 ^ 4 * dType d k + 2 ^ 6 * pageDie pk + 2 ^ 7 * b2n clean + 2 ^ 10 * segpa))
  let s := s.setReg F.CMP_LASTFLT1.key (BitVec.ofNat 64 (r.inPos + 2 ^ 16 * r.outCnt + 2 ^ 32 * dOwner d))
  let s := s.record { (w.occ bCMP r.code) with tenant := some (dOwner d) }
  if clean then (s.incFld F.CMP_DFLTCNT1_ALARM).alarm else s

/-- Reads and decodes a warm segment from its bin (R305 to R320). A fault is recorded; poisoning is the caller's. -/
def State.loadSegment (s : State) (w : Who) (pk ppa k source : Nat) : State × MemRes (BitVec 8192) :=
  let d := s.desc pk
  let die := pageDie pk
  if s.segLost pk k then (s, .poison)
  else if s.decUp die = 0 then (s, .internal)
  else if dType d k = tZERO then (s, .ok 0)
  else
    match s.readUnits w pk ppa k source d (bodyUnits (dLen d k)) 0 with
    | (s, .ok (l, clean)) =>
      match s.runEngine die 0 w with
      | (s, false) => (s, .internal)
      | (s, true) =>
        let r := expandBody (dType d k) (l.take (dLen d k)) (dChk d k)
        let s := (s.count 16 3 1 (some (dOwner d))).count 16 5 r.tokens none
        if r.code = 0 then (s, .ok (BitVec.ofNat 8192 (leNat r.out)))
        else (s.decompFault w pk ppa k d r clean, .decomp)
    | (s, .poison) => (s, .poison)
    | (s, .decomp) => (s, .decomp)
    | (s, .migrating) => (s, .migrating)
    | (s, .remote) => (s, .remote)
    | (s, .internal) => (s, .internal)

/-- The tier mode of a tenant (R278). -/
def State.modeOf (s : State) (t : Nat) : Nat :=
  if s.bit (F.TIER_TMODE_OVR t) then s.fld (F.TIER_TMODE_MODE t) else s.fld F.TIER_CFG_POOLMODE

/-- A merge entry is open for a line of a segment, which then stays in the cache (R285, R347). -/
def State.mergesInto (s : State) (seg : Nat) : Bool := s.mem.merge.any fun e => e.line / 16 = seg

/-- The way that a miss fills: the least recently used that the segment may take, neither DIRTY nor pinned (R291), nor
waited for by an open merge entry (R347). -/
def State.victimWay (s : State) (die seg mode : Nat) : Option Nat :=
  let base := (die * 128 + seg % 128) * 16
  let ways := (upto 16).filter fun i => mode = 0 || decide (s.fld F.TIER_SCACHE_FILET_WAYS ≤ i)
  match ways.find? fun i => (tget s.mem.scache (base + i)).isNone with
  | some i => some (base + i)
  | none =>
    let free := ways.filterMap fun i => (tget s.mem.scache (base + i)).bind fun e =>
      if e.dirty.isNone && !s.mergesInto e.seg then some (base + i, e.used) else none
    match free with
    | [] => none
    | p :: l => some (l.foldl (fun a b => if b.2 < a.2 then b else a) p).1

/-- The set of a segment in both dies' caches (R290). -/
def cacheSet (die seg : Nat) : Nat := die * 128 + seg % 128

/-- Puts a segment into the cache where a way qualifies; a set without one owes a store (R291). -/
def State.fillCache (s : State) (die seg mode : Nat) (v : BitVec 8192) : State :=
  match s.victimWay die seg mode with
  | none =>
    if s.mem.starved.contains (cacheSet die seg) then s
    else { s with mem.starved := s.mem.starved ++ [cacheSet die seg] }
  | some i =>
    let (bad, s) := s.takePflip 6 die 0
    { s with mem.scache := tput s.mem.scache i ⟨seg, v, none, s.mem.useCount, bad⟩
             mem.useCount := s.mem.useCount + 1 }

/-- Uses a cache entry: its parity is checked; a bad one is dropped, and poisons its segment if it was DIRTY (R292).
Answers the segment. -/
def State.useEntry (s : State) (pk ppa k i : Nat) (e : SEntry) : State × MemRes (BitVec 8192) :=
  if e.bad then
    let s := { s with mem.scache := tdel s.mem.scache i }
    if e.dirty.isSome then
      ((s.markSeg pk k).recordPa (occObj bTIER Cause.tier_SC_DIRTY_PARITY 1 (ppa + 1024 * k)), .poison)
    else (s.recordPa (occObj bTIER Cause.tier_SC_PARITY 1 (ppa + 1024 * k)), .migrating)
  else
    ({ s with mem.scache := tput s.mem.scache i { e with used := s.mem.useCount }
              mem.useCount := s.mem.useCount + 1 }, .ok e.data)

/-- A demand fill of a segment: a fault poisons it and answers DECOMP_FAULT (R310, R318). -/
def State.demandFill (s : State) (w : Who) (pk ppa k : Nat) : State × MemRes (BitVec 8192) :=
  match s.loadSegment w pk ppa k srcDemand with
  | (s, .ok v) =>
    let seg := (ppa + 1024 * k) / 1024
    (s.fillCache (pageDie pk) seg (s.modeOf (dOwner (s.desc pk))) v, .ok v)
  | (s, .poison) => (if s.segLost pk k then s else s.poisonSeg pk k, .poison)
  | (s, .decomp) => (s.poisonSeg pk k, .decomp)
  | r => r

/-- The current content of a warm segment: from its cache entry, or filled (R290, R291, R315). -/
def State.segment (s : State) (w : Who) (pk ppa k : Nat) : State × MemRes (BitVec 8192) :=
  let die := pageDie pk
  let seg := (ppa + 1024 * k) / 1024
  let owner := some (dOwner (s.desc pk))
  if s.segLost pk k then (s, .poison)
  else
    match s.segEntry die seg with
    | some (i, e) =>
      match s.useEntry pk ppa k i e with
      | (s, .migrating) => (s.incFld F.TIER_SCCNT_MISS |>.count 15 5 1 owner).demandFill w pk ppa k
      | (s, .poison) => (((s.incFld F.TIER_SCCNT_HIT).count 15 4 1 owner).abandonMig pk, .poison)
      | (s, r) => ((s.incFld F.TIER_SCCNT_HIT).count 15 4 1 owner, r)
    | none => ((s.incFld F.TIER_SCCNT_MISS).count 15 5 1 owner).demandFill w pk ppa k

/-- The open merge-buffer entry of a line. -/
def State.mergeOf (s : State) (line : Nat) : Option MergeEntry := s.mem.merge.find? fun e => e.line = line

/-- Overlays the open merge entry of a line (R346). -/
def State.overlayMerge (s : State) (pa : Nat) (d : Line) : Line :=
  match s.mergeOf (pa / 64) with
  | some e => overlay d e.data e.mask
  | none => d

/-- A descriptor read at the home: one that is uncorrectable, or whose encoding is not allowed, answers none
(R64, R352). -/
def State.readDesc (s : State) (w : Who) (pk : Nat) : State × Option (BitVec 256) :=
  if s.mem.tmapBad.contains pk then (s, none)
  else
    let d := s.desc pk
    if descBad d then (s.record { w.occ bTRN Cause.trn_DESC_BAD with obj := 0, okind := 0 }, none) else (s, some d)

/-- Reads the stored line of a page at its home, check 9 of R58 included (R65, R183, R352). -/
def State.readLine (s : State) (w : Who) (pk pa source : Nat) : State × MemRes Line :=
  let d := s.desc pk
  let t := dTier d
  let line := lineOf pa
  if t = tierZERO then (s, .ok 0)
  else if t = tierWARM then
    match s.segment w pk (pageOf pa) (line / 16) with
    | (s, .ok v) => (s, .ok (s.overlayMerge pa (segLine v (line % 16))))
    | (s, .poison) => (s, .poison)
    | (s, .decomp) => (s, .decomp)
    | (s, .internal) => (s, .internal)
    | (s, .migrating) => (s, .migrating)
    | (s, .remote) => (s, .remote)
  else if (dPoison d).getLsbD line then (s, .poison)
  else if t = tierREMOTE then (s, .remote)
  else
    match s.readRaw w (dFrame d) line source with
    | (s, .halted) => (s, .internal)
    | (s, .bad) => (s.poisonBit pk line, .poison)
    | (s, .line c _) =>
      match s.decrypt w (pageDie pk) (dOwner d) (dKsel d) pa (dGen d) c with
      | (s, none) => (s, .internal)
      | (s, some p) => (s, .ok (s.overlayMerge pa p))

/-- Writes one line of a HOT page's frame, encrypted; a lost write poisons the line (R353, R354, R378). -/
def State.putHotLine (s : State) (w : Who) (pk pa : Nat) (p : Line) : State × Bool :=
  let d := s.desc pk
  match s.encrypt w (pageDie pk) (dOwner d) (dKsel d) pa (dGen d) p with
  | (s, none) => (s, false)
  | (s, some c) =>
    match s.writeRaw w (dFrame d) (lineOf pa) c with
    | (s, true) => (s.setDesc pk (bfSet (s.desc pk) (72 + lineOf pa) 1 0), true)
    | (s, false) => (s.poisonBit pk (lineOf pa), true)

/-- A die can encrypt under a key slot: the slot holds a key that a die can read, and a pipeline is in service (R369,
R378, R379). -/
def State.keyUsable (s : State) (die slot : Nat) : Bool :=
  let k := s.key slot
  k.valid && !k.failed && !(k.bad0 && k.bad1) && decide (s.pipesUp die ≠ 0)

/-- Writes the 64 lines of a new frame in rising order, zeros where the write gives no data (R66, R344). -/
def State.initPage (s : State) (w : Who) (pk ppa : Nat) (data : Nat → Line) : State × Bool :=
  (upto 64).foldl (fun (r : State × Bool) i =>
    let (s, ok) := r.1.putHotLine w pk (ppa + 64 * i) (data i)
    (s, r.2 && ok)) (s, true)

/-- Gives a ZERO page a frame and makes it HOT with KSEL = CUR (R66, R384, R545). -/
def State.makeHot (s : State) (w : Who) (pk ppa : Nat) (data : Nat → Line) : State × Bool :=
  let d := s.desc pk
  let owner := dOwner d
  let slot := s.keySlotOf owner (s.curOf owner)
  if !s.keyUsable (pageDie pk) slot then ((s.useKey w (pageDie pk) slot).1, false)
  else
    match s.takeFrame (pageDie pk) fHOT 0 with
    | none => (s, false)
    | some (f, s) =>
      let d := bfSet (bfSet (bfSet d 0 2 tierHOT) 2 1 (b2n (s.curOf owner))) 40 32 f
      (s.setDesc pk d).initPage w pk ppa data

/-- R286: a write that needs a frame is refused when the die's free frames do not exceed MOVE. -/
def State.frameShort (s : State) (die : Nat) : Bool := decide (s.freeFrames die ≤ s.fld F.TIER_RESV_MOVE)

/-- Records the refusal of R286. -/
def State.recordEmpty (s : State) (w : Who) : State := s.record (w.occ bTIER Cause.tier_FREE_EMPTY)

/-- Frames borrowed: those of REMOTE pages, those not yet used, and those that a migration has taken (R296). -/
def State.borrowed (s : State) : Nat :=
  countIf s.mem.tmap (fun e => decide (dTier e.2 = tierREMOTE)) + s.mem.spareBorrowed.length
    + countIf s.mem.migs fun m => match m.dest with
      | .lent _ => true
      | _ => false

/-- An unused frame of the member named in TIER_LEND.LENDER, while R296 lets this module borrow. -/
def State.usableSpare (s : State) : Option Borrowed :=
  if s.bit F.TIER_LEND_LENDV ∧ s.borrowed ≤ 512 * s.fld F.TIER_LEND_BORROW then
    s.mem.spareBorrowed.find? fun b => b.lender = s.fld F.TIER_LEND_LENDER
  else none

/-- What a migration asks for as its destination. -/
inductive Want where
  | none | frame | run (n : Nat) | lent
  deriving DecidableEq, Repr

/-- Takes destination space on a die (R281 step 1); none where there is none to take. -/
def State.takeDest (s : State) (die : Nat) (want : Want) : Option (Dest × State) :=
  match want with
  | .none => some (.none, s)
  | .frame => (s.takeFrame die fHOT 0).map fun p => (.frame p.1, p.2)
  | .run n => (s.takeRun die n).map fun p => (.run p.1 p.2.1 n, p.2.2)
  | .lent => s.usableSpare.map fun b => (.lent b, { s with mem.spareBorrowed := s.mem.spareBorrowed.erase b })

/-- Starts a migration of a page: its destination space is taken and the page is marked (R281 steps 1 and 2). A page that
migrates already, or one for which there is no space, is left as it is (R284). -/
def State.startMig (s : State) (pk pa : Nat) (kind : MigKind) (why : MigWhy) (want : Want) : State :=
  if (s.migOf pk).isSome then s
  else
    match s.takeDest (pageDie pk) want with
    | none => s
    | some (d, s) =>
      { s with mem.migs := s.mem.migs ++ [⟨pk, pageOf pa, kind, s.now, why, false, false, [], [], [], d⟩] }

/-- Starts the promotion that a whole-line write to a poisoned segment asks for; neither MIGEN nor MIG_MAX limits it
(R321). -/
def State.promotePoisoned (s : State) (pk pa : Nat) : State := s.startMig pk pa .promote .poisoned .frame

/-- Writes a line into a warm segment's cache entry, which becomes DIRTY (R285). -/
def State.writeWarm (s : State) (w : Who) (pk pa : Nat) (mask : BitVec 64) (data : Line) : State × MemRes Unit :=
  let ppa := pageOf pa
  let line := lineOf pa
  let k := line / 16
  let seg := (ppa + 1024 * k) / 1024
  match s.segment w pk ppa k with
  | (s, .ok v) =>
    let new := segPut v (line % 16) (overlay (segLine v (line % 16)) data mask)
    match s.segEntry (pageDie pk) seg with
    | some (i, e) =>
      ({ s with mem.scache := tput s.mem.scache i { e with data := new, dirty := some (e.dirty.getD s.now) } }, .ok ())
    | none => (s, .migrating)
  | (s, .poison) => (s, .poison)
  | (s, .decomp) => (s, .decomp)
  | (s, .internal) => (s, .internal)
  | (s, .migrating) => (s, .migrating)
  | (s, .remote) => (s, .remote)

/-- Frees a merge entry, which counts as closed. -/
def State.dropMerge (s : State) (line : Nat) : State :=
  { s with mem.merge := s.mem.merge.filter fun x => x.line ≠ line }.incFld F.ECC_MERGECNT_CLOSED

/-- Closes a merge entry (R346 to R348): a full mask writes its line, a HOT page takes one read-modify-write, a WARM
page's entry is merged into the segment cache, and stays open while that cannot be (R328); an entry with wrong parity poisons
its line (R359). -/
def State.closeMerge (s : State) (e : MergeEntry) (pk : Nat) : State :=
  let pa := 64 * e.line
  let w : Who := ⟨e.txid, some e.tenant, pa⟩
  let d := s.desc pk
  if dTier d = tierWARM ∧ !e.bad then
    match s.writeWarm w pk pa e.mask e.data with
    | (s, .migrating) => s
    | (s, .internal) => s
    | (s, _) => s.dropMerge e.line
  else
  let s := s.dropMerge e.line
  if e.bad then
    let s := s.record (w.occ bECC Cause.ecc_MB_PARITY)
    if dTier d = tierWARM then s.poisonSeg pk (lineOf pa / 16) else s.poisonBit pk (lineOf pa)
  else if dTier d ≠ tierHOT then s
  else if e.mask = BitVec.allOnes 64 then ((s.incFld F.ECC_MERGECNT_FULLMASK).putHotLine w pk pa e.data).1
  else
    match s.readRaw w (dFrame d) (lineOf pa) srcRmw with
    | (s, .line c _) =>
      match s.decrypt w (pageDie pk) (dOwner d) (dKsel d) pa (dGen d) c with
      | (s, some p) => (s.putHotLine w pk pa (overlay p e.data e.mask)).1
      | (s, none) => s.poisonBit pk (lineOf pa)
    | (s, _) => s.poisonBit pk (lineOf pa)

/-- Closes a merge entry by its line, finding its page. -/
def State.closeLine (s : State) (line : Nat) : State :=
  match s.mergeOf line with
  | none => s
  | some e =>
    match s.slotHolding (64 * line) with
    | none => { s with mem.merge := s.mem.merge.filter fun x => x.line ≠ line }
    | some slot => s.closeMerge e (pageIdx slot (64 * line))

/-- Closes every open merge entry that `f` accepts. -/
def State.closeMerges (s : State) (f : MergeEntry → Bool) : State :=
  ((s.mem.merge.filter f).map (·.line)).foldl (fun s l => s.closeLine l) s

/-- The merge entries of a group (R345). -/
def State.groupEntries (s : State) (g : Nat) : List MergeEntry := s.mem.merge.filter fun e => e.group = g

/-- The oldest entry of a group closes where all 64 are in use (R346). -/
def State.makeRoom (s : State) (group : Nat) : State :=
  match s.groupEntries group with
  | [] => s
  | e :: l =>
    if l.length < 63 then s
    else ((s.incFld F.ECC_MERGECNT_EARLY).count (8 + group) 6 1 none).closeLine e.line

/-- Puts a narrow write into a merge entry of its group; the oldest entry closes where all 64 are in use, and one whose
mask becomes all ones closes (R345, R346). Answers false where no entry is free: the write waits. -/
def State.mergeWrite (s : State) (w : Who) (pk pa group : Nat) (mask : BitVec 64) (data : Line) : State × Bool :=
  match s.mergeOf (pa / 64) with
  | some e =>
    let e' := { e with data := overlay e.data data mask, mask := e.mask ||| mask }
    let s := { s with mem.merge := s.mem.merge.map fun x => if x.line = e.line then e' else x }
    (if e'.mask = BitVec.allOnes 64 then s.closeMerge e' pk else s, true)
  | none =>
    let s := s.makeRoom group
    if 64 ≤ (s.groupEntries group).length then (s, false)
    else
      let (bad, s) := s.takePflip 0 0 group
      ({ s with mem.merge := s.mem.merge ++
          [⟨group, pa / 64, data, mask, s.now, w.txid, w.tenant.getD 0, bad⟩] }, true)

/-- A whole-line write fills the open merge entry of its line, which closes (R346). -/
def State.absorbMerge (s : State) (line : Nat) : State :=
  if (s.mergeOf line).isNone then s
  else
    (s.dropMerge line).incFld F.ECC_MERGECNT_FULLMASK

/-- The merge group of a page's line: the channel group of its frame. -/
def State.mergeGroup (s : State) (pk : Nat) : Nat := frameGroup (dFrame (s.desc pk))

/-- A narrow write that a merge entry takes, or that waits for one. -/
def State.narrowWrite (s : State) (w : Who) (pk pa : Nat) (mask : BitVec 64) (data : Line) : State × MemRes Unit :=
  match s.mergeWrite w pk pa (s.mergeGroup pk) mask data with
  | (s, true) => (s, .ok ())
  | (s, false) => (s, .migrating)

/-- Writes bytes of a line of a page at its home (R20, R66, R183, R285, R286, R321, R345). A whole-line write ends the open
merge entry of its line once it is accepted (R346); one whose warm segment turns out to be poisoned waits for the promotion
of R321, since a WriteBack never gets POISON (R201). -/
def State.writeLine (s : State) (w : Who) (pk pa : Nat) (mask : BitVec 64) (data : Line) : State × MemRes Unit :=
  let d := s.desc pk
  let t := dTier d
  let line := lineOf pa
  let full := decide (mask = BitVec.allOnes 64)
  let die := pageDie pk
  if mask = 0 then (s, .ok ())
  else if t = tierZERO then
    if s.frameShort die then (s.recordEmpty w, .internal)
    else
      match s.makeHot w pk (pageOf pa) (fun i => if i = line then overlay 0 data mask else 0) with
      | (s, true) => (s, .ok ())
      | (s, false) => (s, .internal)
  else if t = tierREMOTE then
    if (dPoison d).getLsbD line ∧ !full then (s, .poison) else (s, .remote)
  else if t = tierHOT then
    if full then
      match s.putHotLine w pk pa data with
      | (s, true) => (s.absorbMerge (pa / 64), .ok ())
      | (s, false) => (s, .internal)
    else if (dPoison d).getLsbD line then (s, .poison)
    else if !s.chReady (frameChan (dFrame d)) then (s, .internal)
    else if !s.keyUsable die (s.keySlotOf (dOwner d) (dKsel d)) then
      ((s.useKey w die (s.keySlotOf (dOwner d) (dKsel d))).1, .internal)
    else s.narrowWrite w pk pa mask data
  else if s.segLost pk (line / 16) then
    if !full then (s, .poison)
    else if s.frameShort die then (s.recordEmpty w, .internal)
    else (s.promotePoisoned pk pa, .migrating)
  else if s.frameShort die then (s.recordEmpty w, .internal)
  else if full then
    match s.writeWarm w pk pa mask data with
    | (s, .ok _) => (s.absorbMerge (pa / 64), .ok ())
    | (s, .poison) => (s.promotePoisoned pk pa, .migrating)
    | r => r
  else
    match s.segment w pk (pageOf pa) (line / 16) with
    | (s, .ok _) =>
      if (s.segEntry die (pa / 1024)).isNone then (s, .migrating) else s.narrowWrite w pk pa mask data
    | (s, .poison) => (s, .poison)
    | (s, .decomp) => (s, .decomp)
    | (s, .internal) => (s, .internal)
    | (s, .migrating) => (s, .migrating)
    | (s, .remote) => (s, .remote)

/-- Poisons a line of a page: its POISON bit, its segment on a WARM page, and on a ZERO page a frame of zeros with that
line's bit set (R63, R160, R184, R545). DESIGN CHOICE (log 169): where the ZERO page can be given no frame, since none is
free at all, or its 64 lines cannot be encrypted, since no valid key or no pipeline is at hand, R545 states no outcome; the
page stays ZERO and the line unpoisoned. -/
def State.poisonLine (s : State) (pk pa : Nat) : State :=
  let d := s.desc pk
  let s := { s with mem.merge := s.mem.merge.filter fun e => e.line ≠ pa / 64 }
  if dTier d = tierWARM then
    let seg := pa / 1024
    let s := match s.segEntry (pageDie pk) seg with
      | some (i, _) => { s with mem.scache := tdel s.mem.scache i }
      | none => s
    s.poisonSeg pk (lineOf pa / 16)
  else if dTier d = tierZERO then
    let s := (s.makeHot ⟨0, some (dOwner d), pa⟩ pk (pageOf pa) (fun _ => 0)).1
    if dTier (s.desc pk) = tierHOT then s.poisonBit pk (lineOf pa) else s
  else s.poisonBit pk (lineOf pa)

end Sys2Proof.Machine
end

