-- ==== Sys2Proof/Machine/Heat.lean ====
section
/-! DEFINITION. Heat (R274 to R280) and the traffic that metering counts (R402, R403). -/

namespace Sys2Proof.Machine

/-- The heat epoch number E (R275). -/
def State.epoch (s : State) : Nat := s.now / (max 1 (s.fld F.TIER_CFG_EPOCH_MS) * 1000000) % 65536

/-- A page's age-table entry (R272). -/
def State.ageOf (s : State) (pk : Nat) : BitVec 32 := sget (fun _ => 0) s.mem.atab pk

/-- LAST of a page. -/
def State.lastOf (s : State) (pk : Nat) : Nat := bfGet (s.ageOf pk) 0 16

/-- LASTW of a page. -/
def State.lastWOf (s : State) (pk : Nat) : Nat := bfGet (s.ageOf pk) 16 16

/-- Writes a page's age-table entry. -/
def State.setAge (s : State) (pk last lastw : Nat) : State :=
  { s with mem.atab := sput (fun _ => 0) s.mem.atab pk (BitVec.ofNat 32 (last % 65536 + 65536 * (lastw % 65536))) }

/-- Epochs from `last` to now (R275). -/
def State.since (s : State) (last : Nat) : Nat := (s.epoch + 65536 - last % 65536) % 65536

/-- The idle time of a page (R275). -/
def State.idle (s : State) (pk : Nat) : Nat := s.since (s.lastOf pk)

/-- HEATEFF (R276). -/
def State.heatEff (s : State) (pk : Nat) : Nat := dHeat (s.desc pk) / 2 ^ min 8 (s.idle pk)

/-- The fields of TIER_THRm for a mode. -/
def State.demoteIdle (s : State) (m : Nat) : Nat := s.fld (F.TIER_THR_DEMOTE_IDLE (min m 2))
def State.promoteHeat (s : State) (m : Nat) : Nat := s.fld (F.TIER_THR_PROMOTE_HEAT (min m 2))
def State.guard (s : State) (m : Nat) : Nat := s.fld (F.TIER_THR_GUARD (min m 2))

/-- Migrations running on a die. -/
def State.migsOn (s : State) (die : Nat) : Nat := countIf s.mem.migs fun m => decide (pageDie m.page = die)

/-- A heat-driven or scan-driven migration may start on the die (R280). -/
def State.mayMigrate (s : State) (die : Nat) : Bool :=
  s.bit F.TIER_CFG_MIGEN && decide (s.migsOn die < s.fld F.TIER_CFG_MIG_MAX)

/-- Starts a promotion by heat where R280 allows it. -/
def State.promoteByHeat (s : State) (pk pa : Nat) : State :=
  let die := pageDie pk
  if s.mayMigrate die ∧ s.lowLevel die ≤ s.freeFrames die then s.startMig pk pa .promote .trigger .frame else s

/-- The feedback masks that the model knows of maximal-length 16-bit LFSRs in Galois form. -/
def lfsrMasks : List (BitVec 16) := [0xB400, 0xD008, 0x8016, 0x801C, 0x8029, 0x8580, 0xD295, 0x9C00]

/-- One step of the sampling LFSR: its polynomial is one of lfsrMasks, by the free value Config.lfsrPoly (R274). -/
def lfsrNext (l : BitVec 16) : BitVec 16 :=
  let mask := lfsrMasks.getD (Config.lfsrPoly % 8) 0xB400
  if l.getLsbD 0 then (l >>> 1) ^^^ mask else l >>> 1

/-- An access that the home has accepted, a request answered with STATUS 0 (R274, R276, R279, R280): the die's LFSR
advances; where it samples the access, HEAT and the age entry are updated and the page may be promoted. -/
def State.access (s : State) (pk pa : Nat) (write : Bool) : State :=
  let die := pageDie pk
  let l := lfsrNext (if die = 0 then s.mem.lfsr0 else s.mem.lfsr1)
  let s := if die = 0 then { s with mem.lfsr0 := l } else { s with mem.lfsr1 := l }
  let d := s.desc pk
  let owner := dOwner d
  let m := s.modeOf owner
  let cold := dTier d = tierWARM ∨ dTier d = tierREMOTE
  if l.toNat % 16 = 0 then
    let h := min 255 (s.heatEff pk + 1)
    let s := s.setDesc pk (bfSet d 32 8 h)
    let s := s.setAge pk s.epoch (if write then s.epoch else s.lastWOf pk)
    let s := s.count 15 1 1 (some owner)
    let add (t : Table Nat) : Table Nat := tput t owner ((tget t owner).getD 0 + 1)
    let s := { s with mem.sampled := add s.mem.sampled }
    let s := if dTier d = tierWARM then
        { s with mem.sampledWarm := add s.mem.sampledWarm }.incFld F.TIER_WARMCNT_WARM else s
    if cold ∧ s.promoteHeat m ≤ h then s.promoteByHeat pk pa else s
  else if cold ∧ s.promoteHeat m = 0 then s.promoteByHeat pk pa
  else s

/-- A tenant's metering state before it has any (R407: FIRST). -/
def freshTen (now : Nat) : MtrTen :=
  ⟨0, 0, 0, 0, 0, 0, 0, now, 0, true, false, false, false, false, false, false⟩

/-- Changes a tenant's metering state. -/
def State.modTen (s : State) (t : Nat) (f : MtrTen → MtrTen) : State :=
  { s with meter.tens := tput s.meter.tens t (f ((tget s.meter.tens t).getD (freshTen s.now))) }

/-- Adds traffic to a tenant's counters (R402). -/
def State.traffic (s : State) (t rd wr at_ : Nat) : State :=
  if rd = 0 ∧ wr = 0 ∧ at_ = 0 then s
  else s.modTen t fun m =>
    { m with rd := (m.rd + rd) % 2 ^ 64, wr := (m.wr + wr) % 2 ^ 64, at_ := (m.at_ + at_) % 2 ^ 64, changed := true }

end Sys2Proof.Machine
end

