-- ==== Sys2Proof/Machine/Picot.lean ====
section
/-! DEFINITION. The pool record (R47, R239 to R246) and Picot channels: units, replay, paths and start (R112 to R119,
R162, R248 to R251). -/

namespace Sys2Proof.Machine

/-- The bank number of a record. -/
def bankNo (b : Bool) : Nat := b2n b

/-- Member-table fields (R239, R240). -/
def State.memValid (s : State) (b : Bool) (i : Nat) : Bool := s.bit (F.POOL_MEM_A_VALID (bankNo b) i)
def State.memSpare (s : State) (b : Bool) (i : Nat) : Bool := s.bit (F.POOL_MEM_A_SPARE (bankNo b) i)
def State.memUplink (s : State) (b : Bool) (i : Nat) : Bool := s.bit (F.POOL_MEM_A_UPLINK (bankNo b) i)
def State.memNode (s : State) (b : Bool) (i : Nat) : NodeId := BitVec.ofNat 12 (s.fld (F.POOL_MEM_A_NODE (bankNo b) i))
def State.memEpoch (s : State) (b : Bool) (i : Nat) : Nat := s.fld (F.POOL_MEM_A_EPOCH (bankNo b) i)

/-- A home entry (R240). -/
def State.isHomeEntry (s : State) (b : Bool) (i : Nat) : Bool := s.memValid b i && !s.memSpare b i && !s.memUplink b i

/-- An entry that names a module with a channel: home or spare (R241). -/
def State.isNodeEntry (s : State) (b : Bool) (i : Nat) : Bool := s.memValid b i && !s.memUplink b i

/-- The indices of the home entries of a bank. -/
def State.homesOf (s : State) (b : Bool) : List Nat := (upto 64).filter (s.isHomeEntry b)

/-- The entry that names a node (R240). -/
def State.entryOf (s : State) (b : Bool) (n : NodeId) : Option Nat :=
  firstIdx 64 fun i => s.isNodeEntry b i && decide (s.memNode b i = n)

/-- This module's own entry. -/
def State.selfEntry (s : State) (b : Bool) : Option Nat := s.entryOf b s.node

/-- This module's member index as a home. -/
def State.selfIdx (s : State) (b : Bool) : Option Nat :=
  firstIdx 64 fun i => s.isHomeEntry b i && decide (s.memNode b i = s.node)

/-- The module is the face of its pool (R244). -/
def State.isFace (s : State) : Bool :=
  s.bit (F.POOL_ROLES_FACEV 0) && decide (s.memNode false (s.fld (F.POOL_ROLES_FACE 0)) = s.node)
    && s.isHomeEntry false (s.fld (F.POOL_ROLES_FACE 0))

/-- The node that holds the bobbin role of a bank (R244). -/
def State.bobbinNode (s : State) (b : Bool) : NodeId := s.memNode b (s.fld (F.POOL_ROLES_BOBBIN (bankNo b)))

/-- The pool has 17 or more members, so that the bobbin sequences (R232). -/
def State.bigPool (s : State) (b : Bool) : Bool := decide (16 < (s.homesOf b).length)

/-- This module holds the bobbin role of its own pool. -/
def State.isBobbin (s : State) : Bool := s.bit (F.POOL_ROLES_BOBV 0) && decide (s.bobbinNode false = s.node)

/-- The register that holds a pool map entry. -/
def mapKey (b : Bool) (pa : Nat) : Nat := (F.POOL_MAPDATA (bankNo b) (pa / 2 ^ 21 % 65536 / 4)).key

/-- A pool map entry: its member where VALID (R47). -/
def State.mapMember (s : State) (b : Bool) (pa : Nat) : Option Nat :=
  let e := bitsOf (s.reg (mapKey b pa)).toNat (16 * (pa / 2 ^ 21 % 4)) 16
  if bitsOf e 6 1 = 1 then some (bitsOf e 0 6) else none

/-- Agent-table fields. -/
def State.agInUse (s : State) (b : Bool) (a : AgentId) : Bool := s.bit (F.POOL_AGENT_INUSE (bankNo b) a.toNat)
def State.agMember (s : State) (b : Bool) (a : AgentId) : Nat := s.fld (F.POOL_AGENT_MEMBER (bankNo b) a.toNat)
def State.agProxy (s : State) (b : Bool) (a : AgentId) : Bool := s.bit (F.POOL_AGENT_PROXY (bankNo b) a.toNat)
def State.agOther (s : State) (b : Bool) (a : AgentId) : AgentId :=
  BitVec.ofNat 10 (s.fld (F.POOL_AGENT_OAGENT (bankNo b) a.toNat))
def State.agNode (s : State) (b : Bool) (a : AgentId) : NodeId :=
  BitVec.ofNat 12 (s.fld (F.POOL_AGENT_NODE (bankNo b) a.toNat))

/-- The agents in use in the pool's agent table. -/
def State.agentsInUse (s : State) : List AgentId :=
  ((upto 1024).map (BitVec.ofNat 10)).filter (s.agInUse false)

/-- A table entry whose parity is wrong (R74, R271): the keys of its register. -/
def State.tblBad (s : State) (key : Nat) : Bool := s.mem.tblBad.contains key

/-- A channel. -/
def State.chan (s : State) (id : ChanId) : Option Chan := s.home.chans.find? fun c => c.id = id

/-- Changes a channel. -/
def State.modChan (s : State) (id : ChanId) (f : Chan → Chan) : State :=
  { s with home.chans := s.home.chans.map fun c => if c.id = id then f c else c }

/-- The path of a channel: the peer entry's P or Q (R241). -/
def State.chanPath (s : State) (id : ChanId) (alt : Bool) : Path :=
  let i := (s.entryOf id.bank id.peer).getD 0
  pathOf (s.reg (if alt then F.POOL_MEM_Q (bankNo id.bank) i else F.POOL_MEM_P (bankNo id.bank) i).key)

/-- True where the channel has an alternate path. -/
def State.chanHasAlt (s : State) (id : ChanId) : Bool := (s.chanPath id true).mac != 0

/-- A message's bytes cut into unit bodies of 60 bytes, the last padded with zeros (R113, R118). The fuel bounds the
units. -/
def bodiesOf : Nat → List Byte → List (List Byte)
  | 0, _ => []
  | fuel + 1, l =>
    if l.isEmpty then []
    else (l.take 60 ++ List.replicate (60 - (l.take 60).length) 0) :: bodiesOf fuel (l.drop 60)

/-- The unit bodies of a message: it starts at byte 0 of a unit. -/
def unitsOfMsg (m : PMsg) : List (List Byte) := let b := m.bytes; bodiesOf (b.length / 60 + 1) b

/-- A unit as it is sent: its CRC16 covers its running count, its BODY and the word of COUNT and RESUME (R113, R114). -/
def mkUnit (run count : Nat) (resume : Bool) (body : List Byte) : PUnit :=
  ⟨run % 32768, body, unitCrc run body count resume, count % 32768, resume⟩

/-- Sends one Picot frame on the channel's current path (R112, R113). -/
def State.emitPicot (s : State) (c : Chan) (first : Nat) (bodies : List (List Byte)) : State :=
  let us := bodies.zipIdx.map fun u => mkUnit (first + u.2) c.expect c.discarding u.1
  (s.emitOn (s.chanPath c.id c.alt) (s.fld F.CDL_PCP_PICOT) (s.fld F.CDL_ETYPE_PICOT)
    (.picot s.node c.id.peer (first % 32768) us)).modChan c.id fun c => { c with lastSent := s.now }

/-- Sends unit bodies in frames of at most 64 units (R112). The fuel bounds the frames. -/
def State.emitUnits (s : State) (c : Chan) : Nat → Nat → List (List Byte) → State
  | 0, _, _ => s
  | fuel + 1, first, l =>
    if l.isEmpty then s else (s.emitPicot c first (l.take 64)).emitUnits c fuel (first + 64) (l.drop 64)

/-- The waiting messages that have room among 1,024 unacknowledged units (R116). -/
def chanFit (room : Nat) : List PMsg → List PMsg
  | [] => []
  | m :: l => let n := (unitsOfMsg m).length; if n ≤ room then m :: chanFit (room - n) l else []

/-- Messages with the running position of their ends, from a position on. -/
def endsOf : Nat → List PMsg → List (Nat × PMsg)
  | _, [] => []
  | n, m :: l => let e := n + (unitsOfMsg m).length; (e, m) :: endsOf e l

/-- Sends what waits on a channel that is UP, as far as room allows. -/
def State.flushChan (s : State) (id : ChanId) : State :=
  match s.chan id with
  | none => s
  | some c =>
    let l := chanFit (1024 - c.units.length) c.txq
    if c.state ≠ .up ∨ l.isEmpty then s
    else
      let bodies := l.flatMap unitsOfMsg
      let s := s.emitUnits c (bodies.length / 64 + 1) (c.base + c.units.length) bodies
      s.modChan id fun c =>
        { c with units := c.units ++ bodies, txq := c.txq.drop l.length
                 loose := c.loose.filter fun m => (c.txq.drop l.length).contains m
                 msgs := c.msgs ++ endsOf (c.base + c.units.length) l
                 timer := if c.units.isEmpty then s.now else c.timer }

/-- Sends a message on a channel; it waits where the channel is not UP or has no room. -/
def State.sendChan (s : State) (id : ChanId) (m : PMsg) : State :=
  if (s.chan id).isNone then s
  else (s.modChan id fun c => { c with txq := c.txq ++ [m] }).flushChan id

/-- GRACE has expired on a channel that is DOWN or in START, and it still is (R149, R162, R251). -/
def State.chanFlushed (s : State) (id : ChanId) : Bool :=
  ((s.chan id).map fun c => c.flushed && decide (c.state ≠ .up)).getD false

/-- Sends the response to a non-coherent request on a channel: where it has to wait, R149 can discard it. -/
def State.sendLoose (s : State) (id : ChanId) (m : PMsg) : State :=
  let s := s.sendChan id m
  s.modChan id fun c => if c.txq.contains m then { c with loose := c.loose ++ [m] } else c

/-- The running position that COUNT must reach to cover everything sent on a channel so far (R195). -/
def Chan.sentTotal (c : Chan) : Nat := c.base + c.units.length + (c.txq.map fun m => (unitsOfMsg m).length).sum

/-- The position of the last message queued, for a channel. -/
def State.chanMark (s : State) (id : ChanId) : Nat := ((s.chan id).map Chan.sentTotal).getD 0

/-- Sends a ChanStart: unit 0 of a frame with FIRST 0 (R249). -/
def State.sendStart (s : State) (id : ChanId) : State :=
  match s.chan id with
  | none => s
  | some c =>
    let m := PMsg.chanStart c.rgen.isSome s.node id.peer id.bank s.home.rgen (c.rgen.getD 0)
      (BitVec.ofNat 32 (s.fld (F.POOL_VER_VERSION (bankNo id.bank))))
    s.emitPicot c 0 (unitsOfMsg m)

/-- A channel in START with counts of 0 (R249); requests across it follow R162 as for a DOWN channel (R251). -/
def freshChan (id : ChanId) (now : Nat) (last : Option (BitVec 32)) : Chan :=
  { id := id, state := .start, alt := false, brokenP := false, brokenQ := false, rgen := none, lastRgen := last
    base := 0, units := [], expect := 0, discarding := false, stream := [], rxq := [], txq := [], loose := [], msgs := []
    lastGood := now, lastSent := now, timer := now, downSince := some now, flushed := false, skew := false, dead := false }

/-- Starts a channel: both counts are 0 and a ChanStart goes out (R249). Messages that COUNT has not covered wait for it
to be UP (R163). -/
def State.startChan (s : State) (id : ChanId) : State :=
  match s.chan id with
  | none => s
  | some c =>
    (s.modChan id fun _ =>
      { freshChan id s.now (if c.rgen.isSome then c.rgen else c.lastRgen) with
        downSince := some (c.downSince.getD s.now), flushed := c.flushed, txq := c.msgs.map (·.2) ++ c.txq
        loose := c.loose, rxq := c.rxq }).sendStart id

/-- The channels that the records call for (R241). -/
def State.wantedChans (s : State) : List ChanId :=
  let f (b : Bool) : List ChanId :=
    (((upto 64).filter fun i => s.isNodeEntry b i && decide (s.memNode b i ≠ s.node)).map (s.memNode b)).map (⟨b, ·⟩)
  f false ++ (if s.isFace then f true else [])

/-- A relay of this face still runs on a channel: it is finished there even after the face role has moved (R256). -/
def State.relayUses (s : State) (id : ChanId) : Bool :=
  s.home.relays.any fun e => (decide (e.2.bank = id.bank) && decide (e.2.origin = id.peer))
    || (decide (e.2.bank ≠ id.bank) && decide (e.2.dest = id.peer))

/-- Makes the channels agree with the records: new ones start, channels of nodes no longer named end (R241), except those
that a relay still uses. -/
def State.syncChans (s : State) : State :=
  let want := s.wantedChans
  let s := { s with home.chans := s.home.chans.filter fun c => want.contains c.id || s.relayUses c.id }
  want.foldl (fun s id =>
    if (s.chan id).isSome then s
    else ({ s with home.chans := s.home.chans ++ [freshChan id s.now none] }).sendStart id) s

/-- The channel to a node, in the bank named first. -/
def State.chanTo (s : State) (b : Bool) (n : NodeId) : Option ChanId :=
  if (s.chan ⟨b, n⟩).isSome then some ⟨b, n⟩ else if (s.chan ⟨!b, n⟩).isSome then some ⟨!b, n⟩ else none

/-- Sends a message to a node of a bank. -/
def State.sendNode (s : State) (b : Bool) (n : NodeId) (m : PMsg) : State :=
  match s.chanTo b n with
  | some id => s.sendChan id m
  | none => s

/-- The messages of a channel that are received and not yet taken, oldest first. -/
def State.chanQueue (s : State) (id : ChanId) : List (Nat × PMsg) := ((s.chan id).map (·.rxq)).getD []

/-- A message is the next of its channel: it stands first among those received, or none waits and the command delivers it
(R117, R118). -/
def State.chanNext (s : State) (id : ChanId) (f : PMsg → Bool) : Bool :=
  match s.chanQueue id with
  | [] => true
  | p :: _ => f p.2

/-- Takes the first message received on a channel. -/
def State.takeP (s : State) (id : ChanId) : State := s.modChan id fun c => { c with rxq := c.rxq.tail }

/-- A Picot message takes effect if it is the next of its channel; a message out of its turn is not this event. -/
def State.onChan (s : State) (id : ChanId) (f : PMsg → Bool) (g : State → State) : State :=
  if s.chanNext id f then g (s.takeP id) else s

/-- The engine that carries a channel. -/
def State.chanEngine (s : State) (id : ChanId) : Nat :=
  match s.chan id with
  | some c => engineOf s.portMode (s.chanPath id c.alt).port 0
  | none => 0

/-- The engine whose port received the next message of a channel (R165). -/
def State.chanRxEngine (s : State) (id : ChanId) : Nat :=
  match s.chanQueue id with
  | p :: _ => p.1
  | [] => s.chanEngine id

/-- Resends every unacknowledged unit from COUNT on (R116, R162). -/
def State.resendChan (s : State) (id : ChanId) : State :=
  match s.chan id with
  | none => s
  | some c =>
    (s.emitUnits c (c.units.length / 64 + 1) c.base c.units).modChan id fun c => { c with timer := s.now }

/-- Takes the COUNT of a received unit: units before it are acknowledged (R113, R116). -/
def State.chanAck (s : State) (id : ChanId) (count : Nat) : State :=
  s.modChan id fun c =>
    let n := (count + 32768 - c.base % 32768) % 32768
    if n ≤ c.units.length ∧ 0 < n then
      { c with base := c.base + n, units := c.units.drop n, timer := s.now
               msgs := c.msgs.filter fun m => decide (c.base + n < m.1) }
    else c

/-- What a received byte stream gives: whole messages and the bytes left (R118). `reads` says whether a RemAnswer's
tag is that of a read. The fuel bounds the messages. -/
def cutStream (reads : Nat → Bool) : Nat → List Byte → List PMsg × List Byte
  | 0, l => ([], l)
  | fuel + 1, l =>
    if l.isEmpty then ([], [])
    else
      match pmsgLen reads l with
      | none => ([], l)
      | some n =>
        if l.length < n ∨ n = 0 then ([], l)
        else
          let r := cutStream reads fuel (l.drop n)
          (match parsePMsg l n with
            | some m => m :: r.1
            | none => r.1, r.2)

/-- Adds a unit's body to the stream: at a message start, opcode 0 pads the rest of the unit (R118). The fuel bounds
the messages of the body. DESIGN CHOICE (log entry 167): R118 does not say what a receiver does with another top-level
opcode than 0x00 and 0x40 to 0x4E; its bytes stay in the stream and no later message of the channel is read. -/
def takeBody (reads : Nat → Bool) : Nat → List Byte → List Byte → List PMsg × List Byte
  | 0, stream, body => ([], stream ++ body)
  | fuel + 1, stream, body =>
    let l := stream ++ body
    if l.isEmpty ∨ bytesAt l 0 1 = 0 then ([], [])
    else
      match pmsgLen reads l with
      | none => ([], l)
      | some n =>
        if l.length < n ∨ n = 0 then ([], l)
        else
          let r := takeBody reads fuel [] (l.drop n)
          (match parsePMsg l n with
            | some m => m :: r.1
            | none => r.1, r.2)

/-- A received unit: its 64 bytes. -/
structure RxUnit where
  body : List Byte
  crc : Nat
  count : Nat
  resume : Bool
  deriving DecidableEq, Repr

/-- Reads a unit. -/
def rxUnit (l : List Byte) : RxUnit :=
  ⟨l.take 60, bytesAt l 60 2, bytesAt l 62 2 % 32768, decide (32768 ≤ bytesAt l 62 2)⟩

/-- The check of R114 of a unit against a running count. -/
def unitGood (run : Nat) (l : List Byte) : Bool :=
  decide ((crc16 (leBytes 2 (run % 32768) ++ l.take 60 ++ (l.drop 62).take 2)).toNat = bytesAt l 60 2)

/-- A good unit arrived on a path: the path is not broken, and a channel that was DOWN resumes from COUNT on it
(R162). -/
def State.chanGood (s : State) (id : ChanId) (alt : Bool) : State :=
  match s.chan id with
  | none => s
  | some c =>
    let s := s.modChan id fun c =>
      { c with lastGood := s.now, brokenP := c.brokenP && alt, brokenQ := c.brokenQ && !alt }
    if c.state = .down ∧ !c.dead then
      ((s.modChan id fun c => { c with state := .up, alt := alt, downSince := none, flushed := false }).resendChan
        id).flushChan id
    else s

/-- True where an RTAG is that of a read from a lender that is under way. -/
def State.readTag (s : State) (t : Nat) : Bool := s.home.rems.any fun r => r.tag.toNat = t && r.kind = 0

/-- Receives the units of a frame in turn (R115). -/
def State.rxUnits (s : State) (id : ChanId) (alt : Bool) (engine : Nat) : Nat → List (List Byte) → State
  | _, [] => s
  | run, l :: rest =>
    match s.chan id with
    | none => s
    | some c =>
      let off := (run + 32768 - c.expect % 32768) % 32768
      if 16384 ≤ off then s.rxUnits id alt engine (run + 1) rest
      else if off ≠ 0 then s.modChan id fun c => { c with discarding := true }
      else if !unitGood run l then
        (s.incFld (F.CDL_RXDISC1_PICOT_CRC engine)).modChan id fun c => { c with discarding := true }
      else
        let u := rxUnit l
        let r := takeBody s.readTag 60 c.stream u.body
        let s := s.modChan id fun c =>
          { c with expect := c.expect + 1, discarding := false, stream := r.2, rxq := c.rxq ++ r.1.map fun m => (engine, m) }
        let s := (s.chanGood id alt).chanAck id u.count
        let s := if u.resume then s.resendChan id else s
        (s.flushChan id).rxUnits id alt engine (run + 1) rest

/-- Cuts a frame's bytes into units. -/
def cutUnits : Nat → List Byte → List (List Byte)
  | 0, _ => []
  | n + 1, l => l.take 64 :: cutUnits n (l.drop 64)

/-- The message of a unit that begins with ChanStart from one node to another, padded to its end (R118, R249). -/
def startOf (src dst : NodeId) (u : List Byte) : Option PMsg :=
  if bytesAt u 0 1 = 0x4E ∧ (u.take 60).drop 24 = List.replicate 36 0 then
    match parsePMsg (u.take 60) 24 with
    | some (.chanStart ev a b bk g ge pv) => if a = src ∧ b = dst then some (.chanStart ev a b bk g ge pv) else none
    | _ => none
  else none

/-- Unit 0 of a frame with FIRST 0 is not the next byte of a message that the channel has begun to receive, so that 0x4E
there is the opcode of a ChanStart (R115, R249). -/
def Chan.opensAt0 (c : Chan) : Bool := decide (c.state = .start) || decide (c.expect % 32768 ≠ 0) || c.stream.isEmpty

/-- Receives a Picot frame: the checks of R111, then its units, or a ChanStart in unit 0 of a frame with FIRST 0
(R112, R115, R249). -/
def State.rxPicot (s : State) (f : RxFrame) : State :=
  let e := engineOf s.portMode f.port 0
  if !(s.port f.port).ready then s
  else if !(s.rxFilter f).2 then (s.rxFilter f).1
  else if (s.takePflip 8 0 e).1 then (s.takePflip 8 0 e).2.record (occObj (bPort e) Cause.port_RXQ_PARITY 7 f.port)
  else if f.etherType.toNat ≠ s.fld F.CDL_ETYPE_PICOT then s
  else
    let n := bytesAt f.body 0 8
    let nunits := bitsOf n 8 8
    let src := BitVec.ofNat 12 (bitsOf n 16 12)
    let first := bitsOf n 48 15
    if bitsOf n 0 4 ≠ 1 ∨ nunits = 0 ∨ 64 < nunits ∨ f.body.length ≠ 8 + 64 * nunits
        ∨ bitsOf n 32 12 ≠ s.node.toNat then s
    else
      let at_ : Path := ⟨f.port, vidOfTag f.tag, f.src⟩
      let onPath (id : ChanId) (alt : Bool) : Bool := (s.chan id).isSome && decide (at_ = s.chanPath id alt)
      let cands : List (ChanId × Bool) :=
        [(⟨false, src⟩, false), (⟨false, src⟩, true), (⟨true, src⟩, false), (⟨true, src⟩, true)]
      match cands.find? fun p => onPath p.1 p.2 with
      | none => s
      | some (id, alt) =>
        let us := cutUnits nunits (f.body.drop 8)
        let u0 := us.headD []
        match s.chan id with
        | none => s
        | some c =>
          match (if first = 0 ∧ c.opensAt0 ∧ unitGood 0 u0 then startOf src s.node u0 else none) with
          | some m => (s.modChan id fun c => { c with rxq := c.rxq ++ [(e, m)] }).chanGood id alt
          | none => if c.state = .start ∨ c.dead then s else s.rxUnits id alt e first us

/-- The channel's current path has broken: the sender moves to the alternate and resends, or the channel is DOWN
(R162). -/
def State.chanBroken (s : State) (id : ChanId) : State :=
  match s.chan id with
  | none => s
  | some c =>
    if c.state ≠ .up ∨ s.now < c.lastGood + 6000 then s
    else
      let s := s.modChan id fun c =>
        { c with brokenP := c.brokenP || !c.alt, brokenQ := c.brokenQ || c.alt }
      let other := if c.alt then c.brokenP else c.brokenQ || !s.chanHasAlt id
      if other then
        (s.modChan id fun c => { c with state := .down, downSince := some s.now, flushed := false }).record
          (occObj bPOOL Cause.pool_CHAN_DOWN 2 id.peer.toNat)
      else (s.modChan id fun c => { c with alt := !c.alt, lastGood := s.now }).resendChan id

/-- The 4 µs replay timer of a channel (R162). It runs on while the channel is DOWN, so that a path that returns is seen.
DESIGN CHOICE (log entry 168): a DOWN channel with an alternate path tries its two paths in turn. -/
def State.chanReplay (s : State) (id : ChanId) : State :=
  match s.chan id with
  | none => s
  | some c =>
    if c.state = .start ∨ c.dead ∨ c.units.isEmpty ∨ s.now < c.timer + 4000 then s
    else
      (s.modChan id fun c => { c with alt := if c.state = .down ∧ s.chanHasAlt id then !c.alt else c.alt }).resendChan id

/-- A sender with nothing to send for 1 µs sends a unit with a BODY of 0 (R162). -/
def State.chanIdle (s : State) (id : ChanId) : State :=
  match s.chan id with
  | none => s
  | some c =>
    if c.state = .start ∨ c.dead ∨ !c.txq.isEmpty ∧ c.state = .up ∨ 1024 ≤ c.units.length ∨ s.now < c.lastSent + 1000 then s
    else
      let body := List.replicate 60 (0 : Byte)
      (s.emitPicot c (c.base + c.units.length) [body]).modChan id fun c =>
        { c with units := c.units ++ [body], timer := if c.units.isEmpty then s.now else c.timer }

end Sys2Proof.Machine
end

