-- ==== Sys2Proof/Machine/Dir.lean ====
section
/-! DEFINITION. The directory: entries, ways, the pseudo-LRU tree, parity (R203 to R211, R219 to R223, R237). -/

namespace Sys2Proof.Machine

/-- The STATE code of R206. -/
def DSt.code : DSt → Nat
  | .free => 0
  | .s => 1
  | .em => 2
  | .o => 3
  | .trans => 4

/-- The state of a code. -/
def dstOf (n : Nat) : DSt := if n = 1 then .s else if n = 2 then .em else if n = 3 then .o else if n = 4 then .trans else .free

/-- Element `i` of a list of agents, 0 where there is none. -/
def agentAt (l : List AgentId) (i : Nat) : Nat := (l.getD i 0).toNat

/-- The 80 bits of an entry (R206). -/
def entBits (e : DirEnt) : BitVec 80 :=
  let tail := if e.fmt then 2 ^ 45 * e.gvec.toNat
    else 2 ^ 45 * e.shr.length + 2 ^ 47 * agentAt e.shr 0 + 2 ^ 57 * agentAt e.shr 1 + 2 ^ 67 * agentAt e.shr 2
  BitVec.ofNat 80 (e.tag.toNat + 2 ^ 30 * e.st.code + 2 ^ 33 * b2n e.opn + 2 ^ 34 * b2n e.fmt + 2 ^ 35 * e.owner.toNat
    + tail)

/-- The entry of 80 bits. -/
def entOf (b : BitVec 80) : DirEnt :=
  let fmt : Bool := bfGet b 34 1 = 1
  let shr := (upto (bfGet b 45 2)).map fun i => (BitVec.ofNat 10 (bfGet b (47 + 10 * i) 10) : AgentId)
  { tag := BitVec.ofNat 30 (bfGet b 0 30), st := dstOf (bfGet b 30 3), opn := bfGet b 33 1 = 1, fmt := fmt
    owner := BitVec.ofNat 10 (bfGet b 35 10), shr := if fmt then [] else shr
    gvec := if fmt then BitVec.ofNat 32 (bfGet b 45 32) else 0 }

/-- The tag of a line, by its number PA / 64 (R204). -/
def lineTag (line : Nat) : BitVec 30 := BitVec.ofNat 30 (line / 65536)

/-- The set of a line (R204). -/
def lineSet (line : Nat) : Nat := (line % 65536) ^^^ (line / 65536 % 65536)

/-- The line that a set and a tag name (R204). -/
def lineOfTag (set : Nat) (tag : BitVec 30) : Nat := tag.toNat * 65536 + (set ^^^ (tag.toNat % 65536))

/-- The number of a set in both dies. -/
def setNo (die set : Nat) : Nat := die * 65536 + set

/-- The key of a way. -/
def wayNo (die set w : Nat) : Nat := setNo die set * 16 + w

/-- The line of a way, by its key. -/
def wayLine (k : Nat) (e : DirEnt) : Nat := lineOfTag (k / 16 % 65536) e.tag

/-- A free entry. -/
def freeEnt : DirEnt := ⟨0, .free, false, false, 0, [], 0⟩

/-- A way's record; an unlisted way is FREE. -/
def State.way (s : State) (k : Nat) : Way := (tget s.home.dir k).getD ⟨freeEnt, 0, 0, false⟩

/-- Stores a way's record; a FREE way with good parity is not listed. -/
def State.putWay (s : State) (k : Nat) (w : Way) : State :=
  { s with home.dir :=
      if w.ent.st = .free ∧ w.eBad = 0 ∧ w.mBad = 0 then tdel s.home.dir k else tput s.home.dir k w }

/-- Marks the way of a line that a transaction opens, or clears the mark. -/
def State.markWay (s : State) (k : Nat) (opn : Bool) : State :=
  let w := s.way k
  s.putWay k { w with ent := { w.ent with opn := opn } }

/-- Writes an entry; an armed DIR_PFLIP for the way's die gives it wrong parity and disarms (R237). -/
def State.writeEnt (s : State) (k : Nat) (e : DirEnt) : State :=
  if s.bit F.DIR_PFLIP_ARM ∧ s.fld F.DIR_PFLIP_DIE = k / 2 ^ 20 then
    (s.setFld F.DIR_PFLIP_ARM 0).putWay k
      ⟨e, BitVec.ofNat 10 (s.fld F.DIR_PFLIP_EBYTES), BitVec.ofNat 4 (s.fld F.DIR_PFLIP_MBYTES), false⟩
  else s.putWay k ⟨e, 0, 0, false⟩

/-- The agent is a listed sharer (R169). -/
def isSharer (e : DirEnt) (a : AgentId) : Bool :=
  if e.fmt then e.gvec.getLsbD (a.toNat / 32) else e.shr.contains a

/-- The entry has a listed owner. -/
def hasOwner (e : DirEnt) : Bool := decide (e.st = .em) || decide (e.st = .o)

/-- The agent is the listed owner. -/
def isOwner (e : DirEnt) (a : AgentId) : Bool := hasOwner e && decide (e.owner = a)

/-- The sharer set is empty. -/
def noSharers (e : DirEnt) : Bool := if e.fmt then decide (e.gvec = 0) else e.shr.isEmpty

/-- Adds a sharer; a fourth makes the entry coarse (R208). -/
def addSharer (e : DirEnt) (a : AgentId) : DirEnt :=
  if e.fmt then { e with gvec := e.gvec ||| (1 <<< (a.toNat / 32)) }
  else if e.shr.contains a then e
  else if e.shr.length < 3 then { e with shr := e.shr ++ [a] }
  else
    { e with fmt := true, shr := []
             gvec := (a :: e.shr).foldl (fun g x => g ||| (1 <<< (x.toNat / 32))) 0 }

/-- Removes a sharer; a coarse vector does not change (R209). -/
def delSharer (e : DirEnt) (a : AgentId) : DirEnt := if e.fmt then e else { e with shr := e.shr.filter (· ≠ a) }

/-- An entry with no sharers and FMT 0 (R208). -/
def clearSharers (e : DirEnt) : DirEnt := { e with fmt := false, shr := [], gvec := 0 }

/-- The entry without its owner: S with its sharers, or I (STATE TRANS while its line is open). -/
def dropOwner (e : DirEnt) : DirEnt :=
  { e with owner := 0, st := if noSharers e then .trans else .s }

/-- An S entry whose sharer set has become empty is in I. -/
def settleEnt (e : DirEnt) : DirEnt := if e.st = .s ∧ noSharers e then { clearSharers e with st := .trans } else e

/-- Takes an agent that answered NEWSTATE I out of an entry. -/
def dropAgent (e : DirEnt) (a : AgentId) : DirEnt :=
  if isOwner e a then dropOwner e else settleEnt (delSharer e a)

/-- The entry EM {A}. -/
def emOf (e : DirEnt) (a : AgentId) : DirEnt := { clearSharers e with st := .em, owner := a }

/-- The entry in I, still open. -/
def inI (e : DirEnt) : DirEnt := { clearSharers e with st := .trans, owner := 0 }

/-- The agents that an entry lists: under FMT 1 every agent in use of every marked group (R169, R209). -/
def State.sharersOf (s : State) (e : DirEnt) : List AgentId :=
  if e.fmt then s.agentsInUse.filter fun a => e.gvec.getLsbD (a.toNat / 32) && !isOwner e a else e.shr

/-- Every listed agent: the owner first, then the sharers. -/
def State.listedOf (s : State) (e : DirEnt) : List AgentId :=
  (if hasOwner e then [e.owner] else []) ++ s.sharersOf e

/-- The tree of a set. -/
def State.treeOf (s : State) (k : Nat) : BitVec 15 := sget (fun _ => 0) s.home.tree k

/-- Uses a way: each node on its path points away from it (R210). -/
def touchTree (t : BitVec 15) (w : Nat) : BitVec 15 :=
  (upto 4).foldl (fun t d =>
    let n := (16 + w) / 2 ^ (4 - d)
    let child := (16 + w) / 2 ^ (3 - d)
    bfSet t (n - 1) 1 (1 - child % 2)) t

/-- True where node `n` at depth `d` covers one of the candidate ways. -/
def covers (cands : List Nat) (n d : Nat) : Bool := cands.any fun w => (16 + w) / 2 ^ (4 - d) = n

/-- The walk to the least recently used candidate (R210). -/
def walkTree (t : BitVec 15) (cands : List Nat) : Nat → Nat → Nat
  | 0, n => n - 16
  | k + 1, n =>
    let c := 2 * n + bfGet t (n - 1) 1
    walkTree t cands k (if covers cands c (4 - k) then c else 4 * n + 1 - c)

/-- Uses a way of a set. -/
def State.touch (s : State) (k : Nat) : State :=
  { s with home.tree := sput (fun _ => 0) s.home.tree (k / 16) (touchTree (s.treeOf (k / 16)) (k % 16)) }

/-- The occurrence of a DIR cause about a line. -/
def dirOcc (code line : Nat) : Occ := occObj bDIR code 1 (64 * line)

/-- Blinds a way (R219, R223). -/
def State.blindWay (s : State) (k line : Nat) : State :=
  let s := { s with home.dir := tdel s.home.dir k, home.blind := s.home.blind ++ [k] }
  let s := (((s.satFld F.DIR_BLIND_COUNT 1).setFld F.DIR_BLIND_SET (k / 16 % 65536)).setFld F.DIR_BLIND_DIE
    (k / 2 ^ 20)).setFld F.DIR_BLIND_WAY (k % 16)
  s.recordPa (dirOcc Cause.dir_BLIND_WAY line)

/-- Checks the mirror of one way at a lookup (R219); a way with a transaction open is left until it closes (R221). -/
def State.checkMirror (s : State) (k : Nat) : State :=
  let w := s.way k
  if w.mBad = 0 then s
  else if w.ent.opn then s.putWay k { w with found := true }
  else if w.eBad &&& 0xF = 0 then
    (s.putWay k { w with mBad := 0 }).recordPa (dirOcc Cause.dir_TAG_PARITY (wayLine k w.ent))
  else s.blindWay k (wayLine k w.ent)

/-- The ways of a set, by key. -/
def waysOf (die set : Nat) : List Nat := (upto 16).map (wayNo die set)

/-- What a lookup finds: no way, a good way, or a way whose entry failed parity (R219). -/
inductive Look where
  | miss
  | hit (k : Nat)
  | bad (k : Nat)
  deriving DecidableEq, Repr

/-- Looks a line up on its home die: the mirrors of its set are checked, then the matching entry (R207, R219). -/
def State.lookup (s : State) (die line : Nat) (tenant : Nat) : State × Look :=
  let s := s.count 14 1 1 (some tenant)
  let ks := waysOf die (lineSet line)
  let s := ks.foldl (fun s k => s.checkMirror k) s
  match ks.find? fun k => (s.way k).ent.st ≠ .free ∧ (s.way k).ent.tag = lineTag line with
  | none => (s, .miss)
  | some k =>
    let w := s.way k
    let s := s.touch k
    if w.eBad = 0 then (s, .hit k)
    else if w.ent.opn then (s.putWay k { w with found := true }, .hit k)
    else if w.eBad &&& 0x3F8 = 0 then
      ((s.putWay k { w with eBad := 0 }).recordPa (dirOcc Cause.dir_TAG_PARITY line), .hit k)
    else (s, .bad k)

/-- The classes from which a victim is taken (R210). -/
def victimClass (e : DirEnt) : Nat :=
  if e.st = .s then (if e.fmt then 1 else 0) else if e.st = .em then 2 else 3

/-- A way for a line that has none: a FREE one, or a victim's (R210). -/
def State.pickWay (s : State) (die line : Nat) : Option Nat :=
  let ks := (waysOf die (lineSet line)).filter fun k => !s.home.blind.contains k
  match ks.find? fun k => (s.way k).ent.st = .free with
  | some k => some k
  | none =>
    let closed := ks.filter fun k => !(s.way k).ent.opn
    match (upto 4).find? fun c => closed.any fun k => victimClass (s.way k).ent = c with
    | none => none
    | some c =>
      let cands := (closed.filter fun k => victimClass (s.way k).ent = c).map (· % 16)
      some (wayNo die (lineSet line) (walkTree (s.treeOf (setNo die (lineSet line))) cands 4 1))

/-- A set with a blinded way (R223). -/
def State.setBlinded (s : State) (die line : Nat) : Bool :=
  s.home.blind.any fun k => k / 16 = setNo die (lineSet line)

end Sys2Proof.Machine
end

