-- ==== Sys2Proof/Machine/HomeBase.lean ====
section
/-! DEFINITION. What the home's transactions share: responses, NAKs, snoops, stored data and the records of open lines
(R154 to R158, R166 to R188, R212 to R217, R264, R298). -/

namespace Sys2Proof.Machine

/-- Completion codes (R109). -/
def stOK : Nat := 0
def stPOISON : Nat := 1
def stKEY : Nat := 2
def stDECOMP : Nat := 3
def stNOXL : Nat := 5
def stDENIED : Nat := 6
def stDEAD : Nat := 7
def stSTALE : Nat := 8
def stBUSY : Nat := 9
def stCONFLICT : Nat := 10
def stMIGRATING : Nat := 11
def stINTERNAL : Nat := 15

/-- Parts of a request at its home. -/
def HReq.pa (h : HReq) : Nat := h.req.hdr.addr.toNat
def HReq.line (h : HReq) : Nat := h.pa / 64
def HReq.linePa (h : HReq) : Nat := 64 * h.line
def HReq.tenant (h : HReq) : Nat := h.req.hdr.tenant.toNat
def HReq.agent (h : HReq) : AgentId := h.req.hdr.agent
def HReq.die (h : HReq) : Nat := slotDie h.slot
def HReq.page (h : HReq) : Nat := pageIdx h.slot h.pa
def HReq.who (h : HReq) : Who := ⟨h.req.hdr.txid.toNat, some h.tenant, h.linePa⟩

/-- Requests that grant a cached state (R168). -/
def grants (op : ReqOp) : Bool := decide (op = .readShared) || decide (op = .readOwn) || decide (op = .upgrade)

/-- Coherent requests (R149). -/
def coherent (op : ReqOp) : Bool :=
  grants op || decide (op = .writeBack) || decide (op = .evictClean) || decide (op = .fence)

/-- Requests whose execution leaves a result-cache entry (R155). -/
def keepsResult (op : ReqOp) : Bool := op.isAtomic || decide (op = .writeNoCache)

/-- A write of a request, as R274 and R286 count one. -/
def reqWrites (r : Req) : Bool :=
  r.op.isAtomic || decide (r.op = .writeBack) || (decide (r.op = .writeNoCache) && decide (r.mask ≠ 0))

/-- Requests that a migration holds off (R281). -/
def writesPage (op : ReqOp) : Bool := op.isAtomic || decide (op = .writeNoCache) || decide (op = .writeBack)

/-- The fields that every response takes from its request (R106). -/
def baseResp (r : Req) (op : RespOp) (status : Nat) (pa : Nat) : Resp where
  op := op
  status := BitVec.ofNat 4 status
  consumed := false
  tenant := r.hdr.tenant
  txid := r.hdr.txid
  agent := r.hdr.agent
  pa := BitVec.ofNat 52 pa
  hint := 0
  epoch := 0
  redirect := 0
  line := 0
  old := 0

/-- A NAK (R188). -/
def nakResp (r : Req) (status hint : Nat) : Resp := { baseResp r .nak status 0 with hint := BitVec.ofNat 16 hint }

/-- An agent is detached (R158). -/
def State.isDetached (s : State) (a : AgentId) : Bool := s.link.detached.any fun e => e.1 = a

/-- The request that a response answers at this member, and what is left (R153). -/
def State.takeOReq (s : State) (k : Nat) (txid : Txid) : Option OReq × State :=
  let f (o : OReq) : Bool := decide (o.conn = k) && decide (o.req.hdr.txid = txid) && decide (o.req.op ≠ .evictClean)
  (s.home.oreqs.find? f, { s with home.oreqs := s.home.oreqs.filter fun o => !f o })

/-- Delivers a response to a connection of this member; `home` is the node that a release must go to. On a closed
connection a non-coherent response is discarded and its result freed (R156 to R158). -/
def State.deliverResp (s : State) (k : Nat) (r : Resp) (home : NodeId) : State :=
  match s.takeOReq k r.txid with
  | (none, s) => s
  | (some o, s) =>
    let final := decide (r.op ≠ .nak) && decide (r.status = 0)
    let rel : Option Rel :=
      if final ∧ (grants o.req.op ∨ keepsResult o.req.op) then
        some ⟨home, BitVec.ofNat 16 k, r.txid, grants o.req.op⟩ else none
    let alive : Bool := match s.conn k with
      | some c => decide (c.opened = o.opened)
      | none => false
    if alive then s.queueMsg k ⟨.resp r, rel, coherent o.req.op⟩
    else
      match rel with
      | some x => if x.coh then s else { s with link.rels := s.link.rels ++ [x] }
      | none => s

/-- Sends a response over Picot to an origin of a bank; `coh` says whether its request is coherent (R149, R245). -/
def State.sendResp (s : State) (b : Bool) (origin : NodeId) (oconn : ConnId) (coh : Bool) (r : Resp) : State :=
  let m : PMsg := .fwdToOrigin ⟨origin, oconn, 0, 0⟩ (.resp r)
  match s.chanTo b origin with
  | none => s
  | some id => if coh then s.sendChan id m else s.sendLoose id m

/-- A response to a non-coherent request that R149 discards at once: GRACE has expired on the channel to its origin. -/
def State.respLost (s : State) (h : HReq) : Bool :=
  !coherent h.req.op && decide (h.key.origin ≠ s.node) && (match s.chanTo h.bank h.key.origin with
    | some id => s.chanFlushed id
    | none => false)

/-- Sends a response to the member that holds the requester's connection (R245), with the agent named as the request
named it (R264, R265). One that R149 discards frees its result-cache entry. -/
def State.respond (s : State) (h : HReq) (r : Resp) : State :=
  let r := { r with agent := h.named }
  if h.key.origin = s.node then s.deliverResp h.key.oconn.toNat r s.node
  else if s.respLost h then { s with home.results := s.home.results.filter fun e => e.key ≠ h.key }
  else s.sendResp h.bank h.key.origin h.key.oconn (coherent h.req.op) r

/-- Answers a request with an error completion (R201); an EvictClean gets none (R60). -/
def State.respondErr (s : State) (h : HReq) (status : Nat) : State :=
  if h.req.op = .evictClean then s
  else
    let s := if status = stNOXL then s.incFld F.TRN_REFUSE_NOXL
      else if status = stDENIED then s.incFld F.TRN_REFUSE_DENIED else s
    s.respond h (baseResp h.req .ack status h.linePa)

/-- The counter of a NAK's reason. -/
def nakFld (status : Nat) : Fld :=
  if status = stSTALE then F.DIR_NAKCNT_STALE else if status = stBUSY then F.DIR_NAKCNT_BUSY
  else if status = stCONFLICT then F.DIR_NAKCNT_CONFLICT else F.DIR_NAKCNT_MIGRATING

/-- Sends a NAK (R188). -/
def State.nak (s : State) (h : HReq) (status hint : Nat) : State :=
  let s := s.incFld (nakFld status)
  let s := if status = stCONFLICT then s.count 14 3 1 (some h.tenant) else s
  s.respond h (nakResp h.req status hint)

/-- Puts values into registers, each under a mask. -/
def State.putMasked (s : State) (l : List (Nat × Word × Word)) : State :=
  l.foldl (fun s v => s.setReg v.1 ((s.reg v.1 &&& ~~~v.2.1) ||| (v.2.2 &&& v.2.1))) s

/-- The register values that the commits after the first `g` have replaced. -/
def State.replaced (s : State) (g : Nat) : List (Nat × Word × Word) := (s.home.confOld.filter fun e => g ≤ e.1).flatMap (·.2)

/-- The module with the settings that stood after `g` commits (R33). -/
def State.asOf (s : State) (g : Nat) : State :=
  if (s.replaced g).isEmpty then s else s.putMasked (s.replaced g).reverse

/-- Runs a step under the settings that stood after `g` commits (R33): what later commits replaced is put back for it, the
oldest value last, and the settings in force return after it. -/
def State.under (s : State) (g : Nat) (f : State → State) : State :=
  let old := s.replaced g
  if old.isEmpty then f s
  else
    let now := old.map fun v => (v.1, v.2.1, s.reg v.1)
    (f (s.putMasked old.reverse)).putMasked now

/-- The open transaction of a line. -/
def State.tx (s : State) (line : Nat) : Option HTx := tget s.home.txs line

/-- Runs a step of a line's transaction under the settings of its request (R33). -/
def State.forTx (s : State) (line : Nat) (f : State → State) : State :=
  match s.tx line with
  | some t => match t.req with
    | some h => s.under h.conf f
    | none => f s
  | none => f s

/-- Stores a transaction. -/
def State.putTx (s : State) (t : HTx) : State := { s with home.txs := tput s.home.txs t.line t }

/-- Changes a transaction. -/
def State.modTx (s : State) (line : Nat) (f : HTx → HTx) : State := { s with home.txs := tmod s.home.txs line f }

/-- The transaction whose recall has this line as its victim (R212). -/
def State.recallOf (s : State) (line : Nat) : Option HTx :=
  (s.home.txs.find? fun e => match e.2.rcl with
    | some r => r.line = line
    | none => false).map (·.2)

/-- Lines that the new holder of a handed-off role does not know yet, or that are residual there (R258). -/
def State.hoffBlocked (s : State) (line : Nat) : Bool :=
  s.home.hoff.newHolder && (s.home.hoff.residual.contains line
    || (!s.home.hoff.all && !s.home.hoff.known.contains line))

/-- A line is open (R168, R212, R258). -/
def State.lineOpen (s : State) (line : Nat) : Bool :=
  (s.tx line).isSome || (s.recallOf line).isSome || s.hoffBlocked line

/-- A request is parked on the line. -/
def State.parkedOn (s : State) (line : Nat) : Bool := s.home.parked.any fun h => h.line = line

/-- The key of a transaction still open, held or parked (R154). -/
def State.keyOpen (s : State) (k : TxKey) : Bool :=
  s.home.parked.any (fun h => h.key = k) || s.home.txs.any fun e =>
    (match e.2.req with
      | some h => decide (h.key = k)
      | none => false) || e.2.held.any (fun h => h.key = k) || e.2.acks.any (fun h => h.key = k)
      || (match e.2.rcl with
        | some r => r.held.any (fun h => h.key = k) || r.acks.any (fun h => h.key = k)
        | none => false)

/-- The connection that carries an agent's snoops: the most recently opened that declared SNOOP 1 for it (R96). -/
def State.snoopConn (s : State) (a : AgentId) : Option Nat :=
  let l := s.link.conns.filter fun e => e.2.agv && e.2.snoop && decide (e.2.agent = a)
  (l.foldl (fun b e => match b with
    | none => some e
    | some x => if x.2.opened ≤ e.2.opened then some e else b) (none : Option (Nat × Conn))).map (·.1)

/-- Sends a snoop to an agent whose connection this member holds, or holds it (R96, R158); `asked` is the agent as the
home names it. -/
def State.memberSnoop (s : State) (home : Option ChanId) (p : Snp) (asked : AgentId) : State :=
  let conn := if s.isDetached p.agent then none else s.snoopConn p.agent
  let s := { s with home.fwdSnps := s.home.fwdSnps ++ [⟨home, p, asked, conn.isSome, none⟩] }
  match conn with
  | some k => s.queueMsg k ⟨.snp p, none, true⟩
  | none => s

/-- Sends the snoops held for agents whose snooping connection has opened (R96). -/
def State.flushSnoops (s : State) : State :=
  let go (f : FwdSnp) : Option Nat :=
    if f.sent ∨ f.relay.isSome ∨ s.isDetached f.snp.agent then none else s.snoopConn f.snp.agent
  let ready := s.home.fwdSnps.filterMap fun f => (go f).map fun k => (k, f.snp)
  let s' := { s with home.fwdSnps := s.home.fwdSnps.map fun f => if (go f).isSome then { f with sent := true } else f }
  ready.foldl (fun s p => s.queueMsg p.1 ⟨.snp p.2, none, true⟩) s'

/-- Sends a snoop on a channel. -/
def State.chanSnoop (s : State) (b : Bool) (n : NodeId) (p : Snp) : State :=
  s.sendNode b n (.fwdToOrigin ⟨n, 0, 0, 0⟩ (.snp p))

/-- A snoop for an agent of bank `b`: to this member's connection, to the member that the agent table names, or for a
proxied agent to the other pool (R96, R264, R265). -/
def State.routeSnoop (s : State) (b : Bool) (home : Option ChanId) (p : Snp) : State :=
  let n := s.memNode b (s.agMember b p.agent)
  if n ≠ s.node then s.chanSnoop b n p
  else if !s.agProxy b p.agent then s.memberSnoop home p p.agent
  else
    let q : Snp := { p with agent := s.agOther b p.agent }
    let n2 := s.memNode (!b) (s.agMember (!b) q.agent)
    if n2 = s.node then s.memberSnoop home q p.agent
    else
      ({ s with home.fwdSnps := s.home.fwdSnps ++ [(⟨home, q, p.agent, true, some ⟨!b, n2⟩⟩ : FwdSnp)] } : State).sendChan
        ⟨!b, n2⟩ (.fwdToOrigin ⟨n2, 0, 0, 0⟩ (.snp q))

/-- The next SNPTX: a counter that skips 0. -/
def State.nextSnptx (s : State) : BitVec 16 × State :=
  let n : BitVec 16 := if s.home.snptx = 0xFFFF then 1 else s.home.snptx + 1
  (n, { s with home.snptx := n })

/-- Sends one snoop for a line and answers its record (R107, R215). -/
def State.sendSnoop (s : State) (line slot : Nat) (kind : SnpOp) (owner : Bool) (a : AgentId) : State × SnpOut :=
  let (n, s) := s.nextSnptx
  let t := dOwner (s.desc (pageIdx slot (64 * line)))
  let s := s.count 14 2 1 (some t)
  (s.routeSnoop false none ⟨kind, BitVec.ofNat 12 t, n, a, BitVec.ofNat 52 (64 * line)⟩, ⟨a, kind, n, owner, none, false⟩)

/-- Sends snoops to several agents. -/
def State.sendSnoops (s : State) (line slot : Nat) (l : List (AgentId × SnpOp × Bool)) : State × List SnpOut :=
  l.foldl (fun r p => let (s, o) := r.1.sendSnoop line slot p.2.1 p.2.2 p.1; (s, r.2 ++ [o])) (s, [])

/-- The next RTAG. -/
def State.nextTag (s : State) : BitVec 16 × State := (s.home.rtag, { s with home.rtag := s.home.rtag + 1 })

/-- The LGEN of a lender, as its last LendGrant gave it (R297, R300). -/
def State.lenderGen (s : State) (n : Nat) : BitVec 32 := (tget s.mem.lenderGens n).getD 0

/-- Sends a line access to a page's lender and records that it waits (R298, R300). -/
def State.remAccess (s : State) (pk pa kind : Nat) (data : Line) (mig : Bool) : State :=
  let d := s.desc pk
  let (tag, s) := s.nextTag
  let lender : NodeId := BitVec.ofNat 12 (dLender d)
  let s := { s with home.rems := s.home.rems ++ [(⟨tag, pk, pa, lender, kind, dFrame d, data, mig⟩ : RemWait)] }
  s.sendNode false lender (.remAccess (BitVec.ofNat 2 kind) s.node tag (BitVec.ofNat 6 (lineOf pa))
    (BitVec.ofNat 32 (dFrame d)) (s.lenderGen (dLender d)) 0 0 0 false 0 data)

/-- An access to a lender is under way for a line. -/
def State.remBusy (s : State) (line : Nat) : Bool := s.home.rems.any fun r => r.pa / 64 = line && !r.mig

/-- A fill of a warm page's segments can succeed later: its channel, a decompressor and its key are at hand (R328, R329,
R354). -/
def State.mayFill (s : State) (pk : Nat) : Bool :=
  let d := s.desc pk
  s.chReady (frameChan (dFrame d)) && decide (s.decUp (pageDie pk) ≠ 0)
    && s.keyUsable (pageDie pk) (s.keySlotOf (dOwner d) (dKsel d))

/-- Writes a whole line to a page's stored data, whatever the free frames: data that cannot be refused (R181, R213,
R215). A migration of the page is abandoned (R283), but for the promotion that a line of a poisoned segment waits for (R322).
The answer `migrating` says that the line waits: for that promotion, for a frame, or for a way of the segment cache. -/
def State.forceLine (s : State) (w : Who) (slot pa : Nat) (d : Line) : State × MemRes Unit :=
  let pk := pageIdx slot pa
  let t := dTier (s.desc pk)
  let full : BitVec 64 := BitVec.allOnes 64
  if t = tierREMOTE then
    let s := s.abandonMig pk
    match s.encrypt w (pageDie pk) (dOwner (s.desc pk)) (dKsel (s.desc pk)) pa (dGen (s.desc pk)) d with
    | (s, some c) => (s.remAccess pk pa 1 c false, .ok ())
    | (s, none) => (s.poisonBit pk (lineOf pa), .internal)
  else if t = tierZERO then
    match s.makeHot w pk (pageOf pa) (fun i => if i = lineOf pa then d else 0) with
    | (s, true) => (s, .ok ())
    | (s, false) =>
      (s, if s.keyUsable (pageDie pk) (s.keySlotOf (dOwner (s.desc pk)) (s.curOf (dOwner (s.desc pk)))) then .migrating
        else .internal)
  else if t = tierWARM then
    if s.segLost pk (lineOf pa / 16) then (s.promotePoisoned pk pa, .migrating)
    else
      match (s.abandonMig pk).writeWarm w pk pa full d with
      | (s, .ok _) => (s.absorbMerge (pa / 64), .ok ())
      | (s, .migrating) => (s, .migrating)
      | (s, .internal) => if s.mayFill pk then (s, .migrating) else (s.poisonSeg pk (lineOf pa / 16), .internal)
      | (s, _) => (s.promotePoisoned pk pa, .migrating)
  else
    match (s.abandonMig pk).writeLine w pk pa full d with
    | (s, .ok _) => (s, .ok ())
    | (s, r) => (s.poisonBit pk (lineOf pa), r)

/-- The line of a page is poisoned (R183). -/
def State.linePoisoned (s : State) (pk pa : Nat) : Bool :=
  let d := s.desc pk
  if dTier d = tierWARM then s.segLost pk (lineOf pa / 16)
  else if dTier d = tierZERO then false
  else (dPoison d).getLsbD (lineOf pa)

/-- Poisons a line whose owner has lost its data (R160, R202). -/
def State.poisonAt (s : State) (slot pa : Nat) : State := s.poisonLine (pageIdx slot pa) pa

/-- The NEWSTATE values of each column of R176. -/
def columnHas (k : SnpOp) (n : Nat) : Bool :=
  match k with
  | .shared => decide (n = 0) || decide (n = 1) || decide (n = 3)
  | .invalid => decide (n = 0)
  | .ownerFwd => decide (n ≤ 4)

/-- The response is allowed (R178); in a recovery every agent counts as possibly the owner (R222). -/
def ansAllowed (o : SnpOut) (a : SnpAns) : Bool :=
  columnHas o.kind a.newState && (!(a.dirty && a.data.isSome) || o.owner)

/-- Every snoop is answered and none waits for a WriteBack (R216). -/
def snoopsDone (l : List SnpOut) : Bool :=
  l.all fun o => match o.ans with
    | some a => !a.wbif
    | none => false

/-- The plain response I. -/
def ansI : SnpAns := ⟨0, false, false, none⟩

/-- The agents of a list of snoops that answered WBIF 1 or have not answered (R215). -/
def snoopOpen (l : List SnpOut) (a : AgentId) : Bool :=
  l.any fun o => decide (o.agent = a) && (match o.ans with
    | some x => x.wbif
    | none => true)

/-- The dirty data that listed owners returned, with their agents. -/
def dirtyOf (l : List SnpOut) : List (AgentId × Line) :=
  l.filterMap fun o => match o.ans with
    | some a => if a.dirty ∧ o.owner then a.data.map fun d => (o.agent, d) else none
    | none => none

/-- The data that the listed owner returned, with its dirty flag (R176, R179). -/
def ownerData (l : List SnpOut) : Option (Line × Bool) :=
  (l.filterMap fun o => match o.ans with
    | some a => if o.owner then a.data.map fun d => (d, a.dirty) else none
    | none => none).head?

end Sys2Proof.Machine
end

