-- ==== Sys2Proof/Machine/Home.lean ====
section
/-! DEFINITION. The home's transactions: snoops and their answers, memory work, responses, recalls, recoveries and
closes (R179 to R194, R212 to R217, R221 to R223, R226 to R234). -/

namespace Sys2Proof.Machine

/-- A WriteBack's Ack (R174, R187, R215). -/
def wbAck (h : HReq) (consumed : Bool) : Resp := { baseResp h.req .ack 0 h.linePa with consumed := consumed }

/-- An access that a request makes once it is accepted (R274). -/
def State.accessOf (s : State) (h : HReq) : State := s.access h.page h.linePa (reqWrites h.req)

/-- Answers a WriteBack that is accepted, with its data taken or discarded (R187, R215). -/
def State.ackWb (s : State) (h : HReq) (consumed : Bool) : State := (s.accessOf h).respond h (wbAck h consumed)

/-- Answers the WriteBacks that a line has taken, once no write to a lender is under way (R215, R298). -/
def State.flushAcks (s : State) (line : Nat) : State :=
  match s.tx line with
  | none => s
  | some t =>
    if s.remBusy line ∨ t.pend.isSome then s
    else t.acks.foldl (fun s h => s.ackWb h true) (s.modTx line fun t => { t with acks := [] })

/-- Writes a line that cannot be refused, for a transaction: it waits in the transaction while its page is promoted
(R322). -/
def State.putPend (s : State) (line : Nat) (w : Who) (slot pa : Nat) (d : Line) : State :=
  match s.forceLine w slot pa d with
  | (s, .migrating) => s.modTx line fun t => { t with pend := some d }
  | (s, _) => s

/-- The entry after one agent's answer (R179). -/
def applyAns (e : DirEnt) (o : SnpOut) : DirEnt :=
  match o.ans with
  | none => e
  | some a =>
    if a.newState = 0 then dropAgent e o.agent
    else if o.kind = .shared ∧ e.st = .em ∧ isOwner e o.agent then
      if a.newState = 3 then { e with st := .o }
      else { clearSharers e with st := .s, owner := 0, shr := [o.agent] }
    else e

/-- Requests whose snoops are SnpInvalid (R179). -/
def invalidates (r : Req) : Bool :=
  decide (r.op = .readOwn) || decide (r.op = .upgrade) || r.op.isAtomic
    || (decide (r.op = .writeNoCache) && decide (r.mask ≠ 0))

/-- The entry as the snoops left it (R185, R201, R208). -/
def leftEnt (t : HTx) : DirEnt :=
  let e := t.snoops.foldl applyAns t.ent
  match t.req with
  | none => e
  | some h =>
    if e.fmt ∧ invalidates h.req then
      let a := h.agent
      let keep := (h.req.op = .readOwn ∨ h.req.op = .upgrade) ∧ isSharer t.ent a ∧ !isOwner t.ent a
      let e' := if keep then { clearSharers e with shr := [a] } else clearSharers e
      settleEnt (if hasOwner e' then e' else { e' with st := .s })
    else e

/-- The snoops of R179: agent, kind, and whether it is the listed owner. -/
def State.targets (s : State) (e : DirEnt) (r : Req) : List (AgentId × SnpOp × Bool) :=
  let own (k : SnpOp) := if hasOwner e then [(e.owner, k, true)] else []
  let inv (f : AgentId → Bool) := ((s.listedOf e).filter f).map fun a => (a, SnpOp.invalid, isOwner e a)
  match r.op with
  | .readShared => own .shared
  | .readNoCache => own .ownerFwd
  | .readOwn => inv fun a => a ≠ r.hdr.agent
  | .upgrade => inv fun a => a ≠ r.hdr.agent
  | _ => if invalidates r then inv fun _ => true else []

/-- An Upgrade that is answered with Ack (R179). -/
def upgradeAck (e : DirEnt) (a : AgentId) : Bool := isOwner e a || isSharer e a

/-- The recovery of a way that failed while its line was open starts at the close (R221, R222): SnpInvalid goes to every
agent in use. -/
def State.recoverSnoops (s : State) (line slot : Nat) : State × List SnpOut :=
  s.sendSnoops line slot (s.agentsInUse.map fun a => (a, SnpOp.invalid, true))

/-- A transaction record in its first phase. -/
def freshTx (line slot way : Nat) (ent : DirEnt) (req : Option HReq) (phase : Phase) : HTx where
  line := line
  slot := slot
  way := way
  ent := ent
  req := req
  phase := phase
  snoops := []
  held := []
  data := none
  stored := none
  newLine := none
  old := 0
  pend := none
  acks := []
  rcl := none
  note := none
  tag := 0
  wait := []
  due := 0
  drop := false
  lost := false
  bad := false

/-- Starts a broadcast recovery of a line on a way (R222); `report` where the fault is recorded (R223). -/
def State.startRecovery (s : State) (line slot way : Nat) (req : Option HReq) (held : List HReq) (report : Bool)
    (rcl : Option Recall) : State :=
  let (first, s) := if report then s.recordRegs (dirOcc Cause.dir_ENTRY_PARITY line) else (false, s)
  let e : DirEnt := { freeEnt with tag := lineTag line, st := .trans, opn := true }
  let s := s.putTx { freshTx line slot way e req .recovery with
    held := held, note := if report then some first else none, rcl := rcl }
  let (s, l) := s.recoverSnoops line slot
  s.modTx line fun t => { t with snoops := l }

/-- Closes a line whose transaction has finished, unless its recall, a lender or a promotion still holds it (R168,
R212); a way found bad meanwhile is recovered first (R221), and an entry in I leaves its way FREE (R205). -/
def State.closeTx (s : State) (line : Nat) : State :=
  match s.tx line with
  | none => s
  | some t =>
    if t.rcl.isSome ∨ s.remBusy line ∨ t.pend.isSome ∨ !t.acks.isEmpty then
      s.modTx line fun t => { t with phase := .done }
    else
      let w := s.way t.way
      if w.found then s.startRecovery line t.slot t.way none [] true none
      else
        let s := { s with home.txs := tdel s.home.txs line }
        if w.ent.st = .trans ∨ w.ent.st = .free then s.writeEnt t.way freeEnt
        else s.putWay t.way { w with ent := { w.ent with opn := false } }

/-- A WriteBack held for a snoop whose answer was not WBIF 1 is applied under R179 to the entry that results (R215). -/
def State.lateWb (s : State) (t : HTx) (e : DirEnt) (h : HReq) : State × DirEnt :=
  let owner := t.snoops.any fun o => o.agent = h.agent ∧ o.owner
  if !owner then (s.record { dirOcc Cause.dir_STRAY_WB t.line with txid := h.req.hdr.txid.toNat, tenant := some h.tenant }, e)
  else if isOwner e h.agent then
    ((s.putPend t.line h.who h.slot h.linePa h.req.data).traffic h.tenant 0 64 0, dropOwner e)
  else (s, e)

/-- Applies every WriteBack still held, and answers it. -/
def State.lateWbs (s : State) (line : Nat) (e : DirEnt) : State × DirEnt :=
  match s.tx line with
  | none => (s, e)
  | some t =>
    let (s, e) := t.held.foldl (fun r h => r.1.lateWb t r.2 h) (s, e)
    ((s.modTx line fun t => { t with acks := t.acks ++ t.held, held := [] }).flushAcks line, e)

/-- What a completed request adds to its tenant's traffic (R402). -/
def State.meterResp (s : State) (h : HReq) (r : Resp) : State :=
  if r.status ≠ 0 then s
  else
    match h.req.op with
    | .writeNoCache => s.traffic h.tenant 0 (countIf (upto 64) fun i => h.req.mask.getLsbD i) 0
    | .writeBack => s.traffic h.tenant 0 64 0
    | .fetchAdd => s.traffic h.tenant 0 0 1
    | .swap => s.traffic h.tenant 0 0 1
    | .compareSwap => s.traffic h.tenant 0 0 1
    | _ => if r.op = .data ∨ r.op = .dataOwned then s.traffic h.tenant 64 0 0 else s

/-- Rewrites the entry of an open way; one that the request leaves unchanged is not written. A parity fault found meanwhile
then stands as a NOTE (R221). -/
def State.rewriteEnt (s : State) (k line : Nat) (e : DirEnt) : State :=
  if (s.way k).ent = e then s
  else (if (s.way k).found then s.recordPa (dirOcc Cause.dir_TAG_PARITY line) else s).writeEnt k e

/-- A request that a declaration has ended had taken dirty data from an owner that is listed no more, and nobody holds it:
the line is poisoned (R160; log 182, DEDUCED). -/
def lostDirty (t : HTx) (h : HReq) (final : DirEnt) : Bool :=
  t.drop && grants h.req.op && !hasOwner final && t.snoops.any fun o =>
    o.owner && !o.joined && (match o.ans with
      | some a => a.dirty && a.data.isSome
      | none => false)

/-- Ends a request: the WriteBacks held are applied, the entry is written, the result kept, the response sent, and the
line closed unless the response grants a state (R155, R168, R185). -/
def State.finishTx (s : State) (line : Nat) (r : Resp) (final : DirEnt) : State :=
  match s.tx line with
  | none => s
  | some t =>
    match t.req with
    | none => s
    | some h =>
      let final := if t.drop ∧ grants h.req.op then leftEnt t else final
      let s := if lostDirty t h final then s.poisonAt t.slot (64 * line) else s
      let (s, final) := s.lateWbs line final
      let s := s.rewriteEnt t.way line { final with tag := lineTag line, opn := true }
      let s := s.modTx line fun t => { t with ent := final }
      let s := if r.status = 0 then s.accessOf h else s
      let s := if t.drop then s
        else
          let s := if keepsResult h.req.op ∧ r.status = 0 then
              { s with home.results := s.home.results ++ [⟨h.key, h.bank, h.die, h.agent, r, false⟩] } else s
          (s.meterResp h r).respond h r
      if grants h.req.op ∧ r.status = 0 ∧ !t.drop then s.modTx line fun t => { t with phase := .release }
      else s.closeTx line

/-- The entry after an error completion: as the snoops left it (R185, R201); I where the request needed the data of an owner
that a declaration has named (R184). -/
def failedEnt (t : HTx) (h : HReq) (status : Nat) : DirEnt :=
  if t.lost ∧ status = stPOISON ∧ ¬(h.req.op = .upgrade ∧ upgradeAck t.ent h.agent) then inI t.ent else leftEnt t

/-- Ends a request with an error completion (R185, R201). -/
def State.failTx (s : State) (line status : Nat) : State :=
  match s.tx line with
  | none => s
  | some t =>
    match t.req with
    | none => s
    | some h => s.finishTx line (baseResp h.req .ack status h.linePa) (failedEnt t h status)

/-- The operand of an atomic in a line (R193). -/
def atomOld (h : HReq) (d : Line) : Nat := bfGet d (8 * (h.pa % 64)) (if h.req.hdr.sz16 then 128 else 64)

/-- The new value of an atomic (R193). -/
def atomNew (h : HReq) (old : Nat) : Nat :=
  let w := if h.req.hdr.sz16 then 128 else 64
  let a := h.req.opa.toNat % 2 ^ w
  match h.req.op with
  | .fetchAdd => (old + a) % 2 ^ w
  | .swap => a
  | _ => if old = a then h.req.opb.toNat % 2 ^ w else old

/-- The entry that R179 gives after a request that succeeds. -/
def finalEnt (t : HTx) (h : HReq) : DirEnt :=
  let e := leftEnt t
  match h.req.op with
  | .readShared => let e' := if hasOwner e then e else { e with st := .s }; addSharer e' h.agent
  | .readOwn => emOf t.ent h.agent
  | .upgrade => emOf t.ent h.agent
  | .readNoCache => e
  | .writeBack => dropOwner t.ent
  | .writeNoCache => if h.req.mask = 0 then t.ent else inI t.ent
  | _ => inI t.ent

/-- The response of a request that succeeds (R106, R174, R179). -/
def finalResp (t : HTx) (h : HReq) (d : Line) : Resp :=
  let dirty := match ownerData t.snoops with
    | some (_, x) => x
    | none => false
  match h.req.op with
  | .readShared => { baseResp h.req .data 0 h.linePa with line := d }
  | .readNoCache => { baseResp h.req .data 0 h.linePa with line := d }
  | .readOwn => { baseResp h.req (if dirty then .dataOwned else .data) 0 h.linePa with line := d }
  | .upgrade =>
    if upgradeAck t.ent h.agent then baseResp h.req .ack 0 h.linePa
    else { baseResp h.req (if dirty then .dataOwned else .data) 0 h.linePa with line := d }
  | .writeNoCache => baseResp h.req .ack 0 h.linePa
  | .writeBack => baseResp h.req .ack 0 h.linePa
  | _ => { baseResp h.req .atomicData 0 h.linePa with old := t.old }

/-- Ends a request that succeeds. -/
def State.succeed (s : State) (line : Nat) (d : Line) : State :=
  match s.tx line with
  | none => s
  | some t =>
    match t.req with
    | none => s
    | some h => s.finishTx line (finalResp t h d) (finalEnt t h)

/-- The replica set of a page, as member indices without this module. -/
def State.replSet (s : State) (pk : Nat) : Option (List Nat) := tget s.mem.replicaSets pk

/-- Clears REPL and the replica set of a page. -/
def State.clearRepl (s : State) (pk : Nat) : State :=
  { s.setDesc pk (bfSet (s.desc pk) 3 1 0) with mem.replicaSets := tdel s.mem.replicaSets pk }

/-- The next sequence number of this member (R230). -/
def State.nextSeq (s : State) : Nat × State :=
  let n := (s.home.seqLast + 1) % 2 ^ 48
  (n, { s with home.seqLast := n })

/-- Takes a member out of a page's replica set (R234). -/
def State.dropReplicaOf (s : State) (pk pa : Nat) (n : NodeId) : State :=
  let s := { s with mem.replicaSets := tmod s.mem.replicaSets pk fun l => l.filter fun i => s.memNode false i ≠ n }
  s.recordPa (occObj bDIR Cause.dir_REPLICA_DROP 1 pa)

/-- The EPOCH of a sequencing message: the bobbin role's, 0 in pools of 16 or fewer (R236). -/
def State.seqEpoch (s : State) : BitVec 16 :=
  if s.bigPool false then BitVec.ofNat 16 (s.fld (F.POOL_ROLES_BEPOCH 0)) else 0

/-- A HOT page's line can be stored now: its channel is in service and its key usable. -/
def State.canStore (s : State) (pk : Nat) : Bool :=
  let d := s.desc pk
  s.chReady (frameChan (dFrame d)) && s.keyUsable (pageDie pk) (s.keySlotOf (dOwner d) (dKsel d))

/-- Sequences a write to a replicated page (R229 to R232): in a pool of 16 or fewer this primary stores it, numbers it and
sends it to the replicas; otherwise the bobbin does. A write that the primary cannot store is not sequenced. `issue` is what
the bobbin does here when this member holds the role. -/
def State.sequence (s : State) (line pk : Nat) (set : List Nat) (d : Line)
    (issue : State → NodeId → BitVec 16 → Nat → Line → State) : State :=
  match s.tx line with
  | none => s
  | some t =>
    let (tag, s) := s.nextTag
    let pa : Addr := BitVec.ofNat 52 (64 * line)
    let nodes := set.map (s.memNode false)
    if !s.canStore pk then s.failTx line stINTERNAL
    else if s.bigPool false then
      let mask : Nat := ((set.map fun i => 2 ^ i).sum) + 2 ^ ((s.selfIdx false).getD 0)
      let s := s.putTx { t with phase := .seq, tag := tag, wait := nodes ++ [s.node], newLine := some d }
      if s.isBobbin then issue s s.node tag mask d
      else s.sendNode false (s.bobbinNode false) (.seqReq 0 s.node tag s.seqEpoch pa (BitVec.ofNat 64 mask) d)
    else
      match s.writeLine ((t.req.map (·.who)).getD nobody) pk (64 * line) (BitVec.allOnes 64) d with
      | (s, .ok _) =>
        let (n, s) := s.nextSeq
        let s := s.incFld F.DIR_SEQCNT_WRITES
        let s := s.modTx line fun t => { t with phase := .repl, tag := tag, wait := nodes, newLine := some d }
        nodes.foldl (fun s m => s.sendNode false m (.replApply 0 s.node tag 0 pa (BitVec.ofNat 48 n) d)) s
      | (s, _) => s.failTx line stINTERNAL

/-- The bobbin's own issue of a write (R232): the next GSN, and ReplApply to every member of the replica set. At the
bobbin's own copy the line is applied at once. -/
def State.bobbinIssue (s : State) (primary : NodeId) (rtag : BitVec 16) (mask : Nat) (pa : Nat) (d : Line) : State :=
  let (n, s) := s.nextSeq
  let s := s.incFld F.DIR_SEQCNT_WRITES
  let nodes := ((upto 64).filter fun i => bitsOf mask i 1 = 1).map (s.memNode false)
  (nodes.filter (· ≠ s.node)).foldl (fun s m =>
    s.sendNode false m (.replApply 0 primary rtag s.seqEpoch (BitVec.ofNat 52 pa) (BitVec.ofNat 48 n) d)) s

/-- A new bobbin issues no GSN until it has its predecessor's last (R258). -/
def State.gsnKnown (s : State) : Bool := !(s.home.hoff.newHolder && s.home.hoff.bobbin && s.home.hoff.gsn.isNone)

/-- A sequenced write is complete at one member; the last one ends the request (R229, R234). -/
def State.seqDone (s : State) (tag : BitVec 16) (n : NodeId) (dropped : Bool) : State :=
  match s.home.txs.find? fun e => (e.2.phase = .repl ∨ e.2.phase = .seq) ∧ e.2.tag = tag with
  | none => s
  | some (line, t) =>
    let s := if dropped then s.dropReplicaOf (pageIdx t.slot (64 * line)) (64 * line) n else s
    let wait := t.wait.erase n
    let s := s.putTx { t with wait := wait, phase := .repl }
    if wait.isEmpty then s.forTx line fun s => s.succeed line (t.newLine.getD 0) else s

/-- Applies a sequenced write at this primary itself and counts it done (R229, R232). A copy that cannot be stored any more
becomes poisoned, as a lost write does (R353, R354; log 183, DEDUCED). -/
def State.applyOwn (s : State) (tag : BitVec 16) (d : Line) : State :=
  match s.home.txs.find? fun e => e.2.phase = .seq ∧ e.2.tag = tag with
  | none => s
  | some (line, t) =>
    let w : Who := match t.req with
      | some h => h.who
      | none => nobody
    match s.writeLine w (pageIdx t.slot (64 * line)) (64 * line) (BitVec.allOnes 64) d with
    | (s, .ok _) => s.seqDone tag s.node false
    | (s, _) => (s.poisonLine (pageIdx t.slot (64 * line)) (64 * line)).seqDone tag s.node false

/-- This bobbin holds as many SeqReq as it may: its own one is tried again 10 µs later (R233). -/
def State.ownBusy (s : State) (tag : BitVec 16) : State :=
  let due := s.now + 10000
  let txs : Table HTx := s.home.txs.map fun e =>
    if e.2.phase = .seq ∧ e.2.tag = tag then (e.1, { e.2 with due := due }) else e
  let fences : List FenceRec := s.home.fences.map fun f => if f.seq = some tag then { f with due := due } else f
  ({ s with home.txs := txs, home.fences := fences }.incFld F.DIR_SEQCNT_BUSY).record
    (occObj bDIR Cause.dir_SEQ_BUSY 2 s.node.toNat)

/-- A SeqReq of this bobbin's own waits for its first number, where there is room for it (R233, R258). -/
def State.holdOwn (s : State) (tag : BitVec 16) (m : PMsg) : State :=
  if 4096 ≤ s.home.seqHeld.length then s.ownBusy tag else { s with home.seqHeld := s.home.seqHeld ++ [m] }

/-- Stores a request's new line (R20, R181, R229, R298). -/
def State.storeNew (s : State) (line : Nat) (d : Line) : State :=
  match s.tx line with
  | none => s
  | some t =>
    match t.req with
    | none => s
    | some h =>
      let pk := pageIdx t.slot h.pa
      let desc := s.desc pk
      if dTier desc = tierREMOTE then
        match s.encrypt h.who (pageDie pk) (dOwner desc) (dKsel desc) h.linePa (dGen desc) d with
        | (s, some c) =>
          (s.modTx line fun t => { t with phase := .remWrite, newLine := some d }).remAccess pk h.linePa 1 c false
        | (s, none) => s.failTx line stINTERNAL
      else
        let set := (s.replSet pk).getD []
        if dRepl desc ∧ !set.isEmpty then
          let s := s.sequence line pk set d fun s p tag mask d =>
            if s.gsnKnown then (s.bobbinIssue p tag mask h.linePa d).applyOwn tag d
            else s.holdOwn tag (.seqReq 0 p tag s.seqEpoch (BitVec.ofNat 52 h.linePa) (BitVec.ofNat 64 mask) d)
          match s.tx line with
          | some t => if t.phase = .repl ∧ t.wait.isEmpty then s.succeed line d else s
          | none => s
        else
          let s := if dRepl desc then s.clearRepl pk else s
          match s.writeLine h.who pk h.linePa (BitVec.allOnes 64) d with
          | (s, .ok _) => s.succeed line d
          | (s, .migrating) => s.modTx line fun t => { t with phase := .mig, newLine := some d }
          | (s, .poison) => s.failTx line stPOISON
          | (s, .decomp) => s.failTx line stDECOMP
          | (s, _) => s.failTx line stINTERNAL

/-- A WriteNoCache with a partial MASK over stored data that this home holds: a narrow write (R20, R345). -/
def State.storeNarrow (s : State) (line : Nat) : State :=
  match s.tx line with
  | none => s
  | some t =>
    match t.req with
    | none => s
    | some h =>
      match s.writeLine h.who (pageIdx t.slot h.pa) h.linePa h.req.mask h.req.data with
      | (s, .ok _) => s.succeed line 0
      | (s, .migrating) => s.modTx line fun t => { t with phase := .mig, newLine := none }
      | (s, .poison) => s.failTx line stPOISON
      | (s, .decomp) => s.failTx line stDECOMP
      | (s, _) => s.failTx line stINTERNAL

/-- True where a request needs the line's data before it can go on (R179, R182, R193). -/
def State.needsLine (s : State) (t : HTx) (h : HReq) : Bool :=
  match h.req.op with
  | .readShared => true
  | .readOwn => true
  | .readNoCache => true
  | .upgrade => !upgradeAck t.ent h.agent
  | .writeBack => false
  | .writeNoCache =>
    let d := s.desc (pageIdx t.slot h.pa)
    decide (h.req.mask ≠ 0) && decide (h.req.mask ≠ BitVec.allOnes 64)
      && ((match ownerData t.snoops with
        | some (_, dirty) => dirty
        | none => false) || decide (dTier d = tierREMOTE) || dRepl d)
  | _ => true

/-- What a request does with the line's data `d` (R179 to R183, R193). A CompareSwap that fails its comparison stores nothing, the
owner's dirty data included (log 39, DEDUCED). -/
def State.opWork (s : State) (line : Nat) (d : Line) : State :=
  match s.tx line with
  | none => s
  | some t =>
    match t.req with
    | none => s
    | some h =>
      match h.req.op with
      | .upgrade =>
        let owned := isOwner t.ent h.agent ∨ (t.ent.st = .o ∧ (ownerData t.snoops).isSome)
        if upgradeAck t.ent h.agent ∧ ¬owned ∧ s.linePoisoned (pageIdx t.slot h.pa) h.linePa then
          s.failTx line stPOISON
        else s.succeed line d
      | .writeBack => s.storeNew line h.req.data
      | .writeNoCache =>
        if h.req.mask = 0 then s.succeed line 0
        else if h.req.mask = BitVec.allOnes 64 then s.storeNew line h.req.data
        else if s.needsLine t h then s.storeNew line (overlay d h.req.data h.req.mask)
        else s.storeNarrow line
      | .readShared => s.succeed line d
      | .readOwn => s.succeed line d
      | .readNoCache => s.succeed line d
      | _ =>
        let old := atomOld h d
        let new := atomNew h old
        let s := s.putTx { t with old := BitVec.ofNat 128 old }
        if h.req.op = .compareSwap ∧ old ≠ h.req.opa.toNat % 2 ^ (if h.req.hdr.sz16 then 128 else 64) then
          s.succeed line d
        else s.storeNew line (bfSet d (8 * (h.pa % 64)) (if h.req.hdr.sz16 then 128 else 64) new)

/-- The memory work of a request once its snoops are answered (R185). -/
def State.memWork (s : State) (line : Nat) : State :=
  match s.tx line with
  | none => s
  | some t =>
    match t.req with
    | none =>
      let (s, e) := if t.drop then
          ((s.putTx { t with acks := t.acks ++ t.held, held := [] }).flushAcks line, inI t.ent)
        else s.lateWbs line (inI t.ent)
      (s.writeEnt t.way { e with tag := lineTag line, opn := true }).closeTx line
    | some h =>
      if !s.needsLine t h then s.opWork line 0
      else
        let s := if h.req.op.isAtomic then s.closeLine line else s
        match ownerData t.snoops, t.stored with
        | some (d, _), _ => s.opWork line d
        | none, some d => s.opWork line d
        | none, none =>
          match s.readLine h.who (pageIdx t.slot h.pa) h.linePa srcDemand with
          | (s, .ok d) => s.opWork line d
          | (s, .remote) =>
            (s.modTx line fun t => { t with phase := .remRead }).remAccess (pageIdx t.slot h.pa) h.linePa 0 0 false
          | (s, .poison) => s.failTx line stPOISON
          | (s, .decomp) => s.failTx line stDECOMP
          | (s, _) => s.failTx line stINTERNAL

/-- A write to a page in flight through the sequencer (R218, R226). -/
def State.pageWriting (s : State) (pk : Nat) : Bool :=
  s.home.txs.any fun e => (e.2.phase = .seq ∨ e.2.phase = .repl) ∧ pageIdx e.2.slot (64 * e.1) = pk

/-- Starts to drop a page's replication, or sends the drop once no write to the page is in flight (R226). -/
def State.dropPage (s : State) (pk pa : Nat) : State :=
  let known := s.home.drops.any fun d => d.page = pk
  let sent := s.home.drops.any fun d => d.page = pk && d.sent
  let s := if known then s else { s with home.drops := s.home.drops ++ [(⟨pk, 0, false, []⟩ : PageDrop)] }
  if sent ∨ s.pageWriting pk then s
  else
    let (tag, s) := s.nextTag
    let nodes := ((s.replSet pk).getD []).map (s.memNode false)
    let (n, s) := if nodes.isEmpty then (0, s) else s.nextSeq
    let s := nodes.foldl (fun s m => s.sendNode false m
      (.replApply 2 s.node tag s.seqEpoch (BitVec.ofNat 52 (pageOf pa)) (BitVec.ofNat 48 n) 0)) s
    if nodes.isEmpty then { s.clearRepl pk with home.drops := s.home.drops.filter fun d => d.page ≠ pk }
    else { s with home.drops := s.home.drops.map fun d => if d.page = pk then ⟨pk, tag, true, nodes⟩ else d }

/-- Begins a request on its open way: the drop of R226, the self-snoop of R180, or the snoops of R179. -/
def State.beginTx (s : State) (line : Nat) : State :=
  match s.tx line with
  | none => s
  | some t =>
    match t.req with
    | none => s.modTx line fun t => { t with phase := .snoops, snoops := [] }
    | some h =>
      let pk := pageIdx t.slot h.pa
      if (h.req.op = .readOwn ∨ h.req.op = .upgrade) ∧ dRepl (s.desc pk) then
        (s.modTx line fun t => { t with phase := .drop, snoops := [] }).dropPage pk h.pa
      else if isOwner t.ent h.agent ∧ (h.req.op = .readShared ∨ h.req.op = .readOwn) then
        let (s, l) := s.sendSnoops line t.slot [(h.agent, .invalid, true)]
        s.modTx line fun t => { t with phase := .selfSnoop, snoops := l }
      else
        let (s, l) := s.sendSnoops line t.slot (s.targets t.ent h.req)
        s.modTx line fun t => { t with phase := .snoops, snoops := l }

/-- The end of a self-snoop: dirty data is written as a WriteBack from the owner, which is no longer listed (R180). -/
def State.selfEnd (s : State) (line : Nat) : State :=
  match s.tx line with
  | none => s
  | some t =>
    let e := t.snoops.foldl (fun e o => dropAgent e o.agent) t.ent
    let s := (dirtyOf t.snoops).foldl (fun s p => s.putPend line nobody t.slot (64 * line) p.2) s
    let (s, e) := s.lateWbs line e
    s.modTx line fun t => { t with ent := e, snoops := [] }

/-- Two agents returned dirty data in a recovery: the line is poisoned (R222 step 4). -/
def State.doubleDirty (s : State) (slot line : Nat) : State :=
  ((s.poisonAt slot (64 * line)).incFld F.DIR_RECOV_DIRTY2).recordPa (dirOcc Cause.dir_DOUBLE_DIRTY line)

/-- A transaction record that holds a victim or a recovery fails its own parity: the line is poisoned (R225). -/
def State.badRecord (s : State) (slot line : Nat) : State :=
  (s.poisonAt slot (64 * line)).recordPa (dirOcc Cause.dir_RECORD_PARITY line)

/-- The end of a broadcast recovery (R222 steps 4 to 6). -/
def State.recoverEnd (s : State) (line : Nat) : State :=
  match s.tx line with
  | none => s
  | some t =>
    let s := s.incFld F.DIR_RECOV_RECOV
    let s := if t.bad then s.badRecord t.slot line
      else match dirtyOf t.snoops with
        | [] => s
        | [p] => s.putPend line nobody t.slot (64 * line) p.2
        | _ => s.doubleDirty t.slot line
    let s := (s.lateWbs line (inI t.ent)).1
    let s := match t.note with
      | some first => s.postOcc ((dirOcc Cause.dir_ENTRY_PARITY line).notice s.now first)
      | none => s
    let e := inI t.ent
    let s := s.writeEnt t.way { e with tag := lineTag line, opn := true }
    s.modTx line fun t => { t with ent := e, snoops := [], note := none, bad := false }

/-- A line's transaction waits for a line that must be stored first (R180, R222 step 5). -/
def State.pending? (s : State) (line : Nat) : Bool :=
  match s.tx line with
  | some t => t.pend.isSome
  | none => false

/-- Begins a request once nothing that must be stored first waits; it serves the request with that as stored data. -/
def State.beginOrWait (s : State) (line : Nat) : State × Bool :=
  if s.pending? line then (s.modTx line fun t => { t with phase := .pendWait }, false) else (s.beginTx line, true)

/-- Carries a transaction on as far as its answers allow; the fuel bounds the phases. -/
def State.advance : Nat → State → Nat → State
  | 0, s, _ => s
  | n + 1, s, line =>
    match s.tx line with
    | none => s
    | some t =>
      if !snoopsDone t.snoops then s
      else
        match t.phase with
        | .recovery =>
          match (s.recoverEnd line).beginOrWait line with
          | (s, true) => State.advance n s line
          | (s, false) => s
        | .selfSnoop =>
          match (s.selfEnd line).beginOrWait line with
          | (s, true) => State.advance n s line
          | (s, false) => s
        | .pendWait => if t.pend.isSome then s else State.advance n (s.beginTx line) line
        | .drop =>
          match t.req with
          | some h =>
            if dRepl (s.desc (pageIdx t.slot h.pa)) then s.dropPage (pageIdx t.slot h.pa) h.pa
            else State.advance n (s.beginTx line) line
          | none => s
        | .snoops => s.memWork line
        | _ => s

/-- Phases that one transaction can pass through without an answer. -/
def phaseFuel : Nat := 6

/-- The recall inside a line's transaction. -/
def State.rcl (s : State) (line : Nat) : Option Recall := (s.tx line).bind (·.rcl)

/-- Changes the recall inside a line's transaction. -/
def State.modRcl (s : State) (line : Nat) (f : Recall → Recall) : State :=
  s.modTx line fun t => { t with rcl := t.rcl.map f }

/-- Writes data of a victim's owner, for the recall inside a line's transaction (R213): it waits in the recall while it
cannot be stored (R322). A victim whose extent this home no longer holds is gone. -/
def State.putVictim (s : State) (line : Nat) (w : Who) (v : Nat) (d : Line) : State :=
  match s.slotHolding (64 * v) with
  | none => s
  | some slot =>
    match s.forceLine w slot (64 * v) d with
    | (s, .migrating) => s.modRcl line fun r => { r with pend := some d }
    | (s, _) => s

/-- A write for a recall has not reached its ordering point yet (R213, R298). -/
def State.rclBusy (s : State) (r : Recall) : Bool := r.pend.isSome || s.remBusy r.line

/-- The page that a recall's victim lies in is in migration. -/
def State.victimMigrates (s : State) (r : Recall) : Bool :=
  match s.slotHolding (64 * r.line) with
  | some slot => (s.migOf (pageIdx slot (64 * r.line))).isSome
  | none => false

/-- Tries again to store the line that a recall holds. -/
def State.retryVictim (s : State) (line : Nat) : State :=
  match s.rcl line with
  | none => s
  | some r =>
    match r.pend with
    | none => s
    | some d =>
      if s.victimMigrates r = true then s else (s.modRcl line fun r => { r with pend := none }).putVictim line nobody r.line d

/-- Answers the WriteBacks that a recall has taken, once their data is written (R215). -/
def State.flushRecall (s : State) (line : Nat) : State :=
  match s.rcl line with
  | none => s
  | some r =>
    if s.rclBusy r then s
    else r.acks.foldl (fun s h => s.ackWb h true) (s.modRcl line fun r => { r with acks := [] })

/-- Every snoop of a recall is answered: the owner's dirty data is written as its WriteBack (R213); where every agent was
asked, as in a recovery (R222); and the WriteBacks still held are taken without effect (R215). -/
def State.recallData (s : State) (line : Nat) (r : Recall) (bad : Bool) : State :=
  let slot := (s.slotHolding (64 * r.line)).getD 0
  let dirty : List (AgentId × Line) := dirtyOf r.snoops
  let s := if dirty.isEmpty then s else s.incFld F.DIR_RCL_DIRTY
  let s := if r.all then s.incFld F.DIR_RECOV_RECOV else s
  let s := if bad then s.badRecord slot r.line
    else match dirty with
      | [] => s
      | [p] => s.putVictim line nobody r.line p.2
      | _ => s.doubleDirty slot r.line
  r.held.foldl (fun s h =>
    if r.snoops.any fun o => o.agent = h.agent ∧ o.owner then s else s.recordPa (dirOcc Cause.dir_STRAY_WB r.line)) s

/-- Carries the recall inside a line's transaction on; it ends when every snoop is answered and every write for it has
reached its ordering point (R213). -/
def State.recallEnd (s : State) (line : Nat) : State :=
  let s := s.retryVictim line
  match s.tx line with
  | none => s
  | some t =>
    match t.rcl with
    | none => s
    | some r =>
      if !snoopsDone r.snoops then s.flushRecall line
      else
        let s := s.recallData line r t.bad
        let s := s.modTx line fun t => { t with bad := false, rcl := t.rcl.map fun r =>
          { r with snoops := [], acks := r.acks ++ r.held, held := [], all := false } }
        let s := s.flushRecall line
        match s.rcl line with
        | none => s
        | some r =>
          if s.rclBusy r then s
          else
            let s := s.modTx line fun t => { t with rcl := none }
            if t.phase = .done then s.closeTx line else s

/-- Pairs a WriteBack with its agent's WBIF 1 answer (R215): its data becomes that agent's data, dirty where it is not
written here, or is discarded where the agent was not listed as owner. -/
def State.joinWb (s : State) (line : Nat) : State :=
  match s.tx line with
  | none => s
  | some t =>
    let waits (l : List SnpOut) (h : HReq) : Bool := l.any fun o => o.agent = h.agent && (match o.ans with
      | some a => a.wbif
      | none => false)
    let owns (l : List SnpOut) (h : HReq) : Bool := l.any fun o => o.agent = h.agent && o.owner
    let put (l : List SnpOut) (h : HReq) (dirty written : Bool) : List SnpOut := l.map fun o =>
      if o.agent = h.agent then
        { o with ans := some (if o.owner then ⟨0, false, dirty, some h.req.data⟩ else ansI), joined := written } else o
    match t.held.find? (waits t.snoops) with
    | some h =>
      let rec_ := decide (t.phase = .recovery)
      let self_ := decide (t.phase = .selfSnoop)
      let s := s.putTx { t with snoops := put t.snoops h (!self_) (!rec_), held := t.held.erase h, acks := t.acks ++ [h] }
      let s := if !owns t.snoops h then s.recordPa (dirOcc Cause.dir_STRAY_WB line)
        else if t.req.isNone ∧ t.drop then s
        else
          let s := s.traffic h.tenant 0 64 0
          if rec_ then s else s.putPend line h.who h.slot h.linePa h.req.data
      if rec_ then s else s.flushAcks line
    | none =>
      match t.rcl with
      | none => s
      | some r =>
        match r.held.find? (waits r.snoops) with
        | none => s
        | some h =>
          let s := s.putTx { t with rcl := some { r with
            snoops := put r.snoops h r.all (!r.all), held := r.held.erase h, acks := r.acks ++ [h] } }
          let s := if !owns r.snoops h then s.recordPa (dirOcc Cause.dir_STRAY_WB r.line)
            else if r.all then s.traffic h.tenant 0 64 0
            else ((s.incFld F.DIR_RCL_DIRTY).putVictim line h.who r.line h.req.data).traffic h.tenant 0 64 0
          if r.all then s else s.flushRecall line

/-- An answer to one snoop of a list. -/
def putAns (l : List SnpOut) (a : AgentId) (n : BitVec 16) (x : SnpAns) : List SnpOut :=
  l.map fun o => if o.agent = a ∧ o.snptx = n ∧ o.ans.isNone then { o with ans := some x } else o

/-- The snoop of a list that a response answers. -/
def snoopFor (l : List SnpOut) (a : AgentId) (n : BitVec 16) : Option SnpOut :=
  l.find? fun o => o.agent = a ∧ o.snptx = n ∧ o.ans.isNone

/-- Checks a snoop response (R178) and records an owner in O that gave nothing (R202); answers what the home takes. -/
def State.judgeAns (s : State) (line slot : Nat) (e : DirEnt) (o : SnpOut) (a : SnpAns) : State × SnpAns :=
  let (s, a) := if ansAllowed o a then (s, a) else (s.recordPa (dirOcc Cause.dir_BAD_SNPRSP line), ansI)
  if e.st = .o ∧ isOwner e o.agent ∧ a.newState = 0 ∧ !a.wbif ∧ a.data.isNone then
    ((s.recordPa (dirOcc Cause.dir_OWNER_LOST line)).poisonAt slot (64 * line), a)
  else (s, a)

/-- A snoop response reaches the home (R178, R185, R212, R215). -/
def State.snoopAnswer (s : State) (agent : AgentId) (snptx : BitVec 16) (pa : Nat) (a : SnpAns) : State :=
  let line := pa / 64
  match s.tx line with
  | some t =>
    match snoopFor t.snoops agent snptx with
    | some o =>
      s.forTx line fun s =>
        let (s, a) := s.judgeAns line t.slot t.ent o a
        let s := s.modTx line fun t => { t with snoops := putAns t.snoops agent snptx a }
        State.advance phaseFuel (s.joinWb line) line
    | none => s
  | none =>
    match s.recallOf line with
    | none => s
    | some t =>
      match t.rcl with
      | none => s
      | some r =>
        match snoopFor r.snoops agent snptx with
        | none => s
        | some o =>
          s.forTx t.line fun s =>
            let (s, a) := s.judgeAns line ((s.slotHolding pa).getD 0) r.ent o a
            let s := s.modRcl t.line fun r => { r with snoops := putAns r.snoops agent snptx a }
            (s.joinWb t.line).recallEnd t.line

end Sys2Proof.Machine
end

