-- ==== Sys2Proof/Machine/HomeReq.lean ====
section
/-! DEFINITION. Requests at their home: checks 7 and 8, NAKs, parking, opening a line, EvictClean, releases and the
events that carry transactions on (R58, R154 to R156, R185 to R192, R205 to R217, R321). -/

namespace Sys2Proof.Machine

/-- An entry of the slot table (R50). -/
def State.slotEntry (s : State) (slot : Nat) : Word := sget (fun _ => 0) s.mem.etr slot

/-- Checks 7 and 8 of R58 at the home; answers the code of the check that fails (R64, R74, R352). -/
def State.homeCheck (s : State) (h : HReq) : State × Option Nat :=
  let e := s.slotEntry h.slot
  if s.slotCount ≤ h.slot then (s, some stNOXL)
  else if s.mem.etrBad.contains h.slot then (s.record { h.who.occ bTRN Cause.trn_SLOT_UNCORR with obj := h.slot, okind := 5 }, some stINTERNAL)
  else if !e.getLsbD 0 ∨ bfGet e 32 31 ≠ h.pa / 2 ^ 21 then (s, some stNOXL)
  else
    match s.readDesc h.who h.page with
    | (s, none) => (s, some stINTERNAL)
    | (s, some d) =>
      if dOwner d = h.tenant then (s, if s.mem.lostPages.contains h.page then some stINTERNAL else none)
      else ((s.record (h.who.occ bXTS Cause.xts_OWNER_ALARM)).alarm, some stKEY)

/-- The slot of an extent under REASSIGN or RELEASE (R68). -/
def State.slotBusy (s : State) (slot : Nat) : Bool :=
  match s.home.assign with
  | some a => decide (a.op ≠ 0) && decide (a.slot = slot)
  | none => false

/-- The result-cache entries of a die, and the requests in progress there that will leave one (R155). -/
def State.resultsOn (s : State) (die : Nat) : Nat :=
  countIf s.home.results (fun e => decide (e.die = die)) + countIf s.home.txs fun e =>
    match e.2.req with
    | some h => keepsResult h.req.op && decide (h.die = die) && decide (e.2.phase ≠ .done)
    | none => false

/-- A die's half of the result cache has no entry left for a new request (R155). -/
def State.resultsFull (s : State) (die : Nat) : Bool := decide (32768 ≤ s.resultsOn die)


/-- A request that replaces its whole line (R183, R321). -/
def reqWhole (r : Req) : Bool :=
  decide (r.op = .writeBack) || (decide (r.op = .writeNoCache) && decide (r.mask = BitVec.allOnes 64))

/-- A way is at hand for a request's line, or it needs none (R187, R210). -/
def State.wayReady (s : State) (h : HReq) : Bool :=
  (waysOf h.die (lineSet h.line)).any (fun k =>
    decide ((s.way k).ent.st ≠ .free) && decide ((s.way k).ent.tag = lineTag h.line))
  || (s.pickWay h.die h.line).isSome || (decide (h.req.op = .writeBack) && !s.setBlinded h.die h.line)

/-- A whole-line write to a poisoned segment, which asks for the promotion of R321. -/
def State.wantsPromo (s : State) (h : HReq) : Bool :=
  reqWhole h.req && decide (dTier (s.desc h.page) = tierWARM) && s.segLost h.page (lineOf h.pa / 16)

/-- What the home may do with a request whose line is closed and has nothing parked. -/
inductive Gate where
  | go
  | wait (status hint : Nat)
  | fail (status : Nat)
  deriving DecidableEq, Repr

/-- Whether a request may start now: the reasons of R188 other than a busy line, and R286, R321. -/
def State.gate (s : State) (h : HReq) : State × Gate :=
  let d := s.desc h.page
  let short := reqWrites h.req && (decide (dTier d = tierWARM) || decide (dTier d = tierZERO)) && s.frameShort h.die
  if s.slotBusy h.slot then (s, .wait stBUSY 100)
  else if keepsResult h.req.op ∧ s.resultsFull h.die then (s, .wait stBUSY 10)
  else if writesPage h.req.op ∧ (s.migOf h.page).isSome then (s, .wait stMIGRATING 4)
  else if keepsResult h.req.op ∧ s.home.drops.any (fun x => x.page = h.page) then (s, .wait stMIGRATING 4)
  else if short then (s.recordEmpty h.who, .fail stINTERNAL)
  else if s.wantsPromo h then (s.promotePoisoned h.page h.linePa, .wait stMIGRATING 4)
  else if !s.wayReady h then (s, .wait stBUSY (s.fld F.DIR_COHCFG_HINT_BUSY))
  else (s, .go)

/-- A WriteBack from an agent that is not listed as owner (R187). -/
def State.strayWb (s : State) (h : HReq) : State :=
  (s.record { dirOcc Cause.dir_STRAY_WB h.line with txid := h.req.hdr.txid.toNat, tenant := some h.tenant }).ackWb h false

/-- Begins a request on the way that its transaction has opened. -/
def State.beginAll (s : State) (line : Nat) : State := State.advance phaseFuel (s.beginTx line) line

/-- The parity check of a victim's entry, which is read when it moves into the transaction (R219): tag bytes are repaired;
true where its other bytes fail, so that every agent must be asked. -/
def State.checkVictim (s : State) (k : Nat) : State × Bool :=
  let w := s.way k
  if w.eBad = 0 then (s, false)
  else if w.eBad &&& 0x3F8 = 0 then (s.recordPa (dirOcc Cause.dir_TAG_PARITY (wayLine k w.ent)), false)
  else (s.recordPa (dirOcc Cause.dir_ENTRY_PARITY (wayLine k w.ent)), true)

/-- Opens a line on a way that it does not hold yet: the way's entry becomes a victim and is recalled (R210, R212); a
victim whose entry failed parity is recovered in the recall (R219, R222). -/
def State.takeWay (s : State) (h : HReq) (k : Nat) : State × Option Recall :=
  let v := (s.way k).ent
  let (s, all) := if v.st = .free then (s, false) else s.checkVictim k
  let s := (s.touch k).writeEnt k { freeEnt with tag := lineTag h.line, st := .trans, opn := true }
  if v.st = .free then (s, none)
  else
    let line := wayLine k v
    let s := (s.incFld F.DIR_RCL_RECALLS).count 14 5 1 none
    let slot := (s.slotHolding (64 * line)).getD 0
    let (s, l) := if all then s.recoverSnoops line slot
      else s.sendSnoops line slot ((s.listedOf v).map fun a => (a, SnpOp.invalid, isOwner v a))
    (s, some ⟨line, v, l, [], [], none, all⟩)

/-- Starts a recovery for a request: a WriteBack waits in it as held (R215, R222, R223). -/
def State.recoverFor (s : State) (h : HReq) (k : Nat) (report : Bool) (rcl : Option Recall) : State :=
  if h.req.op = .writeBack then s.startRecovery h.line h.slot k none [h] report rcl
  else s.startRecovery h.line h.slot k (some h) [] report rcl

/-- Accepts a request whose line is closed (R185, R210, R221 to R223). Answers false where the lookup has left it without a
way: the request has not started (R210, R211). -/
def State.startReq (s : State) (h : HReq) : State × Bool :=
  match s.lookup h.die h.line h.tenant with
  | (s, .hit k) =>
    if h.req.op = .writeBack ∧ !isOwner (s.way k).ent h.agent then (s.strayWb h, true)
    else
      let s := s.markWay k true
      ((s.putTx (freshTx h.line h.slot k (s.way k).ent (some h) .snoops)).beginAll h.line, true)
  | (s, .bad k) =>
    let s := s.recoverFor h k true none
    (State.advance phaseFuel s h.line, true)
  | (s, .miss) =>
    let blinded := s.setBlinded h.die h.line
    if h.req.op = .writeBack ∧ !blinded then (s.strayWb h, true)
    else
      match s.pickWay h.die h.line with
      | none => (s, false)
      | some k =>
        let (s, rcl) := s.takeWay h k
        let s := if blinded then State.advance phaseFuel (s.recoverFor h k false rcl) h.line
          else (s.putTx { freshTx h.line h.slot k (s.way k).ent (some h) .snoops with rcl := rcl }).beginAll h.line
        (s.recallEnd h.line, true)

/-- A request carries a reservation (R190). -/
def HReq.reserved (h : HReq) : Bool := decide (8 ≤ h.req.hdr.retry.toNat)

/-- A second request with a reservation from an agent that has one parked at the die (R191). -/
def State.parkDouble (s : State) (h : HReq) : Bool :=
  h.reserved && s.home.parked.any fun p => p.agent = h.agent ∧ p.die = h.die

/-- Refuses such a request (R191). -/
def State.refuseDouble (s : State) (h : HReq) : State :=
  (s.nak h stBUSY (s.fld F.DIR_COHCFG_HINT_BUSY)).record
    { dirOcc Cause.dir_PARK_DOUBLE h.line with txid := h.req.hdr.txid.toNat, tenant := some h.tenant }

/-- Parks a request that holds a reservation (R190). -/
def State.park (s : State) (h : HReq) : State :=
  let s := { s with home.parked := s.home.parked ++ [h] }
  let s := s.incFld F.DIR_PARKSTS_TOTAL
  (s.setFld F.DIR_PARKSTS_PEAK (max (s.fld F.DIR_PARKSTS_PEAK) s.home.parked.length)).count 14 4 1 (some h.tenant)

/-- Puts a WriteBack that meets a snoop of its agent into the transaction or recall (R215). -/
def State.holdWb (s : State) (h : HReq) : Option State :=
  match s.tx h.line with
  | some t =>
    if snoopOpen t.snoops h.agent then
      let s := s.putTx { t with held := t.held ++ [h] }
      some (State.advance phaseFuel (s.joinWb h.line) h.line)
    else none
  | none =>
    match s.recallOf h.line with
    | none => none
    | some t =>
      match t.rcl with
      | none => none
      | some r =>
        if snoopOpen r.snoops h.agent then
          let s := s.putTx { t with rcl := some { r with held := r.held ++ [h] } }
          some ((s.joinWb t.line).recallEnd t.line)
        else none

/-- An entry after an EvictClean (R179, R209). -/
def evictEnt (e : DirEnt) (a : AgentId) : DirEnt :=
  if isOwner e a then (if e.st = .em then dropOwner e else e)
  else if isSharer e a then settleEnt (delSharer e a)
  else e

/-- Applies an EvictClean (R60, R186). -/
def State.evict (s : State) (h : HReq) : State :=
  let e := s.slotEntry h.slot
  let d := s.desc h.page
  if s.slotCount ≤ h.slot ∨ !e.getLsbD 0 ∨ bfGet e 32 31 ≠ h.pa / 2 ^ 21 ∨ dOwner d ≠ h.tenant
      ∨ s.mem.etrBad.contains h.slot ∨ s.mem.tmapBad.contains h.page ∨ descBad d then s
  else
    match s.tx h.line with
    | some t =>
      if snoopOpen t.snoops h.agent ∨ t.phase = .recovery then s
      else
        let w := s.way t.way
        let s := s.putTx { t with ent := evictEnt t.ent h.agent }
        s.putWay t.way { w with ent := evictEnt w.ent h.agent }
    | none =>
      if (s.recallOf h.line).isSome then s
      else
        match s.lookup h.die h.line h.tenant with
        | (s, .hit k) =>
          let e := evictEnt (s.way k).ent h.agent
          if e = (s.way k).ent then s else s.writeEnt k (if e.st = .trans then freeEnt else e)
        | (s, .bad k) => State.advance phaseFuel (s.startRecovery h.line h.slot k none [] true none) h.line
        | (s, .miss) => s

/-- A request that may not start now: parked where it holds a reservation, otherwise NAKed (R188, R190). -/
def State.refuseNow (s : State) (h : HReq) (status hint : Nat) : State :=
  if h.reserved then s.park h
  else
    let s := s.nak h status hint
    if status = stBUSY ∧ hint = 10 ∧ keepsResult h.req.op ∧ s.resultsFull h.die then
      s.record { occObj (bPort h.engine) Cause.port_RESULT_FULL 3 h.key.oconn.toNat with
        txid := h.req.hdr.txid.toNat, tenant := some h.tenant }
    else s

/-- The lookup of a request whose line is open or has requests parked: it checks the parity of its set (R218, R219). -/
def State.lookOnly (s : State) (h : HReq) : State := (s.lookup h.die h.line h.tenant).1

/-- Starts a request that may start; one that its lookup leaves without a way is refused or parked (R210, R211). -/
def State.startOrRefuse (s : State) (h : HReq) : State :=
  match s.startReq h with
  | (s, true) => s
  | (s, false) => s.refuseNow h stBUSY (s.fld F.DIR_COHCFG_HINT_BUSY)

/-- A request reaches its home (R185). -/
def State.homeReq (s : State) (h : HReq) : State :=
  if s.keyOpen h.key then s
  else
    match s.home.results.find? fun e => e.key = h.key with
    | some e => s.respond h e.resp
    | none =>
      if h.req.op = .evictClean then s.evict h
      else
        match s.homeCheck h with
        | (s, some status) => s.respondErr h status
        | (s, none) =>
          match if h.req.op = .writeBack then s.holdWb h else none with
          | some s' => s'
          | none =>
            if s.parkDouble h then s.refuseDouble h
            else if s.slotBusy h.slot then s.refuseNow h stBUSY 100
            else if s.lineOpen h.line ∨ s.parkedOn h.line then
              (s.lookOnly h).refuseNow h stCONFLICT (s.fld F.DIR_COHCFG_HINT_CONFLICT)
            else
              match s.gate h with
              | (s, .go) => s.startOrRefuse h
              | (s, .wait status hint) => s.refuseNow h status hint
              | (s, .fail status) => s.respondErr h status

/-- The first parked request of each line may start when its line is closed (R190, R192). -/
def State.canUnpark (s : State) (h : HReq) : Bool :=
  decide (s.home.parked.find? (fun p => p.line = h.line) = some h) && !s.lineOpen h.line && !s.slotBusy h.slot
    && (match ((s.asOf h.conf).gate h).2 with
      | .wait _ _ => false
      | _ => true)

/-- Starts parked requests whose lines are free, oldest first; the fuel bounds them. -/
def State.pump : Nat → State → State
  | 0, s => s
  | n + 1, s =>
    match s.home.parked.find? s.canUnpark with
    | none => s
    | some h =>
      let s := { s with home.parked := s.home.parked.erase h }
      let back (s : State) : State := { s with home.parked := h :: s.home.parked }
      State.pump n <| s.under h.conf fun s => match s.homeCheck h with
        | (s, some status) => s.respondErr h status
        | (s, none) =>
          match s.gate h with
          | (s, .go) =>
            match s.startReq h with
            | (s, true) => s
            | (s, false) => back s
          | (s, .wait _ _) => back s
          | (s, .fail status) => s.respondErr h status

/-- A parked whole-line write whose promotion has been abandoned asks for it again (R282, R321). -/
def State.askPromos (s : State) : State :=
  s.home.parked.foldl (fun s h =>
    if s.wantsPromo h ∧ (s.migOf h.page).isNone ∧ !s.slotBusy h.slot ∧ !s.frameShort h.die then
      s.promotePoisoned h.page h.linePa
    else s) s

/-- Releases a key at its home: its result-cache entry is freed, and a line that waits for the release closes (R155,
R156, R168). A key that the home does not hold is ignored. -/
def State.releaseKey (s : State) (k : TxKey) : State :=
  let s := { s with home.results := s.home.results.filter fun e => e.key ≠ k }
  match s.home.txs.find? fun e => decide (e.2.phase = .release) && (match e.2.req with
      | some h => decide (h.key = k)
      | none => false) with
  | some (line, _) => s.closeTx line
  | none => s

/-- The answer of a lender to a read for a transaction (R298, R300). -/
def State.remReadDone (s : State) (line : Nat) (d : Line) : State :=
  match s.tx line with
  | none => s
  | some t =>
    if t.phase = .remRead then s.forTx line fun s => (s.putTx { t with stored := some d }).opWork line d else s

/-- A write to a lender has reached it: a request's own write ends the request; another lets its WriteBacks be
answered (R298). -/
def State.remWriteDone (s : State) (line : Nat) : State :=
  match s.tx line with
  | none => s
  | some t =>
    if t.phase = .remWrite then s.forTx line fun s => s.succeed line (t.newLine.getD 0)
    else
      let s := s.flushAcks line
      if t.phase = .done then s.closeTx line else s

/-- Carries a transaction on that waits for a page's drop or promotion, by its phase (R226, R321). -/
def State.pokePhase (s : State) (line : Nat) (t : HTx) : State :=
  let pk := pageIdx t.slot (64 * line)
  match t.phase with
  | .drop => if dRepl (s.desc pk) then s.dropPage pk (64 * line) else s.beginAll line
  | .mig =>
    if (s.migOf pk).isSome then s
    else
      match t.newLine with
      | some d => (s.putTx { t with phase := .snoops }).storeNew line d
      | none => (s.putTx { t with phase := .snoops }).memWork line
  | .snoops => State.advance phaseFuel s line
  | .recovery => State.advance phaseFuel s line
  | .selfSnoop => State.advance phaseFuel s line
  | .pendWait => State.advance phaseFuel s line
  | .done => (s.flushAcks line).closeTx line
  | _ => s

/-- Carries on a transaction that waits: a line that it holds is stored first (R322). -/
def State.poke (s : State) (line : Nat) : State :=
  s.forTx line fun s =>
    match s.tx line with
    | none => s
    | some t =>
      match t.pend with
      | none => s.pokePhase line t
      | some d =>
        if (s.migOf (pageIdx t.slot (64 * line))).isSome then s
        else
          let s := ((s.putTx { t with pend := none }).putPend line nobody t.slot (64 * line) d).flushAcks line
          match s.tx line with
          | none => s
          | some t => if t.pend.isSome then s else s.pokePhase line t

/-- Carries on every open line. -/
def State.pokeAll (s : State) : State := (s.home.txs.map (·.1)).foldl (fun s l => (s.poke l).recallEnd l) s

end Sys2Proof.Machine
end

