-- ==== Sys2Proof/Machine/Seq.lean ====
section
/-! DEFINITION. Sequencing: the bobbin, replicas applying writes, drops, and SCOPE 1 fences (R226 to R236). -/

namespace Sys2Proof.Machine

/-- `a` follows `b` modulo 2^48 (R230). -/
def follows48 (a b : Nat) : Bool := let d := (a + 2 ^ 48 - b % 2 ^ 48) % 2 ^ 48; decide (0 < d) && decide (d < 2 ^ 47)

/-- The last sequence number applied from a sender (R230). -/
def State.appliedOf (s : State) (n : NodeId) : Option Nat := (s.home.applied.find? fun e => e.2.1 = n).map (·.2.2)

/-- Records the sequence number applied from a sender. -/
def State.setApplied (s : State) (n : NodeId) (q : Nat) : State :=
  { s with home.applied := (s.home.applied.filter fun e => e.2.1 ≠ n) ++ [(false, n, q)] }

/-- The replica of a page that this module holds. -/
def State.replicaOf (s : State) (pa : Nat) : Option Replica := s.mem.replicas.find? fun r => r.pa = pageOf pa

/-- Drops a replica and frees its frame. -/
def State.dropReplica (s : State) (pa : Nat) : State :=
  match s.replicaOf pa with
  | none => s
  | some r => { s with mem.replicas := s.mem.replicas.filter fun x => x.pa ≠ r.pa }.freeFrame r.frame

/-- The die of a replica: that of its frame. -/
def Replica.die (r : Replica) : Nat := frameDie r.frame

/-- Applies one whole line at a replica (R227, R234); false where the apply fails. -/
def State.applyReplica (s : State) (pa : Nat) (d : Line) : State × Bool :=
  match s.replicaOf pa with
  | none => (s, false)
  | some r =>
    let w : Who := ⟨0, some r.owner, pa⟩
    match s.encrypt w r.die r.owner r.ksel (pa / 64 * 64) r.gen d with
    | (s, none) => (s.dropReplica pa, false)
    | (s, some c) =>
      match s.writeRaw w r.frame (lineOf pa) c with
      | (s, false) => (s.dropReplica pa, false)
      | (s, true) =>
        ({ s with mem.replicas := s.mem.replicas.map fun x =>
            if x.pa = r.pa then { x with poison := bfSet x.poison (lineOf pa) 1 0 } else x }, true)

/-- Answers a ReplApply to the member that collects (R236); the collector may be this module. -/
def State.sendReplDone (s : State) (collector : NodeId) (status : Nat) (rtag : BitVec 16) (q : Nat) : State :=
  if collector = s.node then s.seqDone rtag s.node (status = 1)
  else s.sendNode false collector (.replDone (BitVec.ofNat 2 status) s.node rtag (BitVec.ofNat 48 q))

/-- The bobbin sequences a write: ReplApply to the replica set, and its own copy applied at once (R232). -/
def State.seqWrite (s : State) (primary : NodeId) (rtag : BitVec 16) (mask pa : Nat) (d : Line) : State :=
  let s := s.bobbinIssue primary rtag mask pa d
  match s.selfIdx false with
  | none => s
  | some i =>
    if bitsOf mask i 1 = 0 then s
    else if primary = s.node then s.applyOwn rtag d
    else
      let (s, ok) := s.applyReplica pa d
      s.sendReplDone primary (if ok then 0 else 1) rtag s.home.seqLast

/-- The other homes of the pool. -/
def State.otherHomes (s : State) : List NodeId :=
  ((s.homesOf false).map (s.memNode false)).filter (· ≠ s.node)

/-- The lines of this primary whose sequenced writes are in flight. -/
def State.seqLines (s : State) : List Nat :=
  (s.home.txs.filter fun e => decide (e.2.phase = .seq) || decide (e.2.phase = .repl)).map (·.1)

/-- A fence has everything its exchange asks for: its mark is answered (R235). -/
def State.fenceGranted (s : State) (tag : BitVec 16) : State :=
  { s with home.fences := s.home.fences.map fun f => if f.seq = some tag then { f with wait := [] } else f }

/-- The bobbin sequences a fence: a mark to every member, collected under its own tag (R235). -/
def State.seqFence (s : State) (node : NodeId) (rtag : BitVec 16) : State :=
  let (n, s) := s.nextSeq
  let s := s.incFld F.DIR_SEQCNT_FENCES
  let (tag, s) := s.nextTag
  let others := s.otherHomes
  let s := { s with home.marks := s.home.marks ++ [(⟨node, rtag, tag, n, others⟩ : FenceMark)] }
  others.foldl (fun s m => s.sendNode false m (.replApply 1 s.node tag s.seqEpoch 0 (BitVec.ofNat 48 n) 0)) s

/-- Ends the marks that every member has answered (R235). -/
def State.endMarks (s : State) : State :=
  let done := s.home.marks.filter fun m => m.wait.isEmpty
  let s := { s with home.marks := s.home.marks.filter fun m => !m.wait.isEmpty }
  done.foldl (fun s m =>
    if m.node = s.node then s.fenceGranted m.rtag
    else s.sendNode false m.node (.seqGrant 0 s.node m.rtag s.seqEpoch (BitVec.ofNat 48 m.gsn))) s

/-- A SeqReq at the bobbin that may issue numbers. -/
def State.issueSeq (s : State) (m : PMsg) : State :=
  match m with
  | .seqReq kind node rtag _ pa mask line =>
    if kind = 1 then (s.seqFence node rtag).endMarks else s.seqWrite node rtag mask.toNat pa.toNat line
  | _ => s

/-- A SeqReq arrives (R232, R233, R246, R258). -/
def State.rxSeqReq (s : State) (kind : BitVec 2) (node : NodeId) (rtag epoch : BitVec 16) (pa : Addr) (mask : BitVec 64)
    (line : Line) : State :=
  let ep := s.fld (F.POOL_ROLES_BEPOCH 0)
  let m : PMsg := .seqReq kind node rtag epoch pa mask line
  if !s.isBobbin ∨ epoch.toNat ≠ ep then
    s.sendNode false node (.seqGrant 2 (s.bobbinNode false) rtag (BitVec.ofNat 16 ep) 0)
  else if s.gsnKnown then s.issueSeq m
  else if 4096 ≤ s.home.seqHeld.length then
    ((s.sendNode false node (.seqGrant 1 s.node rtag (BitVec.ofNat 16 ep) 0)).incFld F.DIR_SEQCNT_BUSY).record
      (occObj bDIR Cause.dir_SEQ_BUSY 2 node.toNat)
  else { s with home.seqHeld := s.home.seqHeld ++ [m] }

/-- Issues what a new bobbin has held, once it has its first number (R258). -/
def State.flushSeq (s : State) : State :=
  if !s.gsnKnown then s
  else
    let l := s.home.seqHeld
    l.foldl (fun s m => s.issueSeq m) { s with home.seqHeld := [] }

/-- Sends a SeqReq of this member's own; one to itself is issued, or held until it has its first number (R232, R258). As
long as it is not the bobbin itself, its own record names no other: the request stays outstanding (log 67, DEDUCED). -/
def State.sendSeq (s : State) (dst : NodeId) (rtag : BitVec 16) (m : PMsg) : State :=
  if dst ≠ s.node then s.sendNode false dst m
  else if !s.isBobbin then s
  else if s.gsnKnown then s.issueSeq m
  else s.holdOwn rtag m

/-- Sends a transaction's or a fence's SeqReq again to a node under an epoch (R232, R233). -/
def State.resendSeq (s : State) (rtag : BitVec 16) (dst : NodeId) (ep : BitVec 16) : State :=
  let s := match s.home.txs.find? fun e => decide (e.2.phase = .seq) && decide (e.2.tag = rtag) with
    | none => s
    | some (line, t) =>
      let set := (s.replSet (pageIdx t.slot (64 * line))).getD []
      let mask : Nat := ((set.map fun i => 2 ^ i).sum) + 2 ^ ((s.selfIdx false).getD 0)
      (s.putTx { t with due := 0 }).sendSeq dst rtag
        (.seqReq 0 s.node rtag ep (BitVec.ofNat 52 (64 * line)) (BitVec.ofNat 64 mask) (t.newLine.getD 0))
  if s.home.fences.any fun f => f.seq = some rtag ∧ !f.wait.isEmpty then
    let fences : List FenceRec := s.home.fences.map fun f => if f.seq = some rtag then { f with due := 0 } else f
    { s with home.fences := fences }.sendSeq dst rtag (.seqReq 1 s.node rtag ep 0 0 0)
  else s

/-- The tags of this member's own SeqReq that are outstanding (R218). -/
def State.seqTags (s : State) : List (BitVec 16) :=
  (s.home.txs.filter fun e => decide (e.2.phase = .seq)).map (fun e => e.2.tag)
    ++ if s.bigPool false then (s.home.fences.filter fun f => !f.wait.isEmpty).filterMap (·.seq) else []

/-- Sends every outstanding SeqReq again, to the bobbin in force (R218). -/
def State.resendAllSeq (s : State) : State :=
  s.seqTags.foldl (fun s tag => s.resendSeq tag (s.bobbinNode false) s.seqEpoch) s

/-- A SeqGrant arrives (R232, R233, R235). -/
def State.rxSeqGrant (s : State) (status : Nat) (node : NodeId) (rtag epoch : BitVec 16) : State :=
  if status = 0 then s.fenceGranted rtag
  else if status = 1 then
    let due := s.now + 10000
    { s with
      home.txs := s.home.txs.map fun e =>
        if e.2.phase = .seq ∧ e.2.tag = rtag then (e.1, { e.2 with due := due }) else e
      home.fences := s.home.fences.map fun f => if f.seq = some rtag then { f with due := due } else f }
  else s.resendSeq rtag node epoch

/-- The 10 µs after a SeqGrant STATUS 1 have passed (R233). -/
def State.seqBusyResend (s : State) (rtag : BitVec 16) : State :=
  let ready := s.home.txs.any (fun e => decide (e.2.phase = .seq) && decide (e.2.tag = rtag) && decide (e.2.due ≠ 0)
      && decide (e.2.due ≤ s.now))
    || s.home.fences.any fun f => decide (f.seq = some rtag) && decide (f.due ≠ 0) && decide (f.due ≤ s.now)
  if ready then
    s.resendSeq rtag (s.bobbinNode false) s.seqEpoch
  else s

/-- Answers the fence marks whose earlier writes have all their ReplDone (R235). -/
def State.answerMarks (s : State) : State :=
  let live := s.seqLines
  let clear := s.home.heldMarks.map fun m => { m with lines := m.lines.filter live.contains }
  let s := { s with home.heldMarks := clear.filter fun m => !m.lines.isEmpty }
  (clear.filter fun m => m.lines.isEmpty).foldl (fun s m =>
    if m.node = s.node then
      { s with home.fences := s.home.fences.map fun f =>
          if f.seq = some m.rtag then { f with wait := f.wait.erase s.node } else f }
    else s.sendNode false m.node (.replDone 0 s.node m.rtag (BitVec.ofNat 48 m.seqno))) s

/-- A ReplApply arrives from a sequencer (R226, R229 to R235). -/
def State.rxReplApply (s : State) (chan : ChanId) (kind : Nat) (node : NodeId) (rtag : BitVec 16) (pa seqno : Nat)
    (line : Line) : State :=
  let again := match s.appliedOf chan.peer with
    | some q => !follows48 seqno q
    | none => false
  if again then s.sendReplDone node 0 rtag seqno
  else
    let s := s.setApplied chan.peer seqno
    if kind = 0 then
      if node = s.node then s.applyOwn rtag line
      else
        let (s, ok) := s.applyReplica pa line
        s.sendReplDone node (if ok then 0 else 1) rtag seqno
    else if kind = 1 then
      if s.bigPool false then s.sendReplDone node 0 rtag seqno
      else
        { s with home.heldMarks := s.home.heldMarks ++ [(⟨chan, node, rtag, seqno, s.seqLines⟩ : HeldMark)] }.answerMarks
    else if kind = 2 then (s.dropReplica pa).sendReplDone node 0 rtag seqno
    else s

/-- A ReplDone arrives (R226, R229, R234, R235). -/
def State.rxReplDone (s : State) (status : Nat) (node : NodeId) (rtag : BitVec 16) : State :=
  let s := s.seqDone rtag node (status = 1)
  let s : State := { s with
    home.drops := s.home.drops.map fun d => if d.sent ∧ d.tag = rtag then { d with wait := d.wait.erase node } else d
    home.fences := s.home.fences.map fun f =>
      if f.seq = some rtag ∧ !s.bigPool false then { f with wait := f.wait.erase node } else f
    home.marks := s.home.marks.map fun m => if m.tag = rtag then { m with wait := m.wait.erase node } else m }
  let ended := s.home.drops.filter fun d => d.sent && d.wait.isEmpty
  let s := ended.foldl (fun s d => s.clearRepl d.page)
    { s with home.drops := s.home.drops.filter fun d => !(d.sent && d.wait.isEmpty) }
  s.endMarks

/-- Sends the drops that waited for writes in flight (R218, R226). -/
def State.pushDrops (s : State) : State :=
  (s.home.drops.filter fun d => !d.sent).foldl (fun s d =>
    let slot := d.page / 512
    let pa := bfGet (s.slotEntry slot) 32 31 * 2 ^ 21 + d.page % 512 * 4096
    s.dropPage d.page pa) s

/-- The Ack of a fence (R195). -/
def fenceAck (f : FenceRec) : Resp := baseResp f.req .ack 0 0

/-- R195 holds for a fence: every earlier request on its connection has been answered, every earlier EvictClean covered,
and no earlier fence waits. -/
def State.fenceReady (s : State) (f : FenceRec) : Bool :=
  !s.home.oreqs.any (fun o => decide (o.conn = f.conn) && decide (o.opened = f.opened) && decide (o.id < f.id))
    && !s.home.fences.any fun g => decide (g.conn = f.conn) && decide (g.opened = f.opened) && decide (g.id < f.id)

/-- Starts the exchange of a SCOPE 1 fence (R235). -/
def State.startFence (s : State) (f : FenceRec) : State :=
  let (tag, s) := s.nextTag
  let set (s : State) (wait : List NodeId) : State :=
    { s with home.fences := s.home.fences.map fun g => if g.id = f.id then { g with seq := some tag, wait := wait } else g }
  if s.bigPool false then
    let s := set s [s.bobbinNode false]
    s.sendSeq (s.bobbinNode false) tag (.seqReq 1 s.node tag s.seqEpoch 0 0 0)
  else
    let (n, s) := s.nextSeq
    let s := s.incFld F.DIR_SEQCNT_FENCES
    let others := s.otherHomes
    let s := set s (others ++ [s.node])
    let s := others.foldl (fun s m => s.sendNode false m (.replApply 1 s.node tag 0 0 (BitVec.ofNat 48 n) 0)) s
    { s with home.heldMarks := s.home.heldMarks ++
        [(⟨⟨false, s.node⟩, s.node, tag, n, s.seqLines⟩ : HeldMark)] }.answerMarks

/-- EvictCleans covered by their channel's COUNT are complete (R195). -/
def State.coverEvicts (s : State) : State :=
  { s with home.oreqs := s.home.oreqs.filter fun o =>
      match o.covered, o.dest with
      | some m, some id => match s.chan id with
        | some c => decide (c.base < m)
        | none => false
      | _, _ => true }

/-- Carries every fence on as far as it can go; the fuel bounds the fences. -/
def State.runFences : Nat → State → State
  | 0, s => s
  | n + 1, s =>
    match s.home.fences.find? fun f => s.fenceReady f && (f.seq.isNone || f.wait.isEmpty) with
    | none => s
    | some f =>
      let pool := f.req.hdr.scope && decide (1 < (s.homesOf false).length)
      if pool ∧ f.seq.isNone then State.runFences n (s.startFence f)
      else
        let s := { s with home.fences := s.home.fences.filter fun g => g.id ≠ f.id }
        let alive : Bool := match s.conn f.conn with
          | some c => decide (c.opened = f.opened)
          | none => false
        State.runFences n (if alive then s.queueMsg f.conn ⟨.resp (fenceAck f), none, true⟩ else s)

end Sys2Proof.Machine
end

