-- ==== Sys2Proof/Machine/Recv.lean ====
section
/-! DEFINITION. The receiving member: binding, windows, extent tables and the translation cache; routing to homes,
through faces and back; releases (R46 to R61, R70 to R72, R153 to R158, R227, R228, R245, R246, R264 to R266). -/

namespace Sys2Proof.Machine

/-- The die of an engine's translation unit. -/
def engineDie (e : Nat) : Nat := e / 4

/-- Window permissions as bits RD, WR, AT, CO. -/
def pRD : Nat := 1
def pWR : Nat := 2
def pAT : Nat := 4
def pCO : Nat := 8

/-- The window permissions that a request needs (R59). -/
def permsOf (op : ReqOp) : Nat :=
  match op with
  | .readShared => pRD + pCO
  | .readOwn => pRD + pWR + pCO
  | .upgrade => pWR + pCO
  | .readNoCache => pRD
  | .writeNoCache => pWR
  | .writeBack => pWR + pCO
  | .evictClean => 0
  | .fence => 0
  | _ => pRD + pWR + pAT

/-- Parity of a translation or pool table entry (R74, R271). -/
def State.tableOk (s : State) (f : Fld) : Bool := !s.tblBad f.key

/-- The entries of the member, role and agent tables that forwarding a request uses are good (R271). -/
def State.poolOk (s : State) (b : Bool) (m : Nat) (r : Req) : Bool :=
  s.tableOk (F.POOL_MEM_A (bankNo b) m) && (!s.memUplink b m || s.tableOk (F.POOL_ROLES (bankNo b)))
    && (!(grants r.op || decide (r.op = .writeBack) || decide (r.op = .evictClean))
      || s.tableOk (F.POOL_AGENT (bankNo b) r.hdr.agent.toNat))

/-- Check 1 of R58: none where an entry it reads has failed parity. -/
def State.bound (s : State) (k tenant : Nat) : Option Bool :=
  let bset := s.fld (F.TRN_CONN_BIND_SET k)
  let word := F.TRN_BSET_DATA (bset + 256 * (tenant / 64))
  if !s.tableOk (F.TRN_CONN_BIND k) ∨ !s.tableOk word then none
  else some (s.bit (F.TRN_CONN_BIND_BOUND k) && (s.reg word.key).getLsbD (tenant % 64)
    && decide (s.fld (F.TRN_CONN_BIND_PORT k) = (s.connPath k false).port))

/-- A window of a tenant covers an extent of its address space (R54). -/
def State.winCovers (s : State) (i ext : Nat) : Bool :=
  s.bit (F.TRN_WIN_A_EN i) && decide (s.fld (F.TRN_WIN_A_BASE i) ≤ ext)
    && decide (ext < s.fld (F.TRN_WIN_A_BASE i) + s.fld (F.TRN_WIN_B_SIZE i))

/-- The permissions of a window. -/
def State.winPerms (s : State) (i : Nat) : Nat := bitsOf (s.reg (F.TRN_WIN_A i).key).toNat 1 4

/-- The key of a translation-cache entry. -/
def xcKey (die tenant ext : Nat) : Nat := (die * 4096 + tenant) * 2 ^ 31 + ext

/-- What a translation answers. -/
inductive XlRes where
  | ok (pa slot member : Nat)
  | fail (status : Nat)
  deriving DecidableEq, Repr

/-- An extent's entry, with the permissions of its window in bits [5:2]: from the cache of the die, or from the extent
table and then cached (R55, R56, R72, R74). -/
def State.extentEntry (s : State) (die txid tenant ext win : Nat) : State × Option Word :=
  let key := xcKey die tenant ext
  let idx := s.fld (F.TRN_WIN_B_ETOFF win) + (ext - s.fld (F.TRN_WIN_A_BASE win))
  let read (s : State) : State × Option Word :=
    if s.mem.etrBad.contains idx then (s.record (reqOcc bTRN Cause.trn_ET_UNCORR txid tenant), none)
    else
      let e : Word := bfSet (sget (fun _ => 0) s.mem.etr idx) 2 4 (s.winPerms win)
      if !e.getLsbD 0 ∨ 131072 ≤ countIf s.mem.xcache (fun x => x.1 / 2 ^ 43 = die) then (s, some e)
      else
        let (bad, s) := s.takePflip 3 die 0
        ({ s with mem.xcache := tput s.mem.xcache key e
                  mem.xcacheBad := if bad then key :: s.mem.xcacheBad else s.mem.xcacheBad }, some e)
  match tget s.mem.xcache key with
  | none => read s
  | some e =>
    if s.mem.xcacheBad.contains key then
      read ({ s with mem.xcache := tdel s.mem.xcache key
                     mem.xcacheBad := s.mem.xcacheBad.filter (· ≠ key) }.record (reqOcc bTRN Cause.trn_XC_PARITY txid tenant))
    else (s, some e)

/-- Checks 2 to 6 of R58: translates a request at the receiving member. DESIGN CHOICE (log 174): R74 does not say which requests
use a bad window entry; every request of the tenant does, since its 16 windows are compared at once. -/
def State.translate (s : State) (die txid tenant : Nat) (op : ReqOp) (ta : Nat) : State × XlRes :=
  let ext := ta / 2 ^ 21
  let wins := (upto 16).map (16 * tenant + ·)
  let bad (s : State) : State × XlRes := (s.record (reqOcc bTRN Cause.trn_TBL_PARITY txid tenant), .fail stINTERNAL)
  if !s.tableOk (F.TRN_TENANT tenant) then bad s
  else if !s.bit (F.TRN_TENANT_EN tenant) then (s, .fail stDENIED)
  else if wins.any fun i => !s.tableOk (F.TRN_WIN_A i) || !s.tableOk (F.TRN_WIN_B i) then bad s
  else
    match wins.find? fun i => s.winCovers i ext with
    | none => (s, .fail stNOXL)
    | some w =>
      match s.extentEntry die txid tenant ext w with
      | (s, none) => (s, .fail stINTERNAL)
      | (s, some e) =>
        let need := permsOf op
        if !e.getLsbD 0 then (s, .fail stNOXL)
        else if (need &&& bfGet e 2 4) ≠ need ∨ ((need &&& pWR) ≠ 0 ∧ e.getLsbD 1) then (s, .fail stDENIED)
        else
          let pa := bfGet e 32 31 * 2 ^ 21 + ta % 2 ^ 21
          if s.tblBad (mapKey false pa) then bad s
          else
            match s.mapMember false pa with
            | none => (s, .fail stNOXL)
            | some m => (s, .ok pa (bfGet e 8 24) m)

/-- A request as it goes on from the receiving member: with PA in place of TA (R119). -/
def withPa (r : Req) (pa : Nat) : Req := { r with hdr := { r.hdr with addr := BitVec.ofNat 52 pa } }

/-- The channel to a node is down by a declaration (R160). -/
def State.nodeDead (s : State) (b : Bool) (n : NodeId) : Bool := s.home.dead.contains (b, n)

/-- Removes a relay record. -/
def State.freeRelay (s : State) (slot : Nat) : State := { s with home.relays := tdel s.home.relays slot }

/-- The relay record of a request (R266). -/
def State.relayOf (s : State) (origin : NodeId) (oconn : ConnId) (txid : Txid) : Option (Nat × Relay) :=
  s.home.relays.find? fun e => e.2.origin = origin ∧ e.2.oconn = oconn ∧ e.2.txid = txid

/-- The agent of bank `b` that stands for an agent of the other bank (R265). -/
def State.proxyFor (s : State) (b : Bool) (a : AgentId) : Option AgentId :=
  ((upto 1024).map (BitVec.ofNat 10)).find? fun x => s.agInUse b x && s.agProxy b x && decide (s.agOther b x = a)

/-- Coherent requests that need an agent mapping at a face (R59, R265). -/
def needsAgent (op : ReqOp) : Bool := grants op || decide (op = .writeBack) || decide (op = .evictClean)

/-- Sends a request that is relayed at this face on to a home of the far bank (R264 to R266). -/
def State.relayTo (s : State) (h : HReq) (far : AgentId) (n : NodeId) (m : Nat) : State :=
  let b := !h.bank
  let old := s.relayOf h.key.origin h.key.oconn h.key.txid
  match (match old with
    | some (i, _) => some i
    | none => firstIdx 16384 fun i => (tget s.home.relays i).isNone) with
  | none =>
    let s := if h.req.op = .evictClean then s else s.nak h stBUSY (s.fld F.DIR_COHCFG_HINT_BUSY)
    (s.incFld F.POOL_RELAY_FULL).record
      { reqOcc bPOOL Cause.pool_RELAY_FULL h.req.hdr.txid.toNat h.tenant with obj := h.key.origin.toNat, okind := 2 }
  | some slot =>
    let rel : Relay := ⟨h.key.origin, h.key.oconn, h.key.txid, h.bank, h.named, far, n, h.req.op, h.slot,
      { h.req with hdr := { h.req.hdr with agent := far } }⟩
    let s := { s with home.relays := tput s.home.relays slot rel }
    let s := s.setFld F.POOL_RELAY_PEAK (max (s.fld F.POOL_RELAY_PEAK) s.home.relays.length)
    let r : Req := { h.req with hdr := { h.req.hdr with agent := far } }
    let s := s.sendNode b n (.fwdToHome ⟨s.node, BitVec.ofNat 16 slot, BitVec.ofNat 16 (s.memEpoch b m),
      BitVec.ofNat 24 h.slot⟩ (.req r))
    if h.req.op = .evictClean then s.freeRelay slot else s

/-- A request that R149 and R162 drop at once, without an answer: a non-coherent one whose channel has been DOWN or in START
for GRACE. -/
def State.dropsNow (s : State) (b : Bool) (n : NodeId) (op : ReqOp) : Bool := !coherent op && s.chanFlushed ⟨b, n⟩

/-- A request that crosses this face into the other bank (R264, R265). `h.bank` is the bank it comes from. DESIGN CHOICE
(log entry 63): R264 does not say what becomes of a request from the outer pool whose entry of the pool's own map leads
outward again; it gets NO_TRANSLATION. -/
def State.crossFace (s : State) (h : HReq) : State :=
  let b := !h.bank
  match (if needsAgent h.req.op then s.proxyFor b h.agent else some h.agent) with
  | none => s.respondErr h stDENIED
  | some far =>
    if s.tblBad (mapKey b h.pa) then (s.record (reqOcc bTRN Cause.trn_TBL_PARITY h.req.hdr.txid.toNat h.tenant)).respondErr h stINTERNAL
    else
      match s.mapMember b h.pa with
      | none => s.respondErr h stNOXL
      | some m =>
        let n := s.memNode b m
        let q : Req := { h.req with hdr := { h.req.hdr with agent := far } }
        if !s.poolOk b m q then
          (s.record (reqOcc bPOOL Cause.pool_TBL_PARITY h.req.hdr.txid.toNat h.tenant)).respondErr h stINTERNAL
        else if (if b then n = s.node else s.memUplink b m) then s.respondErr h stNOXL
        else if n = s.node then s.homeReq { h with req := q }
        else if s.nodeDead b n then s.respondErr h stDEAD
        else if s.dropsNow b n h.req.op then s
        else s.relayTo h far n m

/-- Serves a ReadNoCache from a replica that this member holds; none where the request must go to its home (R227,
R228). -/
def State.serveReplica (s : State) (k : Nat) (r : Req) (pa : Nat) : State × Bool :=
  match (if r.op = .readNoCache then (s.replicaOf pa).filter fun x => x.lines = 2 ^ 64 - 1 else none) with
  | none => (s, false)
  | some rep =>
    let tenant := r.hdr.tenant.toNat
    let w : Who := ⟨r.hdr.txid.toNat, some tenant, pa / 64 * 64⟩
    if rep.owner ≠ tenant then
      (((s.record (w.occ bXTS Cause.xts_OWNER_ALARM)).alarm).deliverResp k (baseResp r .ack stKEY (pa / 64 * 64)) s.node, true)
    else if rep.poison.getLsbD (lineOf pa) then
      (s.deliverResp k (baseResp r .ack stPOISON (pa / 64 * 64)) s.node, true)
    else
      match s.readRaw w rep.frame (lineOf pa) srcReplica with
      | (s, .line c _) =>
        match s.decrypt w rep.die rep.owner rep.ksel (pa / 64 * 64) rep.gen c with
        | (s, some d) =>
          ((s.traffic tenant 64 0 0).deliverResp k { baseResp r .data 0 (pa / 64 * 64) with line := d } s.node, true)
        | (s, none) => (s, false)
      | (s, .bad) => ((s.dropReplica pa).recordPa (occObj bDIR Cause.dir_REPLICA_DROP 1 pa), false)
      | (s, .halted) => (s, false)

/-- Sets where a request in progress went. -/
def State.setDest (s : State) (id : Nat) (dest : Option ChanId) (covered : Option Nat) : State :=
  { s with home.oreqs := s.home.oreqs.map fun o => if o.id = id then { o with dest := dest, covered := covered } else o }

/-- Removes a request in progress. -/
def State.dropOReq (s : State) (id : Nat) : State := { s with home.oreqs := s.home.oreqs.filter fun o => o.id ≠ id }

/-- Sends a translated request on: to this home, across this face, or over Picot (R58, R160, R245, R264). -/
def State.sendHome (s : State) (id engine k slot m : Nat) (r : Req) : State :=
  let h : HReq := ⟨⟨s.node, BitVec.ofNat 16 k, r.hdr.txid⟩, false, engine, slot, r, r.hdr.agent, s.home.confGen⟩
  let n := s.memNode false m
  let oreqs : List OReq := s.home.oreqs.map fun o => if o.id = id then { o with req := r, slot := slot } else o
  let s := { s with home.oreqs := oreqs }
  let evict := decide (r.op = .evictClean)
  if !s.poolOk false m r then
    let s := (s.record (reqOcc bPOOL Cause.pool_TBL_PARITY h.req.hdr.txid.toNat h.tenant)).respondErr h stINTERNAL
    if evict then s.dropOReq id else s
  else if n = s.node then
    let s := if s.memUplink false m then s.crossFace h else s.homeReq h
    if evict then s.dropOReq id else s
  else if s.nodeDead false n then
    let s := s.respondErr h stDEAD
    if evict then s.dropOReq id else s
  else if s.dropsNow false n r.op then s.dropOReq id
  else
    let s := s.sendNode false n (.fwdToHome ⟨s.node, h.key.oconn, BitVec.ofNat 16 (s.memEpoch false m),
      BitVec.ofNat 24 slot⟩ (.req r))
    match s.chanTo false n with
    | none => if evict then s.dropOReq id else s
    | some c => s.setDest id (some c) (if evict then some (s.chanMark c) else none)

/-- Answers a request that failed a check at this member (R58, R60, R74). DESIGN CHOICE (log 175): R73 does not say whether a
dropped EvictClean counts in TRN_REFUSE; it does not. -/
def State.failHere (s : State) (id k : Nat) (r : Req) (status : Nat) : State :=
  if r.op = .evictClean then s.dropOReq id
  else
    let s := if status = stNOXL then s.incFld F.TRN_REFUSE_NOXL
      else if status = stDENIED then s.incFld F.TRN_REFUSE_DENIED else s
    s.deliverResp k (baseResp r .ack status 0) s.node

/-- A request reaches the member that holds its connection (R57 to R61, R153, R158, R195), in its turn (R101). -/
def State.recvReq (s : State) (k : Nat) (r : Req) : State :=
  match s.conn k with
  | none => s
  | some c =>
    if !s.dataUp ∨ !s.inTurn k 1 (fun m => m = .req r) then s
    else
      let engine := s.rxEngine k 1
      let s := s.takeMsg k 1 fun m => m = .req r
      if !c.msgsOk 1 [.req r] then s.closeProtocol k
      else
        let id := s.home.nextId
        let s := { s with home.nextId := id + 1 }
        let o : OReq := ⟨id, k, c.opened, r, 0, none, none⟩
        let tenant := r.hdr.tenant.toNat
        if r.op = .fence then
          match s.bound k tenant with
          | none => (s.record (reqOcc bTRN Cause.trn_TBL_PARITY r.hdr.txid.toNat tenant)).queueMsg k
              ⟨.resp (baseResp r .ack stINTERNAL 0), none, true⟩
          | some false => (s.incFld F.TRN_REFUSE_DENIED).queueMsg k ⟨.resp (baseResp r .ack stDENIED 0), none, true⟩
          | some true =>
            if s.isDetached c.agent then
              (s.incFld F.DIR_NAKCNT_BUSY).queueMsg k ⟨.resp (nakResp r stBUSY 1000), none, true⟩
            else
              { s with home.fences := s.home.fences ++ [(⟨id, k, c.opened, r, none, [], 0⟩ : FenceRec)] }
        else
          let dup := r.op ≠ .evictClean ∧ s.home.oreqs.any fun x =>
            decide (x.conn = k) && decide (x.req.hdr.txid = r.hdr.txid) && decide (x.req.op ≠ .evictClean)
          if dup then s
          else
            let s := { s with home.oreqs := s.home.oreqs ++ [o] }
            match s.bound k tenant with
            | none => (s.record (reqOcc bTRN Cause.trn_TBL_PARITY r.hdr.txid.toNat tenant)).failHere id k r stINTERNAL
            | some false => s.failHere id k r stDENIED
            | some true =>
              if s.isDetached c.agent then
                if r.op = .evictClean then s.dropOReq id
                else (s.incFld F.DIR_NAKCNT_BUSY).deliverResp k (nakResp r stBUSY 1000) s.node
              else
                match s.translate (engineDie c.engine) r.hdr.txid.toNat tenant r.op r.hdr.addr.toNat with
                | (s, .fail status) => s.failHere id k r status
                | (s, .ok pa slot m) =>
                  match s.serveReplica k r pa with
                  | (s, true) => s
                  | (s, false) => s.sendHome id engine k slot m (withPa r pa)

/-- The NAK of a message sent to a holder that has changed (R188, R246). -/
def staleNak (r : Req) (epoch : Nat) (holder : NodeId) : Resp :=
  { nakResp r stSTALE 0 with epoch := BitVec.ofNat 16 epoch, redirect := holder }

/-- A request reaches a role over Picot: the role's holder and epoch are checked first (R245, R246, R258, R264). -/
def State.rxFwdReq (s : State) (chan : ChanId) (engine : Nat) (env : Envelope) (r : Req) : State :=
  let b := chan.bank
  let h : HReq := ⟨⟨env.origin, env.oconn, r.hdr.txid⟩, b, engine, env.hslot.toNat, r, r.hdr.agent, s.home.confGen⟩
  let fromNew := s.home.hoff.peer = chan.peer ∧ (s.home.hoff.phase = .window ∨ s.home.hoff.phase = .residual)
  if fromNew ∧ (r.op = .writeBack ∨ r.op = .evictClean) ∧ (s.tx h.line).isSome then s.homeReq h
  else if s.tblBad (mapKey b h.pa) then (s.record (reqOcc bTRN Cause.trn_TBL_PARITY h.req.hdr.txid.toNat h.tenant)).respondErr h stINTERNAL
  else
    match s.mapMember b h.pa with
    | none => s.respondErr h stNOXL
    | some m =>
      if !s.poolOk b m r then
        (s.record (reqOcc bPOOL Cause.pool_TBL_PARITY h.req.hdr.txid.toNat h.tenant)).respondErr h stINTERNAL
      else if s.memNode b m ≠ s.node ∨ env.epoch.toNat ≠ s.memEpoch b m then
        if r.op = .evictClean then s
        else
          (s.incFld F.DIR_NAKCNT_STALE).respond h (staleNak r (s.memEpoch b m) (s.memNode b m))
      else if (r.op = .writeBack ∨ r.op = .evictClean) ∧ s.home.hoff.newHolder
          ∧ s.home.hoff.residual.contains h.line then
        s.sendNode false s.home.hoff.peer (.fwdToHome env (.req r))
      else if b ∨ s.memUplink b m then s.crossFace h
      else s.homeReq h

/-- A response comes back to this face for a relay (R264, R266). -/
def State.relayBack (s : State) (slot : Nat) (rel : Relay) (r : Resp) : State :=
  let back : Resp := if needsAgent rel.op then { r with agent := rel.agent } else r
  let final := decide (r.op ≠ .nak)
  let released := decide (r.status = 0) && (grants rel.op || keepsResult rel.op)
  let s := if final ∧ !released then s.freeRelay slot else s
  if rel.origin = s.node then s.deliverResp rel.oconn.toNat back s.node
  else s.sendResp rel.bank rel.origin rel.oconn (coherent rel.op) back

/-- A response as its receiver takes it: a reserved STATUS is handled as INTERNAL (R110). -/
def respTaken (r : Resp) : Resp :=
  if 12 ≤ r.status.toNat ∧ r.status.toNat ≤ 14 then { r with status := 15 } else r

/-- A response or snoop reaches a member over Picot (R96, R110, R245, R264). -/
def State.rxFwdToOrigin (s : State) (chan : ChanId) (env : Envelope) (m : Msg) : State :=
  match m with
  | .resp r0 =>
    let r := respTaken r0
    match tget s.home.relays env.oconn.toNat with
    | some rel =>
      if rel.txid = r.txid ∧ rel.bank ≠ chan.bank then s.relayBack env.oconn.toNat rel r
      else s.deliverResp env.oconn.toNat r chan.peer
    | none => s.deliverResp env.oconn.toNat r chan.peer
  | .snp p => s.routeSnoop chan.bank (some chan) p
  | _ => s

/-- The epoch of the entry that names a node in a bank (R245). -/
def State.nodeEpoch (s : State) (b : Bool) (n : NodeId) : Nat := ((s.entryOf b n).map (s.memEpoch b)).getD 0

/-- An answer to a snoop on its way to the home that sent it (R119, R178, R245), with the agent as that home names it;
`oconn` is the connection on which the agent gave it. -/
def State.snoopOnward (s : State) (f : FwdSnp) (oconn : ConnId) (a0 : SnpResp) : State :=
  let a : SnpResp := { a0 with agent := f.asked }
  match f.home with
  | none => s.snoopAnswer a.agent a.snptx a.pa.toNat ⟨a.newState.toNat, a.wbif, a.dirty, a.data⟩
  | some id =>
    s.sendChan id (.fwdToHome ⟨s.node, oconn, BitVec.ofNat 16 (s.nodeEpoch id.bank id.peer), 0⟩ (.snpRsp a))

/-- A snoop response arrives on a connection (R102, R176 to R178), in its turn (R101). -/
def State.recvSnpRsp (s : State) (k : Nat) (a : SnpResp) : State :=
  match s.conn k with
  | none => s
  | some c =>
    if !s.dataUp ∨ !s.inTurn k 3 (fun m => m = .snpRsp a) then s
    else
      let s := s.takeMsg k 3 fun m => m = .snpRsp a
      if !c.msgsOk 3 [.snpRsp a] then s.closeProtocol k
      else
        match s.home.fwdSnps.find? fun f => f.relay.isNone && f.sent && decide (f.snp.agent = a.agent)
            && decide (f.snp.snptx = a.snptx) && decide (f.snp.pa = a.pa) with
        | none => s
        | some f => ({ s with home.fwdSnps := s.home.fwdSnps.erase f }).snoopOnward f (BitVec.ofNat 16 k) a

/-- A snoop response arrives over Picot: at the home, or at a face that relayed the snoop (R264). -/
def State.rxFwdSnp (s : State) (chan : ChanId) (oconn : ConnId) (a : SnpResp) : State :=
  match s.home.fwdSnps.find? fun f => decide (f.relay = some chan) && decide (f.snp.agent = a.agent)
      && decide (f.snp.snptx = a.snptx) && decide (f.snp.pa = a.pa) with
  | some f => ({ s with home.fwdSnps := s.home.fwdSnps.erase f }).snoopOnward f oconn a
  | none => s.snoopAnswer a.agent a.snptx a.pa.toNat ⟨a.newState.toNat, a.wbif, a.dirty, a.data⟩

/-- A wrapped message reaches a role or home (R119, R245); `engine` is the one whose port received it. -/
def State.rxFwdToHome (s : State) (chan : ChanId) (engine : Nat) (env : Envelope) (m : Msg) : State :=
  match m with
  | .req r => s.rxFwdReq chan engine env r
  | .snpRsp a => s.rxFwdSnp chan env.oconn a
  | _ => s

/-- A key that the handoff table holds (R257, R259, R260). -/
def State.movedKey (s : State) (k : TxKey) : Bool := s.home.hoff.moved.any fun e => e.1 = k

/-- A ResultRelease for a key at this module: forwarded by a relay or by the handoff table, dropped after the window, or
applied (R156, R259, R260, R266). -/
def State.release (s : State) (k : TxKey) : State :=
  match s.relayOf k.origin k.oconn k.txid with
  | some (slot, rel) =>
    (s.freeRelay slot).sendNode (!rel.bank) rel.dest (.resultRelease s.node (BitVec.ofNat 16 slot) k.txid)
  | none =>
    if s.movedKey k ∧ s.home.hoff.phase = .window then
      ({ s with home.hoff.moved := s.home.hoff.moved.filter fun e => e.1 ≠ k }.incFld F.POOL_HOFF_CNT_FWD).sendNode
        false s.home.hoff.peer (.resultRelease k.origin k.oconn k.txid)
    else if s.movedKey k then
      ({ s with home.hoff.moved := s.home.hoff.moved.filter fun e => e.1 ≠ k }.incFld F.POOL_HOFF_CNT_DROPPED).record
        (occObj bPOOL Cause.pool_HOFF_DROP 2 k.origin.toNat)
    else s.releaseKey k

/-- Passes the releases that acknowledgements caused on to their homes (R156); the fuel bounds them. -/
def State.drainRels : Nat → State → State
  | 0, s => s
  | n + 1, s =>
    match s.link.rels with
    | [] => s
    | r :: rest =>
      let s := { s with link.rels := rest }
      let k : TxKey := ⟨s.node, r.oconn, r.txid⟩
      State.drainRels n <|
        if (s.relayOf k.origin k.oconn k.txid).isSome ∨ r.home = s.node then s.release k
        else s.sendNode false r.home (.resultRelease k.origin k.oconn k.txid)

/-- One round of everything that can go on by itself: releases, open lines, drops, marks, parked requests, held snoops
and fences. -/
def State.round (s : State) : State :=
  let s := (s.drainRels (s.link.rels.length + 4)).pokeAll.pushDrops.answerMarks.flushSeq
  let s := (State.pump (2 * s.home.parked.length + 2) s).flushSnoops.coverEvicts
  State.runFences (2 * s.home.fences.length + 1) s

/-- Carries the home and the member on until nothing moves by itself; the fuel bounds the rounds. -/
def State.settleN : Nat → State → State
  | 0, s => s
  | n + 1, s =>
    let s' := s.round
    if s'.link.rels.isEmpty ∧ s'.home.parked.length = s.home.parked.length then s' else State.settleN n s'

/-- Carries the home and the member on (R185: a line that closes starts the oldest request parked on it). -/
def State.settle (s : State) : State := State.settleN (s.home.parked.length + s.link.rels.length + 2) s

end Sys2Proof.Machine
end

