-- ==== Sys2Proof/Machine/Tier.lean ====
section
/-! DEFINITION. The tier engine: bins, stores, migrations, the scan, heat epochs, replication and rekey (R277 to R302,
R319, R382 to R389). -/

namespace Sys2Proof.Machine

/-- The address of a page by its index, from its slot's entry (R50). -/
def State.pagePa (s : State) (pk : Nat) : Nat := bfGet (s.slotEntry (pk / 512)) 32 31 * 2 ^ 21 + pk % 512 * 4096

/-- Releases the granules that a warm page's units take. -/
def State.freeRunOf (s : State) (d : BitVec 256) : State :=
  s.freeGranules (dFrame d) (dBinoff d) (granules (pageUnits d))

/-- The part of a descriptor that every tier keeps, with a new TIER, FRAME and HEAT (R281). -/
def baseDesc (d : BitVec 256) (tier : Nat) (ksel : Bool) (heat frame : Nat) : BitVec 256 :=
  BitVec.ofNat 256 (tier + 4 * b2n ksel + 16 * dOwner d + 2 ^ 16 * dGen d + 2 ^ 32 * heat + 2 ^ 40 * frame)

/-- The WARM descriptor of four segments, given as type, length and check value. -/
def warmDesc (base : BitVec 256) (binoff : Nat) (segs : List (Nat × Nat × Nat)) : BitVec 256 :=
  segs.zipIdx.foldl (fun d p =>
    bfSet (bfSet (bfSet d (72 + 32 * p.2) 32 p.1.2.2) (200 + 11 * p.2) 11 p.1.2.1) (244 + 2 * p.2) 2 p.1.1)
    (bfSet base 252 4 binoff)

/-- Segment `k` of a warm descriptor as type, length and check value. -/
def segOf (d : BitVec 256) (k : Nat) : Nat × Nat × Nat := (dType d k, dLen d k, dChk d k)

/-- Unit `j` of a body, padded with zeros (R309). -/
def bodyUnit (body : List Byte) (j : Nat) : Line := BitVec.ofNat 512 (bytesAt body (64 * j) 64)

/-- Encrypts a body and writes it to a bin from a start unit on; false where a write was lost (R309). -/
def State.writeBody (s : State) (w : Who) (pk ppa k bin start : Nat) (ksel : Bool) (body : List Byte) : State × Bool :=
  let d := s.desc pk
  (upto (bodyUnits body.length)).foldl (fun (r : State × Bool) j =>
    match r.1.encrypt w (pageDie pk) (dOwner d) ksel (ppa + 1024 * k + 64 * j) (dGen d) (bodyUnit body j) with
    | (s, none) => (s, false)
    | (s, some c) =>
      let (s, ok) := s.writeRaw w bin (start + j) c
      (s, r.2 && ok)) (s, true)

/-- Copies a body's units as stored; a poisoned segment's units are written as zeros, and a body with an uncorrectable
unit or a lost write becomes poisoned (R289, R309, R310, R344). -/
def State.copyBody (s : State) (w : Who) (pk : Nat) (d : BitVec 256) (k bin start : Nat) : State × (Nat × Nat × Nat) :=
  let seg := segOf d k
  let n := bodyUnits (dLen d k)
  let (s, ok) := (upto n).foldl (fun (r : State × Bool) j =>
    if r.1.segLost pk k then (let (s, _) := r.1.writeRaw w bin (start + j) 0; (s, r.2))
    else
      match r.1.readRaw w (dFrame d) (segStart d k + j) srcMigration with
      | (s, .line c _) => let (s, b) := s.writeRaw w bin (start + j) c; (s, r.2 && b)
      | (s, _) => ((s.writeRaw w bin (start + j) 0).1, false)) (s, true)
  (s, if ok then seg else (tZERO, seg.2.1, seg.2.2))

/-- The start unit of each body of a page laid out from a granule on. -/
def starts (binoff : Nat) (lens : List Nat) (k : Nat) : Nat :=
  4 * binoff + ((lens.take k).map bodyUnits).sum

/-- The bin is exhausted: the page is promoted, drawing on the reserve (R280, R289). A page that migrates already is left to
that migration (R284). -/
def State.exhaust (s : State) (pk : Nat) : State :=
  if (s.migOf pk).isSome then s
  else
    let s := s.startMig pk (s.pagePa pk) .promote .exhausted .frame
    if (s.migOf pk).isSome then s.incFld F.TIER_WARMCNT_FULLPROMO else s

/-- A way of a segment's set is at hand again: the set owes no store (R291). -/
def State.unstarve (s : State) (die seg : Nat) : State :=
  { s with mem.starved := s.mem.starved.filter (· ≠ cacheSet die seg) }

/-- Stores a DIRTY cache entry: in place, relocated, or by promotion of its page (R288, R289, R328, R329). -/
def State.storeSegment (s : State) (pk k : Nat) : State :=
  let d := s.desc pk
  let ppa := s.pagePa pk
  let die := pageDie pk
  match s.segEntry die ((ppa + 1024 * k) / 1024) with
  | none => s
  | some (i, e) =>
    if e.dirty.isNone ∨ dTier d ≠ tierWARM then s
    else if e.bad then (s.useEntry pk ppa k i e).1
    else
      let w : Who := ⟨0, some (dOwner d), ppa + 1024 * k⟩
      match s.compressOn die w e.data with
      | (s, none) => s.exhaust pk
      | (s, some p) =>
        let clean (s : State) : State :=
          (({ s with mem.scache := tput s.mem.scache i { e with dirty := none } }).unstarve die e.seg).countStored p
        let segs := (upto 4).map fun j => if j = k then (p.type, p.len, p.chk) else segOf d j
        let lens := segs.map (·.2.1)
        let n := (lens.map bodyUnits).sum
        if n = pageUnits d then
          let (s, ok) := s.writeBody w pk ppa k (dFrame d) (segStart d k) (dKsel d) p.body
          let s := clean (s.setDesc pk (warmDesc d (dBinoff d) segs))
          if ok then s else s.poisonSeg pk k
        else
          match (if bfGet (s.ftabAt (dFrame d)) 0 2 = fBIN then freeRun (s.gmapOf (dFrame d)) (granules n) else none) with
          | none => s.exhaust pk
          | some g =>
            let bin := dFrame d
            let (s, ok) := s.writeBody w pk ppa k bin (starts g lens k) (dKsel d) p.body
            let (s, segs) := (upto 4).foldl (fun (r : State × List (Nat × Nat × Nat)) j =>
              if j = k then (r.1, r.2 ++ [if ok then (p.type, p.len, p.chk) else (tZERO, p.len, p.chk)])
              else
                let (s, x) := r.1.copyBody w pk d j bin (starts g lens j)
                (s, r.2 ++ [x])) (s, [])
            let s := s.setDesc pk (warmDesc d g segs)
            let s := s.setGmap bin (s.gmapOf bin ||| granMask g (granules n))
            (clean ((s.freeRunOf d).incFld F.TIER_MIGCNT_RELOC))

/-- Completes the writes accepted for a page: its merge entries close (R281 step 3). -/
def State.settlePage (s : State) (ppa : Nat) : State := s.closeMerges fun e => e.line / 64 = ppa / 4096

/-- Stores each DIRTY entry of a page (R281 step 3, R288). -/
def State.storePage (s : State) (pk : Nat) : State := (upto 4).foldl (fun s k => s.storeSegment pk k) s

/-- Drops a page's cache entries (R292). -/
def State.dropSegs (s : State) (die ppa : Nat) : State :=
  (upto 4).foldl (fun s k =>
    match s.segEntry die ((ppa + 1024 * k) / 1024) with
    | some (i, e) => ({ s with mem.scache := tdel s.mem.scache i }).unstarve die e.seg
    | none => s) s

/-- What a page that leaves WARM leaves behind: its granules, its cache entries and the marks of its segments (R281
step 6, R292). -/
def State.leaveWarm (s : State) (pk ppa : Nat) (d : BitVec 256) : State :=
  ((s.freeRunOf d).dropSegs (pageDie pk) ppa).forgetSegs pk

/-- The current content of each segment of a warm page for a migration: none where it is poisoned; an answer of none as
a whole where a segment cannot be served (R281, R310, R319). -/
def State.warmContent (s : State) (pk ppa : Nat) : State × Option (List (Option (BitVec 8192))) :=
  (upto 4).foldl (fun (r : State × Option (List (Option (BitVec 8192)))) k =>
    let (s, acc) := r
    match acc with
    | none => (s, none)
    | some l =>
      let load (s : State) : State × Option (List (Option (BitVec 8192))) :=
        match s.loadSegment ⟨0, some (dOwner (s.desc pk)), 0⟩ pk ppa k srcMigration with
        | (s, .ok v) => (s, some (l ++ [some v]))
        | (s, .poison) => (s, some (l ++ [none]))
        | (s, .decomp) => (s, some (l ++ [none]))
        | (s, _) => (s, none)
      if s.segLost pk k then (s, some (l ++ [none]))
      else
        match s.segEntry (pageDie pk) ((ppa + 1024 * k) / 1024) with
        | some (i, e) =>
          match s.useEntry pk ppa k i e with
          | (s, .ok v) => (s, some (l ++ [some v]))
          | (s, .poison) => (s, some (l ++ [none]))
          | (s, _) => load s
        | none => load s) (s, some [])

/-- A die may encrypt under a tenant's current key. -/
def State.canEncrypt (s : State) (die owner : Nat) (ksel : Bool) : Bool := s.keyUsable die (s.keySlotOf owner ksel)

/-- Writes a page's 64 lines into a new HOT frame; lines without content are poisoned and hold zeros (R281, R344). -/
def State.fillHot (s : State) (pk ppa f : Nat) (content : List (Option Line)) : State :=
  let d := s.desc pk
  let owner := dOwner d
  let poison := (content.zipIdx.map fun p => if p.1.isNone then 2 ^ p.2 else 0).sum
  let s := s.setDesc pk (bfSet (baseDesc d tierHOT (s.curOf owner) (s.heatEff pk) f) 72 64 poison)
  content.zipIdx.foldl (fun s p =>
    match p.1 with
    | some x => (s.putHotLine ⟨0, some owner, ppa + 64 * p.2⟩ pk (ppa + 64 * p.2) x).1
    | none => (s.writeRaw nobody f p.2 0).1) s

/-- Counts a promotion. -/
def State.countPromote (s : State) (owner : Nat) : State :=
  (s.incFld F.TIER_MIGCNT_PROMOTE).count 15 2 1 (some owner)

/-- Completes a promotion of a WARM page into its destination frame (R281, R319, R384). A DIRTY entry that no store could
place gives its content from the cache. -/
def State.promoteWarm (s : State) (pk ppa f : Nat) : State :=
  let s := (s.settlePage ppa).storePage pk
  let d := s.desc pk
  match s.warmContent pk ppa with
  | (s, none) => s.abandonMig pk
  | (s, some segs) =>
    if (s.migOf pk).isNone then s
    else if !s.canEncrypt (pageDie pk) (dOwner d) (s.curOf (dOwner d)) then s.abandonMig pk
    else
      let content := segs.flatMap fun o => (upto 16).map fun i => o.map fun v => segLine v i
      (((s.endMig pk).fillHot pk ppa f content).leaveWarm pk ppa d).countPromote (dOwner d)

/-- Reads a HOT page's 64 lines for a migration; none where one cannot be served: an uncorrectable line takes its POISON
bit and the migration is abandoned (R283, R352). A line already poisoned is not read. -/
def State.hotContent (s : State) (pk ppa : Nat) : State × Option (List (Option Line)) :=
  (upto 64).foldl (fun (r : State × Option (List (Option Line))) i =>
    let (s, acc) := r
    match acc with
    | none => (s, none)
    | some l =>
      let d := s.desc pk
      if (dPoison d).getLsbD i then (s, some (l ++ [none]))
      else
        match s.readRaw ⟨0, some (dOwner d), 0⟩ (dFrame d) i srcMigration with
        | (s, .line c _) =>
          match s.decrypt ⟨0, some (dOwner d), 0⟩ (pageDie pk) (dOwner d) (dKsel d) (ppa + 64 * i) (dGen d) c with
          | (s, some x) => (s, some (l ++ [some x]))
          | (s, none) => (s, none)
        | (s, .bad) => (s.poisonBit pk i, none)
        | (s, .halted) => (s, none)) (s, some [])

/-- Lines 16k to 16k + 15 as one segment. -/
def packSeg (l : List (Option Line)) (k : Nat) : BitVec 8192 :=
  (upto 16).foldl (fun v i => segPut v i ((l.getD (16 * k + i) none).getD 0)) 0

/-- Compresses four segments; none where no compressor serves. -/
def State.compressAll (s : State) (die : Nat) (w : Who) (segs : List (BitVec 8192)) : State × Option (List Packed) :=
  segs.foldl (fun (r : State × Option (List Packed)) v =>
    match r.2 with
    | none => r
    | some l =>
      match r.1.compressOn die w v with
      | (s, some p) => (s, some (l ++ [p]))
      | (s, none) => (s, none)) (s, some [])

/-- Changes a page's migration. -/
def State.modMig (s : State) (pk : Nat) (f : Mig → Mig) : State :=
  let migs : List Mig := s.mem.migs.map fun m => if m.page = pk then f m else m
  { s with mem.migs := migs }

/-- Adds an access to a lender that waits for its answer (R298). -/
def State.addRem (s : State) (r : RemWait) : State := { s with home.rems := s.home.rems ++ [r] }

/-- Asks a lender to take the lines of a page, as the migration of a page to REMOTE (R280, R296, R298). -/
def State.sendMigLines (s : State) (pk ppa : Nat) (b : Borrowed) (lines : List (Nat × Line)) : State :=
  lines.foldl (fun s p =>
    let (tag, s) := s.nextTag
    let lender : NodeId := BitVec.ofNat 12 b.lender
    let s := (s.addRem ⟨tag, pk, ppa + 64 * p.1, lender, 1, b.frame, p.2, true⟩).modMig pk fun m =>
      { m with waiting := m.waiting ++ [(tag.toNat, p.1)] }
    s.sendNode false lender (.remAccess 1 s.node tag (BitVec.ofNat 6 p.1) (BitVec.ofNat 32 b.frame) (s.lenderGen b.lender)
      0 0 0 false 0 p.2)) s

/-- Encrypts the lines of a page for a frame at a lender; a line without content goes as zeros (R297, R385). -/
def State.encryptLines (s : State) (pk ppa : Nat) (content : List (Option Line)) : State × Option (List (Nat × Line)) :=
  let d := s.desc pk
  content.zipIdx.foldl (fun (r : State × Option (List (Nat × Line))) p =>
    match r.2 with
    | none => r
    | some l =>
      match p.1 with
      | none => (r.1, some (l ++ [(p.2, 0)]))
      | some x =>
        match r.1.encrypt ⟨0, some (dOwner d), 0⟩ (pageDie pk) (dOwner d) (s.curOf (dOwner d)) (ppa + 64 * p.2) (dGen d)
            x with
        | (s, some c) => (s, some (l ++ [(p.2, c)]))
        | (s, none) => (s, none)) (s, some [])

/-- Sends a page's lines to its destination at a lender (R280, R281 step 4). -/
def State.toLender (s : State) (pk ppa : Nat) (b : Borrowed) (content : List (Option Line)) : State :=
  match s.encryptLines pk ppa content with
  | (s, none) => s.abandonMig pk
  | (s, some lines) => (s.modMig pk fun m => { m with sent := true }).sendMigLines pk ppa b lines

/-- Counts a demotion. -/
def State.countDemote (s : State) (owner : Nat) : State :=
  (s.incFld F.TIER_MIGCNT_DEMOTE).count 15 3 1 (some owner)

/-- The page moves into a run of granules of a bin (R281 steps 4 to 6, R289). -/
def State.fillRun (s : State) (pk ppa bin g : Nat) (packs : List Packed) : State :=
  let d := s.desc pk
  let ksel := s.curOf (dOwner d)
  let lens := packs.map (·.len)
  let (s, segs) := packs.zipIdx.foldl (fun (r : State × List (Nat × Nat × Nat)) p =>
    let (s, ok) := r.1.writeBody ⟨0, some (dOwner d), ppa⟩ pk ppa p.2 bin (starts g lens p.2) ksel p.1.body
    (s.countStored p.1, r.2 ++ [if ok then (p.1.type, p.1.len, p.1.chk) else (tZERO, p.1.len, p.1.chk)])) (s, [])
  (s.endMig pk).setDesc pk (warmDesc (baseDesc d tierWARM ksel (s.heatEff pk) bin) g segs)

/-- Completes a demotion of a HOT page by its destination, or sends it on to a lender (R280, R281, R289). A page whose
content no longer fits the destination taken in step 1 stays where it is. -/
def State.demoteHot (s : State) (pk ppa : Nat) (dest : Dest) : State :=
  let die := pageDie pk
  let s := s.settlePage ppa
  match s.hotContent pk ppa with
  | (s, none) => s.abandonMig pk
  | (s, some content) =>
    if (s.migOf pk).isNone then s
    else
      let d := s.desc pk
      let ksel := s.curOf (dOwner d)
      match dest with
      | .lent b => s.toLender pk ppa b content
      | .frame _ => s.abandonMig pk
      | _ =>
        match s.compressAll die ⟨0, some (dOwner d), ppa⟩ ((upto 4).map (packSeg content)) with
        | (s, none) => s.abandonMig pk
        | (s, some packs) =>
          let n := granules (packs.map fun p => bodyUnits p.len).sum
          let s' := match dest with
            | .run bin g m =>
              if n = m ∧ s.decUp die ≠ 0 ∧ s.canEncrypt die (dOwner d) ksel then some (s.fillRun pk ppa bin g packs)
              else none
            | _ =>
              if packs.all fun p => p.type = tZERO then
                some ((s.endMig pk).setDesc pk (baseDesc d tierZERO ksel (s.heatEff pk) 0))
              else none
          match s' with
          | none => s.abandonMig pk
          | some s => (s.freeFrame (dFrame d)).countDemote (dOwner d)

/-- Completes a migration whose destination is a lender's frame, once every line is taken (R281 step 5). -/
def State.finishRemote (s : State) (pk : Nat) (m : Mig) (b : Borrowed) : State :=
  let d := s.desc pk
  let new := bfSet (bfSet (baseDesc d tierREMOTE (s.curOf (dOwner d)) (s.heatEff pk) b.frame) 72 64
    (dPoison d).toNat) 144 12 b.lender
  let s := (s.endMig pk).setDesc pk new
  if dTier d = tierREMOTE then
    s.addSpare (dLender d) (dFrame d)
  else if m.kind = .demote then (s.freeFrame (dFrame d)).countDemote (dOwner d)
  else s

/-- Decrypts the lines that a lender returned (R298). -/
def State.openLines (s : State) (pk ppa : Nat) (got : List (Nat × Line)) : State × Option (List (Option Line)) :=
  let d := s.desc pk
  (upto 64).foldl (fun (r : State × Option (List (Option Line))) i =>
    match r.2 with
    | none => r
    | some l =>
      match got.find? fun g => g.1 = i with
      | none => (r.1, some (l ++ [none]))
      | some g =>
        match r.1.decrypt ⟨0, some (dOwner d), 0⟩ (pageDie pk) (dOwner d) (dKsel d) (ppa + 64 * i) (dGen d) g.2 with
        | (s, some x) => (s, some (l ++ [some x]))
        | (s, none) => (s, none)) (s, some [])

/-- Completes the move of a REMOTE page to a local frame (R280, R281). -/
def State.promoteRemote (s : State) (pk ppa f : Nat) (got : List (Nat × Line)) : State :=
  let d := s.desc pk
  match s.openLines pk ppa got with
  | (s, none) => s.abandonMig pk
  | (s, some content) =>
    if !s.canEncrypt (pageDie pk) (dOwner d) (s.curOf (dOwner d)) then s.abandonMig pk
    else (((s.endMig pk).fillHot pk ppa f content).addSpare (dLender d) (dFrame d)).countPromote (dOwner d)

/-- The lines that a lender returned go on to the page's new frame at a lender (R385). -/
def State.passRemote (s : State) (pk ppa : Nat) (b : Borrowed) (got : List (Nat × Line)) : State :=
  match s.openLines pk ppa got with
  | (s, none) => s.abandonMig pk
  | (s, some content) => s.toLender pk ppa b content

/-- Re-encrypts the body of one segment into a new run, without recompression; a poisoned body, and one that cannot be read,
goes as zeros (R385). -/
def State.rekeyBody (s : State) (pk ppa k bin start : Nat) (ksel : Bool) : State × (Nat × Nat × Nat) :=
  let d := s.desc pk
  let w : Who := ⟨0, some (dOwner d), 0⟩
  let seg := segOf d k
  let n := bodyUnits (dLen d k)
  let blank (s : State) : State := (upto n).foldl (fun s j => (s.writeRaw w bin (start + j) 0).1) s
  let lost : Nat × Nat × Nat := (tZERO, seg.2.1, seg.2.2)
  if s.segLost pk k then (blank s, seg)
  else
    match s.readUnits w pk ppa k srcMigration d n 0 with
    | (s, .ok (l, _)) =>
      let (s, ok) := s.writeBody w pk ppa k bin start ksel (l.take (dLen d k))
      (s, if ok then seg else lost)
    | (s, _) => (blank s, lost)

/-- Re-encrypts a WARM page's bodies unit by unit into the run taken in step 1, or into none where the page has no units
(R281, R385). A page whose stores have changed its units waits for the next pass. -/
def State.rekeyWarm (s : State) (pk ppa : Nat) (dest : Dest) : State :=
  let s := (s.settlePage ppa).storePage pk
  let d := s.desc pk
  let ksel := s.curOf (dOwner d)
  let n := granules (pageUnits d)
  let (bin, g, m) := match dest with
    | .run bin g m => (bin, g, m)
    | _ => (0, 0, 0)
  if (s.migOf pk).isNone then s
  else if n ≠ m ∨ !s.canEncrypt (pageDie pk) (dOwner d) ksel then s.abandonMig pk
  else
    let lens := (upto 4).map (dLen d)
    let (s, segs) := (upto 4).foldl (fun (r : State × List (Nat × Nat × Nat)) k =>
      let (s, seg) := r.1.rekeyBody pk ppa k bin (starts g lens k) ksel
      (s, r.2 ++ [seg])) (s, [])
    ((s.endMig pk).setDesc pk (warmDesc (baseDesc d tierWARM ksel (s.heatEff pk) bin) g segs)).freeRunOf d

/-- Re-encrypts a HOT page into a new frame (R385). -/
def State.rekeyHot (s : State) (pk ppa f : Nat) : State :=
  match (s.settlePage ppa).hotContent pk ppa with
  | (s, none) => s.abandonMig pk
  | (s, some content) =>
    let d := s.desc pk
    if (s.migOf pk).isNone then s
    else if !s.canEncrypt (pageDie pk) (dOwner d) (s.curOf (dOwner d)) then s.abandonMig pk
    else ((s.endMig pk).fillHot pk ppa f content).freeFrame (dFrame d)

/-- Ends a replication: the members whose 65 answers were all OK form the replica set, of at most 16,384 pages, and HEAT
becomes HEATEFF (R281 step 5, R301). -/
def State.finishReplicate (s : State) (pk : Nat) (m : Mig) : State :=
  let s := s.endMig pk
  let d := bfSet (s.desc pk) 32 8 (s.heatEff pk)
  if m.targets.isEmpty ∨ 16384 ≤ s.mem.replicaSets.length then s.setDesc pk d
  else { s.setDesc pk (bfSet d 3 1 1) with mem.replicaSets := tput s.mem.replicaSets pk m.targets }

/-- Moves a page to a local frame, or within its tier (R280, R281, R385). -/
def State.completeLocal (s : State) (pk : Nat) (m : Mig) : State :=
  let t := dTier (s.desc pk)
  match m.kind, m.dest with
  | .replicate, _ => if m.begun then s.finishReplicate pk m else s
  | .demote, dest => if t = tierHOT then s.demoteHot pk m.pa dest else s.abandonMig pk
  | .rekey, .frame f => if t = tierHOT then s.rekeyHot pk m.pa f else s.abandonMig pk
  | .rekey, .lent b => if t ≠ tierREMOTE then s.abandonMig pk else if m.begun then s.passRemote pk m.pa b m.got else s
  | .rekey, dest => if t = tierWARM then s.rekeyWarm pk m.pa dest else s.abandonMig pk
  | _, .frame f =>
    if t = tierWARM then s.promoteWarm pk m.pa f
    else if t = tierREMOTE then (if m.begun then s.promoteRemote pk m.pa f m.got else s)
    else s.abandonMig pk
  | _, _ => s.abandonMig pk

/-- A migration's copy completes (R281); one that is not complete within 4 µs of step 2 is not (R282). -/
def State.completeMig (s : State) (pk : Nat) : State :=
  match s.migOf pk with
  | none => s
  | some m =>
    if m.since + 4000 < s.now ∨ !m.waiting.isEmpty then s
    else
      match m.sent, m.dest with
      | true, .lent b => s.finishRemote pk m b
      | _, _ => s.completeLocal pk m

/-- Asks a lender for the lines of a page that moves (R298). -/
def State.readMigLines (s : State) (pk : Nat) (m : Mig) : State :=
  let d := s.desc pk
  let lender : NodeId := BitVec.ofNat 12 (dLender d)
  (upto 64).foldl (fun s i =>
    if (dPoison d).getLsbD i then s
    else
      let (tag, s) := s.nextTag
      let s := (s.addRem ⟨tag, pk, m.pa + 64 * i, lender, 0, dFrame d, 0, true⟩).modMig pk fun m =>
        { m with waiting := m.waiting ++ [(tag.toNat, i)] }
      s.sendNode false lender (.remAccess 0 s.node tag (BitVec.ofNat 6 i) (BitVec.ofNat 32 (dFrame d))
        (s.lenderGen (dLender d)) 0 0 0 false 0 0)) (s.modMig pk fun m => { m with begun := true })

/-- The members that a page is replicated to: rising from the last one chosen, UP channels only (R301). -/
def State.pickTargets (s : State) : List Nat :=
  let order := (upto 64).map fun i => (s.mem.replNext + i) % 64
  let ok (i : Nat) : Bool :=
    decide (bitsOf (s.fld F.TIER_REPL_TGT) i 1 = 1) && s.isHomeEntry false i
      && decide (s.memNode false i ≠ s.node)
      && (match s.chan ⟨false, s.memNode false i⟩ with
        | some c => decide (c.state = .up)
        | none => false)
  (order.filter ok).take (s.fld F.TIER_REPL_COPIES)

/-- Sends a page to the members chosen for its replicas (R301): an install and 64 lines each, as stored. -/
def State.sendReplicas (s : State) (pk : Nat) (m : Mig) : State :=
  let targets := s.pickTargets
  let s := s.settlePage m.pa
  let d := s.desc pk
  let s := match targets.getLast? with
    | some i => { s with mem.replNext := (i + 1) % 64 }
    | none => s
  let s := s.modMig pk fun x => { x with begun := true, targets := targets }
  let (s, lines) := (upto 64).foldl (fun (r : State × Option (List (Nat × Line))) i =>
    match r.2 with
    | none => r
    | some l =>
      match r.1.readRaw ⟨0, some (dOwner d), 0⟩ (dFrame d) i srcMigration with
      | (s, .line c _) => (s, some (l ++ [(i, c)]))
      | (s, .bad) => (s.poisonBit pk i, none)
      | (s, .halted) => (s, none)) (s, some [])
  match lines with
  | none => s.abandonMig pk
  | some lines =>
    let pa : Addr := BitVec.ofNat 52 m.pa
    targets.foldl (fun s i =>
      let n := s.memNode false i
      let one (s : State) (kind line : Nat) (data : Line) : State :=
        let (tag, s) := s.nextTag
        let s := (s.addRem ⟨tag, pk, m.pa + 64 * (line % 64), n, kind, i, data, true⟩).modMig pk fun x =>
          { x with waiting := x.waiting ++ [(tag.toNat, line)] }
        s.sendNode false n (.remAccess (BitVec.ofNat 2 kind) s.node tag (BitVec.ofNat 6 (line % 64)) 0 0 pa
          (BitVec.ofNat 12 (dOwner d)) (BitVec.ofNat 16 (dGen d)) (dKsel d) (dPoison d) data)
      lines.foldl (fun s p => one s 3 p.1 p.2) (one s 2 64 0)) s

/-- Begins the exchanges of migrations that need other members. -/
def State.pushMigs (s : State) : State :=
  (s.mem.migs.filter fun m => !m.begun).foldl (fun s m =>
    if m.kind = .replicate then s.sendReplicas m.page m
    else if dTier (s.desc m.page) = tierREMOTE then s.readMigLines m.page m
    else s) s

/-- A rekey of a tenant runs (R383). -/
def State.rekeying (s : State) (t : Nat) : Bool :=
  decide (s.fld (F.TRN_TENANT_KSLOT0 t) ≠ s.fld (F.TRN_TENANT_KSLOT1 t))

/-- The tenants in a rekey. -/
def State.rekeys (s : State) : List Nat := (upto 4096).filter s.rekeying

/-- A page is encrypted under its tenant's old key slot (R385). -/
def State.oldKey (s : State) (d : BitVec 256) : Bool := decide (dTier d ≠ tierZERO) && decide (dKsel d ≠ s.curOf (dOwner d))

/-- A page is a replication candidate; `div` is 4 where a replicated page stays one (R301, R302, R386). -/
def State.replCandidate (s : State) (pk div : Nat) : Bool :=
  let d := s.desc pk
  decide (dTier d = tierHOT) && s.bit (F.TIER_TMODE_REPL (dOwner d)) && decide (s.fld F.TIER_REPL_COPIES ≠ 0)
    && decide (s.fld F.TIER_REPL_HEAT / div ≤ s.heatEff pk) && decide (s.fld F.TIER_REPL_QUIET ≤ s.since (s.lastWOf pk))
    && decide (dPoison d = 0) && decide (dKsel d = s.curOf (dOwner d))

/-- A HOT page may be demoted: by idle time with REPL 0 and POISON 0, or under pressure (R280, R294). -/
def State.mayDemote (s : State) (pk : Nat) : Bool :=
  let d := s.desc pk
  let die := pageDie pk
  let press := if die = 0 then s.mem.pressure0 else s.mem.pressure1
  decide (dTier d = tierHOT)
    && ((!dRepl d && decide (dPoison d = 0) && decide (s.demoteIdle (s.modeOf (dOwner d)) ≤ s.idle pk)
          && !s.mem.paused.contains (dOwner d))
      || (press && decide (s.fld F.TIER_RESV_PRESS_IDLE ≤ s.idle pk)))

/-- A line of a HOT page as it stands: decrypted, with its open merge entry over it. -/
def State.peekLine (s : State) (pk pa : Nat) : Line :=
  let d := s.desc pk
  let c := sget (fun _ => 0) s.mem.dram (dFrame d * 64 + lineOf pa)
  s.overlayMerge pa (xtsDec (s.key (s.keySlotOf (dOwner d) (dKsel d))).key (tweakOf pa (dGen d)) c)

/-- The destination of a demotion, as the page stands (R280): nothing for a page of zeros, a run for one of at most 48
units, a borrowed frame otherwise; none while no engine can carry it out (R329). A page with a poisoned line, which only
pressure demotes, goes to a lender, whose page keeps its POISON bits (R281; log 194, DEDUCED). -/
def State.demoteWant (s : State) (pk pa : Nat) : Option Want :=
  let die := pageDie pk
  if dPoison (s.desc pk) ≠ 0 then some .lent
  else if s.compUp die = 0 then none
  else
    let lines := (upto 64).map fun i => some (s.peekLine pk (pa + 64 * i))
    let packs := (upto 4).map fun k => compress (packSeg lines k)
    let n := (packs.map fun p => bodyUnits p.len).sum
    if packs.all fun p => p.type = tZERO then some .none
    else if 48 < n then some .lent
    else if s.decUp die = 0 then none
    else some (.run (granules n))

/-- The destination of a rekey, in the page's own tier (R280, R385). -/
def rekeyWant (d : BitVec 256) : Want :=
  if dTier d = tierHOT then .frame
  else if dTier d = tierREMOTE then .lent
  else if pageUnits d = 0 then .none
  else .run (granules (pageUnits d))

/-- Starts the demotion of a page; a replicated one, which only pressure demotes, loses its replicas first (R226). -/
def State.startDemote (s : State) (pk pa : Nat) : State :=
  if dRepl (s.desc pk) then s.dropPage pk pa
  else
    match s.demoteWant pk pa with
    | none => s
    | some want => s.startMig pk pa .demote .trigger want

/-- What the scan does with one page (R277, R280, R301, R302, R385). -/
def State.scanPage (s : State) (pk : Nat) : State :=
  let s := if 32768 ≤ s.idle pk then s.setAge pk (s.epoch + 65536 - 32768) (s.lastWOf pk) else s
  let d := s.desc pk
  let die := pageDie pk
  let t := dTier d
  let pa := s.pagePa pk
  let roomy := decide (s.lowLevel die ≤ s.freeFrames die)
  if s.mem.tmapBad.contains pk ∨ descBad d then s
  else if s.rekeying (dOwner d) ∧ s.oldKey d then
    let s := { s with mem.rekeyPass := s.mem.rekeyPass.filter (· ≠ dOwner d) }
    if !roomy then s
    else if dRepl d then s.dropPage pk pa
    else if s.migsOn die < s.fld F.TIER_CFG_MIG_MAX then s.startMig pk pa .rekey .trigger (rekeyWant d)
    else s
  else if s.mayDemote pk then (if s.mayMigrate die then s.startDemote pk pa else s)
  else if dRepl d then (if s.replCandidate pk 4 then s else s.dropPage pk pa)
  else if t = tierREMOTE ∧ 512 * s.fld F.TIER_LEND_BORROW < s.borrowed ∧ roomy then
    (if s.mayMigrate die then s.startMig pk pa .rehome .trigger .frame else s)
  else if s.replCandidate pk 1 ∧ s.mem.replicaSets.length < 16384 ∧ !s.pickTargets.isEmpty then
    (if s.mayMigrate die then s.startMig pk pa .replicate .trigger .none else s)
  else s

/-- The next used slot at or after `slot`; the fuel bounds the slot-table entries. -/
def State.nextUsed (s : State) (slot : Nat) : Option Nat :=
  (s.mem.etr.find? fun e => decide (slot ≤ e.1) && decide (e.1 < s.slotCount) && e.2.getLsbD 0).map (·.1)

/-- A pass of the scan ends: tenants in whose rekey it found no page under the old key are clean (R387). -/
def State.endPass (s : State) : State :=
  { s with
    mem.rekeyClean := (s.mem.rekeyClean.filter s.rekeying) ++ s.mem.rekeyPass.filter fun t => !s.mem.rekeyClean.contains t
    mem.rekeyPass := []
    mem.scanAt := 0 }

/-- The scan reads its next descriptor; a pass that has reached its end begins again (R277). -/
def State.scan (s : State) : State :=
  let s := if s.mem.scanAt = 0 then { s with mem.rekeyPass := s.rekeys } else s
  match s.nextUsed (s.mem.scanAt / 512) with
  | none => s.endPass
  | some slot =>
    let pk := if slot = s.mem.scanAt / 512 then s.mem.scanAt else 512 * slot
    let s := { s.scanPage pk with mem.scanAt := pk + 1 }
    if (s.nextUsed (s.mem.scanAt / 512)).isNone then s.endPass else s

/-- A heat epoch ends (R279). -/
def State.heatEpoch (s : State) : State :=
  let e := s.epoch
  if s.mem.heatEpoch = e then s
  else
    let paused := s.mem.sampled.filter fun e =>
      let g := s.guard (s.modeOf e.1)
      decide (g ≠ 0) && decide (e.2 * g < (tget s.mem.sampledWarm e.1).getD 0 * 1024)
    let s := s.addFld F.TIER_WARMCNT_PAUSE paused.length
    { s with mem.heatEpoch := e, mem.paused := paused.map (·.1), mem.sampled := [], mem.sampledWarm := [] }

/-- A DIRTY entry is due to be stored: 20 µs have passed, or a miss found no way in its set (R288, R291). -/
def State.storeDue (s : State) (die seg : Nat) (e : SEntry) : Bool :=
  match e.dirty with
  | some t => decide (t + 20000 ≤ s.now) || s.mem.starved.contains (cacheSet die seg)
  | none => false

/-- The page of an index is an assigned page of tier WARM. -/
def State.isWarm (s : State) (pk : Nat) : Bool := (s.slotEntry (pk / 512)).getLsbD 0 && decide (dTier (s.desc pk) = tierWARM)

/-- The page and segment of a segment number, where this home holds its extent. -/
def State.segPage (s : State) (seg : Nat) : Option Nat := (s.slotHolding (1024 * seg)).map fun slot => pageIdx slot (1024 * seg)

/-- Stores every DIRTY cache entry. -/
def State.storeAll (s : State) : State :=
  ((s.mem.scache.filter fun e => e.2.dirty.isSome).map (·.2.seg)).foldl (fun s seg =>
    match s.segPage seg with
    | some pk => s.storeSegment pk (seg % 4)
    | none => s) s

/-- Completes every promotion that a store found its bin exhausted for (R289). -/
def State.finishForced (s : State) : State :=
  ((s.mem.migs.filter fun m => m.why = .exhausted).map (·.page)).foldl (fun s pk => s.completeMig pk) s

/-- DIRTY entries that nothing could store poison their segments, so that no older data is ever read as theirs (log 184, DESIGN
CHOICE). -/
def State.loseDirty (s : State) : State :=
  ((s.mem.scache.filter fun e => e.2.dirty.isSome).map (·.2.seg)).foldl (fun s seg =>
    match s.segPage seg with
    | some pk => s.poisonSeg pk (seg % 4)
    | none => s) s

/-- Every open migration is abandoned (R282, R463). -/
def State.abandonAll (s : State) : State := (s.mem.migs.map (·.page)).foldl (fun s p => s.abandonMig p) s

/-- Everything that waits on the way to DRAM is stored (R288, R463, R471): open merge entries, then every DIRTY entry, those
of exhausted bins by the promotion of their page. -/
def State.flushAll (s : State) : State :=
  ((s.closeMerges fun _ => true).storeAll.finishForced.storeAll).finishForced.loseDirty

end Sys2Proof.Machine
end

