-- ==== Sys2Proof/Machine/Lend.lean ====
section
/-! DEFINITION. Remote memory: the lender's side, the borrower's side, replicas and lost lenders (R227, R228, R296 to
R302, R386). -/

namespace Sys2Proof.Machine

/-- Answers of RemAnswer (R300). -/
def raOK : Nat := 0
def raPOISON : Nat := 1
def raNOTLENT : Nat := 2
def raREFUSED : Nat := 3

/-- A frame is LENT to a node (R297). -/
def State.lentTo (s : State) (f : Nat) (n : NodeId) : Bool :=
  bfGet (s.ftabAt f) 0 2 = fLENT && bfGet (s.ftabAt f) 30 1 = 0 && BitVec.ofNat 12 (bfGet (s.ftabAt f) 18 12) == n

/-- The frames lent out (TIER_LENDSTS.LENT). -/
def State.lent (s : State) : Nat := countIf s.mem.ftab fun e => decide (bfGet e.2 0 2 = fLENT)

/-- One more frame may be lent (R296). -/
def State.mayLend (s : State) (f : Nat) : Bool :=
  s.allocatable f && decide (s.lent < 512 * s.fld F.TIER_LEND_LEND)
    && decide (s.lowLevel (frameDie f) < s.freeFrames (frameDie f))

/-- Lends the run of frames from `f` on, as far as each may be lent; answers how many (R296). The fuel bounds the run. -/
def State.lendRun (s : State) (n : NodeId) : Nat → Nat → State × Nat
  | 0, _ => (s, 0)
  | k + 1, f =>
    if !s.mayLend f then (s, 0)
    else
      let s := (s.setFtab f (ftabWord fLENT 0 n.toNat)).watchFree (frameDie f)
      let (s, c) := (s.zeroFrame nobody f).lendRun n k (f + 1)
      (s, c + 1)

/-- A LendReq reaches a lender (R296). -/
def State.rxLendReq (s : State) (back : Bool) (node : NodeId) (rtag : BitVec 16) (frame count : Nat) : State :=
  if back then
    (upto count).foldl (fun s i => if s.lentTo (frame + i) node then s.freeFrame (frame + i) else s) s
  else
    let answer (s : State) (status f c : Nat) : State :=
      s.sendNode false node (.lendGrant (BitVec.ofNat 2 status) s.node rtag (BitVec.ofNat 32 f) (BitVec.ofNat 32 c)
        s.mem.lgen)
    if ((s.entryOf false node).map (s.isHomeEntry false)).getD false = false then answer s 2 0 0
    else
      match (match s.pickFrame 0 with
        | some f => if s.mayLend f then some f else s.pickFrame 1
        | none => s.pickFrame 1) with
      | none => answer s 1 0 0
      | some f =>
        match s.lendRun node (min count 512) f with
        | (s, 0) => answer s 1 0 0
        | (s, c) => answer s 0 f c

/-- How many unused frames this module keeps: up to 512 of the member named in TIER_LEND, and no more than BORROW lets it
hold beside the frames in use (R296). -/
def State.keepSpare (s : State) : Nat :=
  if s.bit F.TIER_LEND_LENDV then
    min 512 (512 * s.fld F.TIER_LEND_BORROW - (s.borrowed - s.mem.spareBorrowed.length))
  else 0

/-- Returns a borrowed frame to its lender (R296). -/
def State.returnSpare (s : State) (b : Borrowed) : State :=
  let (tag, s) := s.nextTag
  s.sendNode false (BitVec.ofNat 12 b.lender) (.lendReq true s.node tag (BitVec.ofNat 32 b.frame) 1)

/-- Borrows frames: the surplus of unused ones goes back, those of a member no longer named all of it, and a LendReq asks for
what is missing (R296). -/
def State.askLender (s : State) : State :=
  let lender : NodeId := BitVec.ofNat 12 (s.fld F.TIER_LEND_LENDER)
  let named := s.mem.spareBorrowed.filter fun b => b.lender = s.fld F.TIER_LEND_LENDER
  let keep := s.keepSpare
  let back := (s.mem.spareBorrowed.filter fun b => b.lender ≠ s.fld F.TIER_LEND_LENDER) ++ named.drop keep
  let s := back.foldl (fun s b => s.returnSpare b) { s with mem.spareBorrowed := named.take keep }
  let n := keep - s.mem.spareBorrowed.length
  if n = 0 ∨ s.mem.lendAsk.isSome ∨ s.chan ⟨false, lender⟩ = none then s
  else
    let (tag, s) := s.nextTag
    { s with mem.lendAsk := some tag }.sendNode false lender (.lendReq false s.node tag 0 (BitVec.ofNat 32 n))

/-- A LendGrant arrives (R296, R300). -/
def State.rxLendGrant (s : State) (status : Nat) (node : NodeId) (rtag : BitVec 16) (frame count : Nat)
    (lgen : BitVec 32) : State :=
  if s.mem.lendAsk ≠ some rtag then s
  else
    let s := { s with mem.lendAsk := none }
    if status = 0 then
      let got : List Borrowed := (upto count).map fun i => ⟨node.toNat, frame + i⟩
      { s with mem.lenderGens := tput s.mem.lenderGens node.toNat lgen, mem.spareBorrowed := s.mem.spareBorrowed ++ got }
    else s.record (occObj bTIER Cause.tier_LEND_REFUSED 2 node.toNat)

/-- A member may install a replica of a page (R301, R386). -/
def State.mayReplicate (s : State) (owner : Nat) (ksel : Bool) (die : Nat) : Bool :=
  (s.key (s.keySlotOf owner ksel)).valid && !(s.rekeying owner && decide (ksel ≠ s.curOf owner))
    && decide (s.mem.replicas.length < 16384) && decide (s.lowLevel die < s.freeFrames die)

/-- The die on which a replica's frame is taken: one with a free frame above its LOW (R301). -/
def State.replicaDie (s : State) : Nat := if s.lowLevel 0 < s.freeFrames 0 then 0 else 1

/-- A RemAccess arrives (R227, R297, R301, R386). -/
def State.rxRemAccess (s : State) (kind : Nat) (node : NodeId) (rtag : BitVec 16) (line : BitVec 6)
    (frame : BitVec 32) (lgen : BitVec 32) (pa owner gen : Nat) (ksel : Bool) (poison : BitVec 64) (data : Line) : State :=
  let answer (s : State) (status : Nat) (d : Option Line) : State :=
    s.sendNode false node (.remAnswer (BitVec.ofNat 2 status) s.node rtag line frame s.mem.lgen d)
  let f := frame.toNat
  if kind = 0 then
    if !s.lentTo f node ∨ lgen ≠ s.mem.lgen then answer s raNOTLENT none
    else
      match s.readRaw nobody f line.toNat srcLender with
      | (s, .line d _) => answer s raOK (some d)
      | (s, _) => answer s raPOISON none
  else if kind = 1 then
    if !s.lentTo f node ∨ lgen ≠ s.mem.lgen then answer s raNOTLENT none
    else
      match s.writeRaw nobody f line.toNat data with
      | (s, true) => answer s raOK none
      | (s, false) => answer s raPOISON none
  else if kind = 2 then
    let s := s.dropReplica pa
    let die := s.replicaDie
    if !s.mayReplicate owner ksel die then answer s raREFUSED none
    else
      match s.takeFrame die fHOT 0 with
      | none => answer s raREFUSED none
      | some (fr, s) =>
        let rgen := ((s.chan ⟨false, node⟩).bind (·.rgen)).getD 0
        let rep : Replica := ⟨pageOf pa, fr, owner, gen, ksel, poison, node, rgen, 0⟩
        answer { s with mem.replicas := s.mem.replicas ++ [rep] } raOK none
  else
    match s.replicaOf pa with
    | none => answer s raREFUSED none
    | some r =>
      match s.writeRaw nobody r.frame line.toNat data with
      | (s, false) => answer (s.dropReplica pa) raREFUSED none
      | (s, true) =>
        let reps : List Replica := s.mem.replicas.map fun x =>
          if x.pa = r.pa then { x with lines := x.lines ||| 2 ^ line.toNat } else x
        answer { s with mem.replicas := reps } raOK none

/-- A REMOTE page whose lender is lost becomes HOT in a local frame with every line poisoned; it waits where no frame is
free (R299). -/
def State.losePage (s : State) (pk : Nat) : State :=
  let d := s.desc pk
  match s.takeFrame (pageDie pk) fHOT 0 with
  | none => if s.mem.lostPages.contains pk then s else { s with mem.lostPages := s.mem.lostPages ++ [pk] }
  | some (f, s) =>
    let s := (s.zeroFrame nobody f).setDesc pk
      (bfSet (baseDesc d tierHOT (s.curOf (dOwner d)) (dHeat d) f) 72 64 (2 ^ 64 - 1))
    { s with mem.lostPages := s.mem.lostPages.filter (· ≠ pk) }

/-- Pages that wait for a local frame try again (R299). -/
def State.retryLost (s : State) : State := s.mem.lostPages.foldl (fun s pk => s.losePage pk) s

/-- Carries on the transactions whose access to a lost lender will not be answered. -/
def State.reworkLine (s : State) (line : Nat) : State :=
  match s.tx line with
  | none => s
  | some t =>
    if s.mem.lostPages.contains (pageIdx t.slot (64 * line)) ∧ (t.phase = .remRead ∨ t.phase = .remWrite) then
      s.failTx line stINTERNAL
    else if t.phase = .remRead then (s.putTx { t with phase := .snoops }).memWork line
    else if t.phase = .remWrite then
      match t.newLine with
      | some d => (s.putTx { t with phase := .snoops }).storeNew line d
      | none => (s.putTx { t with phase := .snoops }).memWork line
    else s.remWriteDone line

/-- A lender is lost (R299). -/
def State.lenderLost (s : State) (n : NodeId) : State :=
  let pages := (s.mem.tmap.filter fun e => decide (dTier e.2 = tierREMOTE) && decide (dLender e.2 = n.toNat)).map (·.1)
  let gone := s.home.rems.filter fun r => decide (r.lender = n) && decide (r.kind ≤ 1)
  let used := s.mem.migs.filter fun m => pages.contains m.page
    || (match m.dest with
      | .lent b => decide (b.lender = n.toNat)
      | _ => false)
  if pages.isEmpty ∧ gone.isEmpty ∧ !(s.mem.spareBorrowed.any fun b => b.lender = n.toNat) then s
  else
    let s := s.record (occObj bTIER Cause.tier_LENDER_LOST 2 n.toNat)
    let s := { s with
      home.rems := s.home.rems.filter fun r => !(decide (r.lender = n) && decide (r.kind ≤ 1))
      mem.lenderGens := tdel s.mem.lenderGens n.toNat }
    let s := used.foldl (fun s m => s.abandonMig m.page) s
    let s := { s with mem.spareBorrowed := s.mem.spareBorrowed.filter fun b => b.lender ≠ n.toNat }
    let s := pages.foldl (fun s pk => s.losePage pk) s
    (gone.filter fun r => !r.mig).foldl (fun s r => s.reworkLine (r.pa / 64)) s

/-- A lender is asked for one borrowed frame to find out whether it still lends (R299). -/
def State.probeLender (s : State) (n : NodeId) : State :=
  let remote := (s.mem.tmap.find? fun e => decide (dTier e.2 = tierREMOTE) && decide (dLender e.2 = n.toNat)).map
    fun e => dFrame e.2
  match (match remote with
    | some f => some f
    | none => (s.mem.spareBorrowed.find? fun b => b.lender = n.toNat).map (·.frame)) with
  | none => s
  | some f =>
    let (tag, s) := s.nextTag
    (s.addRem ⟨tag, 0, 2 ^ 52, n, 0, f, 0, false⟩).sendNode false n
      (.remAccess 0 s.node tag 0 (BitVec.ofNat 32 f) (s.lenderGen n.toNat) 0 0 0 false 0 0)

/-- An answer for a migration's access (R281, R298, R301). -/
def State.migAnswer (s : State) (r : RemWait) (status : Nat) (line : Nat) (data : Option Line) : State :=
  let line' := if r.kind = 2 then 64 else line
  let s := s.modMig r.page fun m => { m with waiting := m.waiting.filter fun w => w ≠ (r.tag.toNat, line') }
  if 2 ≤ r.kind then
    if status = raOK then s
    else (s.modMig r.page fun m => { m with targets := m.targets.erase r.frame }).record
      (occObj bTIER Cause.tier_LEND_REFUSED 2 r.lender.toNat)
  else if status = raOK then
    match data with
    | some d => s.modMig r.page fun m => { m with got := m.got ++ [(line, d)] }
    | none => s
  else if status = raPOISON ∧ r.kind = 0 then
    ((s.poisonBit r.page (lineOf r.pa)).recordPa (occObj bTIER Cause.tier_REMOTE_POISON 1 r.pa)).abandonMig r.page
  else s.abandonMig r.page

/-- A lender answers POISON for a line: its POISON bit is set and cause 0x0B recorded (R298). -/
def State.remPoison (s : State) (r : RemWait) : State :=
  (s.poisonBit r.page (lineOf r.pa)).recordPa (occObj bTIER Cause.tier_REMOTE_POISON 1 r.pa)

/-- A whole line has reached its lender: the line is no longer poisoned (R183). -/
def State.remStored (s : State) (r : RemWait) : State :=
  let d := s.desc r.page
  if dTier d = tierREMOTE then s.setDesc r.page (bfSet d (72 + lineOf r.pa) 1 0) else s

/-- A lender could not take a write: the request that it was for gets POISON (R298), except a WriteBack, which never gets
it (R201). -/
def State.remWriteLost (s : State) (line : Nat) : State :=
  match s.tx line with
  | none => s
  | some t =>
    let wb := match t.req with
      | some h => decide (h.req.op = .writeBack)
      | none => true
    if t.phase = .remWrite ∧ !wb then s.forTx line fun s => s.failTx line stPOISON else s.remWriteDone line

/-- The answer to an access for a transaction (R298). -/
def State.lineAnswer (s : State) (r : RemWait) (status : Nat) (data : Option Line) : State :=
  let line := r.pa / 64
  let d := s.desc r.page
  if r.kind = 1 then
    if status = raOK then (s.remStored r).remWriteDone line else (s.remPoison r).remWriteLost line
  else
    match (if status = raOK then data else none) with
    | some c =>
      match s.decrypt ⟨0, some (dOwner d), r.pa⟩ (pageDie r.page) (dOwner d) (dKsel d) r.pa (dGen d) c with
      | (s, some x) => s.remReadDone line x
      | (s, none) => s.forTx line fun s => s.failTx line stINTERNAL
    | none =>
      match s.tx line with
      | none => s
      | some _ => (s.remPoison r).forTx line fun s => s.failTx line stPOISON

/-- A RemAnswer arrives (R298 to R301). -/
def State.rxRemAnswer (s : State) (status : Nat) (node : NodeId) (rtag : BitVec 16) (line : Nat) (data : Line) : State :=
  match s.home.rems.find? fun r => decide (r.tag = rtag) && decide (r.lender = node) with
  | none => s
  | some r =>
    let s := { s with home.rems := s.home.rems.erase r }
    let d : Option Line := if r.kind = 0 ∧ status = raOK then some data else none
    if status = raNOTLENT ∧ r.kind ≤ 1 then
      { s with home.rems := r :: s.home.rems }.lenderLost node
    else if r.mig then s.migAnswer r status line d
    else if r.pa = 2 ^ 52 then s
    else s.lineAnswer r status d

/-- Frames lent to a node that is declared are freed (R299). -/
def State.freeLentTo (s : State) (n : NodeId) : State :=
  ((s.mem.ftab.map (·.1)).filter fun f => s.lentTo f n).foldl (fun s f => s.freeFrame f) s

/-- Replicas whose primary has been reset are dropped (R302). -/
def State.dropReplicasOf (s : State) (n : NodeId) : State :=
  (s.mem.replicas.filter fun r => r.primary = n).foldl (fun s r => s.dropReplica r.pa) s

/-- Replicas that a replication installed but did not complete are dropped: the space of an abandoned migration is
released (R282). -/
def State.dropUnfinished (s0 s : State) : State :=
  let ended := s0.mem.migs.filter fun m => m.kind = .replicate && m.begun && (s.migOf m.page).isNone
  ended.foldl (fun s m =>
    let kept := (s.replSet m.page).getD []
    (m.targets.filter fun i => !kept.contains i).foldl (fun s i =>
      let (tag, s) := s.nextTag
      let (n, s) := s.nextSeq
      s.sendNode false (s.memNode false i) (.replApply 2 s.node tag s.seqEpoch (BitVec.ofNat 52 m.pa) (BitVec.ofNat 48 n) 0)) s) s

end Sys2Proof.Machine
end

