-- ==== Sys2Proof/Machine/Decl.lean ====
section
/-! DEFINITION. Picot channel start and declarations of dead nodes (R160 to R163, R249 to R251, R267). -/

namespace Sys2Proof.Machine

/-- Requests whose result is lost with the home's class D state: their origin drops them after its reset (R163). -/
def dropsAtReset (op : ReqOp) : Bool := op.isAtomic || decide (op = .writeNoCache)

/-- A message that forwards a request. -/
def fwdReqOf (m : PMsg) : Option Req :=
  match m with
  | .fwdToHome _ (.req r) => some r
  | _ => none

/-- A peer has been reset: the exception of R163, the replicas and the lending of R299 and R302. -/
def State.peerReset (s : State) (id : ChanId) : State :=
  let s := { s with
    home.oreqs := s.home.oreqs.filter fun o => !(decide (o.dest = some id) && dropsAtReset o.req.op)
    home.relays := s.home.relays.filter fun e => !(decide (e.2.dest = id.peer) && dropsAtReset e.2.op)
    home.applied := s.home.applied.filter fun a => a.2.1 ≠ id.peer }
  let s := s.modChan id fun c => { c with txq := c.txq.filter fun m => match fwdReqOf m with
    | some r => !dropsAtReset r.op
    | none => true }
  (s.dropReplicasOf id.peer).probeLender id.peer

/-- After a start the origin forwards again every request on the channel that has no response, and repeats its accesses
to a lender (R163, R298). Messages still waiting on the channel are not repeated. -/
def State.forwardAgain (s : State) (id : ChanId) : State :=
  let waiting : List PMsg := ((s.chan id).map (·.txq)).getD []
  let s := (s.home.oreqs.filter fun o => decide (o.dest = some id)).foldl (fun s o =>
    let m := (s.mapMember id.bank o.req.hdr.addr.toNat).getD 0
    let msg : PMsg := .fwdToHome ⟨s.node, BitVec.ofNat 16 o.conn, BitVec.ofNat 16 (s.memEpoch id.bank m),
      BitVec.ofNat 24 o.slot⟩ (.req o.req)
    let s := if waiting.contains msg then s else s.sendChan id msg
    if o.covered.isSome then s.setDest o.id (some id) (some (s.chanMark id)) else s) s
  let s := (s.home.relays.filter fun e => decide (e.2.dest = id.peer) && decide (e.2.bank ≠ id.bank)).foldl (fun s e =>
    let m := (s.mapMember id.bank e.2.req.hdr.addr.toNat).getD 0
    let msg : PMsg := .fwdToHome ⟨s.node, BitVec.ofNat 16 e.1, BitVec.ofNat 16 (s.memEpoch id.bank m),
      BitVec.ofNat 24 e.2.hslot⟩ (.req e.2.req)
    if waiting.contains msg then s else s.sendChan id msg) s
  (s.home.rems.filter fun r => decide (r.lender = id.peer) && decide (r.kind ≤ 1)).foldl (fun s r =>
    s.sendChan id (.remAccess (BitVec.ofNat 2 r.kind) s.node r.tag (BitVec.ofNat 6 (lineOf r.pa)) (BitVec.ofNat 32 r.frame)
      (s.lenderGen id.peer.toNat) 0 0 0 false 0 r.data)) s

/-- A channel becomes UP (R249): unit 0 of each direction was its ChanStart. -/
def State.chanUp (s : State) (id : ChanId) : State :=
  let s := s.modChan id fun c =>
    { c with state := .up, base := 1, expect := 1, downSince := none, flushed := false, lastGood := s.now }
  (s.forwardAgain id).flushChan id

/-- A ChanStart arrives (R249 to R251). -/
def State.rxChanStart (s : State) (id : ChanId) (echov : Bool) (src dst : NodeId) (_bank : Bool)
    (rgen rgenEcho poolver : BitVec 32) : State :=
  match s.chan id with
  | none => s
  | some c =>
    if src ≠ id.peer ∨ dst ≠ s.node ∨ c.dead then s
    else
      let fresh := decide (c.rgen ≠ some rgen)
      let s := if !fresh then s
        else
          let s := if c.state = .start then s else s.startChan id
          let last := ((s.chan id).bind (·.lastRgen))
          let s := s.modChan id fun c => { c with rgen := some rgen, expect := 1 }
          match last with
          | some l => if l = rgen then s else s.peerReset id
          | none => s
      let same := decide (poolver.toNat = s.fld (F.POOL_VER_VERSION (bankNo id.bank)))
      let starting := ((s.chan id).map fun c => decide (c.state = .start)).getD false
      let s := if starting ∧ echov ∧ rgenEcho = s.home.rgen ∧ same then s.chanUp id
        else if starting ∧ !same ∧ !c.skew then
          (s.modChan id fun c => { c with skew := true }).record (occObj bPOOL Cause.pool_VERSKEW 2 id.peer.toNat)
        else s
      if fresh ∨ (!starting ∧ c.expect = 1) then s.sendStart id else s

/-- A starting end sends its ChanStart again after 100 µs (R249). -/
def State.resendStart (s : State) (id : ChanId) : State :=
  match s.chan id with
  | none => s
  | some c => if c.state = .start ∧ !c.dead ∧ c.lastSent + 100000 ≤ s.now then s.sendStart id else s

/-- GRACE in ns (R149). -/
def State.graceNs (s : State) : Nat := s.fld F.CDL_TIMERS_GRACE * 1000000

/-- The key of the transaction that a response sent to an origin answers. -/
def respKeyOf (m : PMsg) : Option TxKey :=
  match m with
  | .fwdToOrigin env (.resp r) => some ⟨env.origin, env.oconn, r.txid⟩
  | _ => none

/-- GRACE after a channel went DOWN, or began to start, the origin drops its entries for non-coherent requests on it, and a
home its unsent responses to such requests with their result-cache entries (R149, R162, R251). -/
def State.chanGrace (s : State) (id : ChanId) : State :=
  match s.chan id with
  | none => s
  | some c =>
    match c.downSince with
    | none => s
    | some t =>
      if c.flushed ∨ c.state = .up ∨ s.now < t + s.graceNs then s
      else
        let lost := c.loose.filterMap respKeyOf
        let onChan (e : Nat × Relay) : Bool :=
          decide (e.2.dest = id.peer) && decide (e.2.bank ≠ id.bank) && !coherent e.2.op
        let s := { s with home.oreqs := s.home.oreqs.filter fun o => !(decide (o.dest = some id) && !coherent o.req.op)
                          home.relays := s.home.relays.filter fun e => !onChan e }
        let s := s.modChan id fun c => { c with
          flushed := true, loose := []
          txq := c.txq.filter fun m => !c.loose.contains m && (match fwdReqOf m with
            | some r => coherent r.op
            | none => true) }
        lost.foldl (fun s k => s.release k) s

/-- The agents of a node: entries of the agent table with INUSE 1 and that NODE (R160). -/
def State.agentsOf (s : State) (n : NodeId) : List AgentId := s.agentsInUse.filter fun a => s.agNode false a = n

/-- Step 3 of R160 at one way of the directory whose line is closed. -/
def State.declareWay (s : State) (agents : List AgentId) (k : Nat) (w : Way) : State :=
  let line := wayLine k w.ent
  let hit := agents.any fun a => isOwner w.ent a || isSharer w.ent a
  if w.ent.st = .free ∨ w.ent.opn ∨ !hit then s
  else
    let lost := hasOwner w.ent ∧ agents.contains w.ent.owner
    let s := if lost then s.poisonAt ((s.slotHolding (64 * line)).getD 0) (64 * line) else s
    let e := agents.foldl dropAgent w.ent
    s.putWay k { w with ent := if e.st = .trans then freeEnt else e }

/-- An answer that only announced a WriteBack is taken back: the snoop awaits its agent again (R160, R215). -/
def awaitAgain (agents : List AgentId) (l : List SnpOut) : List SnpOut :=
  l.map fun o => if agents.contains o.agent ∧ o.ans.any (·.wbif) then { o with ans := none } else o

/-- The line of a recall whose owner is declared before it gave its data (R160). -/
def State.declareVictim (s : State) (agents : List AgentId) (r : Recall) : State :=
  let lost := r.snoops.any fun o => o.owner && agents.contains o.agent && (match o.ans with
    | some a => a.wbif
    | none => true)
  if lost then s.poisonAt ((s.slotHolding (64 * r.line)).getD 0) (64 * r.line) else s

/-- Step 3 of R160 at one open line: snoops awaiting the node are answered I, its owner's line is poisoned, and its own
transaction ends with its response discarded. -/
def State.declareLine (s : State) (agents : List AgentId) (line : Nat) : State :=
  match s.tx line with
  | none => s
  | some t =>
    let dead := decide (hasOwner t.ent) && agents.contains t.ent.owner
    let s := if dead then s.poisonAt t.slot (64 * line) else s
    let s := match t.rcl with
      | some r => s.declareVictim agents r
      | none => s
    let w := s.way t.way
    let s := if wayLine t.way w.ent = line then s.putWay t.way { w with ent := agents.foldl dropAgent w.ent } else s
    let s := s.modTx line fun t =>
      { t with
        ent := agents.foldl dropAgent t.ent
        lost := t.lost || dead
        drop := t.drop || (match t.req with
          | some h => agents.contains h.agent
          | none => false)
        held := t.held.filter fun h => !agents.contains h.agent
        acks := t.acks.filter fun h => !agents.contains h.agent
        snoops := awaitAgain agents t.snoops
        rcl := t.rcl.map fun r => { r with
          snoops := awaitAgain agents r.snoops
          held := r.held.filter fun h => !agents.contains h.agent
          acks := r.acks.filter fun h => !agents.contains h.agent } }
    let all := t.snoops.map (fun o => (o, 64 * line)) ++
      ((t.rcl.map fun r => r.snoops.map fun o => (o, 64 * r.line)).getD [])
    let open_ := all.filter fun p => agents.contains p.1.agent && (match p.1.ans with
      | some a => a.wbif
      | none => true)
    let s := open_.foldl (fun s p => s.snoopAnswer p.1.agent p.1.snptx p.2 ansI) s
    match s.tx line with
    | none => s
    | some t => if t.phase = .release ∧ t.drop then s.closeTx line else s

/-- Steps 3 and 4 of R160 for what a member module did: its sequencing answers, its loans and its handoff. -/
def State.declareMember (s : State) (b : Bool) (n : NodeId) : State :=
  let id : ChanId := ⟨b, n⟩
  let s := s.modChan id fun c => { c with state := .down, dead := true, txq := [], loose := [], units := [], msgs := [] }
  let decls : List Decl := s.home.decls.map fun d => { d with wait := d.wait.filter fun w => w.2 ≠ n }
  let s := { s with home.dead := if s.home.dead.contains (b, n) then s.home.dead else s.home.dead ++ [(b, n)]
                    home.decls := decls }
  let mine := s.home.oreqs.filter fun o => decide (o.dest = some id)
  let s := mine.foldl (fun s o =>
    if o.req.op = .evictClean then s.dropOReq o.id
    else s.deliverResp o.conn (baseResp o.req .ack stDEAD 0) s.node) s
  let rel := s.home.relays.filter fun e => decide (e.2.dest = n) && decide (e.2.bank ≠ b)
  let s := rel.foldl (fun s e => s.relayBack e.1 e.2 (baseResp e.2.req .ack stDEAD 0)) s
  if b then s
  else
    let tags := (s.home.txs.filter fun e => (e.2.phase = .seq ∨ e.2.phase = .repl) ∧ e.2.wait.contains n).map (·.2.tag)
    let s := tags.foldl (fun s g => s.seqDone g n true) s
    let tags := ((s.home.drops.filter fun d => d.sent && d.wait.contains n).map (·.tag)) ++
      (s.home.marks.filter fun m => m.wait.contains n).map (·.tag) ++
      (s.home.fences.filter fun f => f.wait.contains n && !s.bigPool false).filterMap (·.seq)
    let s := tags.foldl (fun s g => s.rxReplDone 0 n g) s
    ((s.freeLentTo n).lenderLost n)

/-- Steps 2 to 4 of R160 at this member. -/
def State.declareHere (s : State) (n : NodeId) : State :=
  let ks := (s.link.conns.filter fun e => e.2.peer = n).map (·.1)
  let s := ks.foldl (fun s k => s.closeConn k 7) s
  let agents := s.agentsOf n
  let s := if agents.isEmpty then s
    else
      let s := { s with
        home.fwdSnps := s.home.fwdSnps.filter fun f => !(f.relay.isNone && agents.contains f.snp.agent)
        home.parked := s.home.parked.filter fun h => !agents.contains h.agent
        home.results := s.home.results.filter fun e => !agents.contains e.agent }
      let s := (s.home.txs.map (·.1)).foldl (fun s l => s.declareLine agents l) s
      s.home.dir.foldl (fun s e => s.declareWay agents e.1 ((tget s.home.dir e.1).getD e.2)) s
  let s := if (s.entryOf false n).isSome then s.declareMember false n else s
  if s.isFace ∧ (s.entryOf true n).isSome then s.declareMember true n else s

/-- The members to which a declaration goes in a bank, without the node itself (R160). -/
def State.declareTo (s : State) (b : Bool) (n : NodeId) : List NodeId :=
  (((upto 64).filter fun i => s.isNodeEntry b i).map (s.memNode b)).filter fun m => m ≠ s.node ∧ m ≠ n

/-- The detachment of a declared node's agents ends (R158, R160). -/
def State.attach (s : State) (n : NodeId) : State :=
  { s with link.detached := s.link.detached.filter fun e => !(s.agentsOf n).contains e.1 }

/-- Ends the declarations that every member has answered: the declarers are told, the detachment of the node's agents
ends, and cause 0x17 is recorded (R158, R160). -/
def State.endDecls (s : State) : State :=
  let done := s.home.decls.filter fun d => d.wait.isEmpty
  let s := { s with home.decls := s.home.decls.filter fun d => !d.wait.isEmpty }
  done.foldl (fun s d =>
    let s := (s.attach d.node).record { occObj (bPort 0) Cause.port_DEAD_DECLARED 2 d.node.toNat with txid := d.node.toNat }
    let s := d.answer.foldl (fun s a => s.sendChan a.1 (.deadNotice true d.node a.2.1 a.2.2)) s
    if d.own then (s.setFld F.POOL_DEAD_STS_BUSY 0).setFld F.POOL_DEAD_STS_LAST d.node.toNat else s) s

/-- Sends DeadNotice DONE 0 to the members of a bank. -/
def State.sendDecl (s : State) (b : Bool) (n : NodeId) (dseq : BitVec 16) : State :=
  (s.declareTo b n).foldl (fun s m => s.sendNode b m (.deadNotice false n s.node dseq)) s

/-- The other end of a handoff is declared (R254, R255, R262). -/
def State.declareHoff (s : State) (n : NodeId) (lose : State → State) : State :=
  if s.home.hoff.peer ≠ n then s
  else
    match s.home.hoff.phase with
    | .copy => lose s
    | .ready => lose s
    | .receiving => lose s
    | _ =>
      if s.home.hoff.newHolder then { s with home.hoff.residual := [], home.hoff.all := true } else s

/-- A declaration reaches this member: it acts, and a face goes on to its other pool (R160, R161, R267). `from_` is the
channel of the declarer, none where this module declares. -/
def State.declare (s : State) (b : Bool) (n : NodeId) (from_ : Option (ChanId × NodeId × BitVec 16)) (dseq : BitVec 16)
    (lose : State → State) : State :=
  let answer := from_.toList
  match s.home.decls.find? fun d => d.node = n with
  | some d =>
    let own := d.own || from_.isNone
    let more := if from_.isNone then (s.declareTo b n).map (dseq, ·) else []
    let decls : List Decl := s.home.decls.map fun x =>
      if x = d then { x with own := own, answer := x.answer ++ answer, wait := x.wait ++ more } else x
    let s := { s with home.decls := decls }
    if from_.isNone then s.sendDecl b n dseq else s
  | none =>
    let own := from_.isNone
    let wait := (if own then s.declareTo b n else []) ++ (if s.isFace then s.declareTo (!b) n else [])
    let s := (s.declareHere n).declareHoff n lose
    let s := { s with home.decls := s.home.decls ++ [(⟨n, b, own, wait.map (dseq, ·), answer⟩ : Decl)] }
    let s := if own then s.sendDecl b n dseq else s
    (if s.isFace then s.sendDecl (!b) n dseq else s).endDecls

/-- A write of POOL_DECLARE_DEAD with GO 1 (R160, R270). -/
def State.declareDead (s : State) (w : Word) (lose : State → State) : State :=
  let n : NodeId := BitVec.ofNat 12 (F.POOL_DECLARE_DEAD_NODE.of w)
  let b := decide (F.POOL_DECLARE_DEAD_BANK.of w = 1)
  if F.POOL_DECLARE_DEAD_GO.of w = 0 then s
  else if s.bit F.POOL_DEAD_STS_BUSY ∨ (b ∧ !s.isFace) then s.setFld F.POOL_DEAD_STS_REFUSED 1
  else
    let s := (s.incFld F.POOL_DEAD_STS_DSEQ).setFld F.POOL_DEAD_STS_BUSY 1
    s.declare b n none (BitVec.ofNat 16 (s.fld F.POOL_DEAD_STS_DSEQ)) lose

/-- A DeadNotice arrives (R160, R161). -/
def State.rxDeadNotice (s : State) (id : ChanId) (done : Bool) (n declarer : NodeId) (dseq : BitVec 16)
    (lose : State → State) : State :=
  if !done then s.declare id.bank n (some (id, declarer, dseq)) dseq lose
  else if declarer ≠ s.node then s
  else
    let decls : List Decl := s.home.decls.map fun d =>
      if d.node = n then { d with wait := d.wait.erase (dseq, id.peer) } else d
    { s with home.decls := decls }.endDecls

/-- A release that has not left for its home yet, held by a response of a connection (R156). -/
def State.relPending (s : State) (k : Nat) (txid : Txid) : Bool :=
  match s.conn k with
  | some c => (c.txq.c2.any fun m => (m.rel.map (·.txid)) = some txid) ||
      c.replay.any fun e => e.rels.any fun r => r.txid = txid
  | none => false

/-- Names the node to which a pending release must go. -/
def State.retarget (s : State) (k : Nat) (txid : Txid) (n : NodeId) : State :=
  let f (r : Rel) : Rel := if r.txid = txid then { r with home := n } else r
  s.modConn k fun c =>
    let q : List OutMsg := c.txq.c2.map fun m => { m with rel := m.rel.map f }
    let rep : List RepEntry := c.replay.map fun e => { e with rels := e.rels.map f }
    { c with txq := { c.txq with c2 := q }, replay := rep }

/-- A RoleResend arrives at the origin: its ResultRelease goes to the new holder, now or when the ACK arrives (R260). -/
def State.rxRoleResend (s : State) (id : ChanId) (n : NodeId) (oconn : ConnId) (txid : Txid) : State :=
  match tget s.home.relays oconn.toNat with
  | some rel =>
    if rel.txid = txid ∧ rel.bank ≠ id.bank then
      { s with home.relays := tput s.home.relays oconn.toNat { rel with dest := n } }
    else if s.relPending oconn.toNat txid then s.retarget oconn.toNat txid n
    else s.sendNode id.bank n (.resultRelease s.node oconn txid)
  | none =>
    if s.relPending oconn.toNat txid then s.retarget oconn.toNat txid n
    else s.sendNode id.bank n (.resultRelease s.node oconn txid)

end Sys2Proof.Machine
end

