-- ==== Sys2Proof/Machine/Hoff.lean ====
section
/-! DEFINITION. Planned handoff of a role (R252 to R263). -/

namespace Sys2Proof.Machine

/-- The keys at which two stores differ. -/
def changed {w : Nat} (a b : Store w) : List Nat :=
  ((b.filter fun e => tget a e.1 != some e.2).map (·.1)) ++ (a.filter fun e => (tget b e.1).isNone).map (·.1)

/-- The regions of a COPY, told apart by the high bits of the region offset: frames (frame * 64 + line), the slot table
(8 entries a line), the tier map (2 descriptors a line) and the frame table (8 entries a line). -/
def rgFRAME : Nat := 0
def rgSLOT : Nat := 1
def rgTMAP : Nat := 2
def rgFTAB : Nat := 3

/-- A region offset. -/
def copyOff (region i : Nat) : Nat := region * 2 ^ 48 + i

/-- `n` values of `w` bits each, packed into a line. -/
def packLine (w n : Nat) (f : Nat → Nat) : Line := (upto n).foldl (fun v j => bfSet v (w * j) w (f j)) 0

/-- The line at a region offset. -/
def State.copyLine (s : State) (off : Nat) : Line :=
  let i := off % 2 ^ 48
  let r := off / 2 ^ 48 % 16
  if r = rgFRAME then sget (fun _ => 0) s.mem.dram i
  else if r = rgSLOT then packLine 64 8 fun j => (sget (fun _ => 0) s.mem.etr (8 * i + j)).toNat
  else if r = rgTMAP then packLine 256 2 fun j => (sget (fun _ => 0) s.mem.tmap (2 * i + j)).toNat
  else packLine 64 8 fun j => (s.ftabAt (8 * i + j)).toNat

/-- A spare has written a frame for the copy that it receives (R255). -/
def State.wroteFrame (s : State) (f : Nat) : State :=
  if s.home.hoff.frames.contains f then s else { s with home.hoff.frames := s.home.hoff.frames ++ [f] }

/-- Writes the line at a region offset (R255). -/
def State.putCopy (s : State) (off : Nat) (d : Line) : State :=
  let i := off % 2 ^ 48
  let r := off / 2 ^ 48 % 16
  if r = rgFRAME then
    (s.writeRaw nobody (i / 64) (i % 64) d).1.wroteFrame (i / 64)
  else if r = rgSLOT then
    (upto 8).foldl (fun s j =>
      { s with mem.etr := sput (fun _ => 0) s.mem.etr (8 * i + j) (BitVec.ofNat 64 (bfGet d (64 * j) 64)) }) s
  else if r = rgTMAP then
    (upto 2).foldl (fun s j => s.setDesc (2 * i + j) (BitVec.ofNat 256 (bfGet d (256 * j) 256))) s
  else
    (upto 8).foldl (fun s j =>
      let w : Word := BitVec.ofNat 64 (bfGet d (64 * j) 64)
      if bfGet w 0 2 = fFREE ∧ bfGet (s.ftabAt (8 * i + j)) 0 2 = fFREE then s
      else (s.setFtab (8 * i + j) w).wroteFrame (8 * i + j)) s

/-- The frames in use, lent ones included (R253). -/
def State.framesUsed (s : State) : List Nat := (s.mem.ftab.filter fun e => decide (bfGet e.2 0 2 ≠ fFREE)).map (·.1)

/-- No element twice in a row. -/
def squeeze : List Nat → List Nat
  | a :: b :: l => if a = b then squeeze (b :: l) else a :: squeeze (b :: l)
  | l => l

/-- Every region offset that a COPY sends (R253). -/
def State.copyOffs (s : State) : List Nat :=
  (squeeze ((s.mem.etr.filter fun e => decide (e.1 < s.slotCount)).map (·.1 / 8))).map (copyOff rgSLOT)
    ++ (squeeze (s.mem.tmap.map (·.1 / 2))).map (copyOff rgTMAP)
    ++ (squeeze (s.mem.ftab.map (·.1 / 8))).map (copyOff rgFTAB)
    ++ s.framesUsed.flatMap fun f => (upto 64).map fun i => copyOff rgFRAME (64 * f + i)

/-- Cuts a list into pieces of `n`; the fuel bounds the pieces. -/
def pieces {α : Type} (n : Nat) : Nat → List α → List (List α)
  | 0, _ => []
  | k + 1, l => if l.isEmpty then [] else l.take n :: pieces n k (l.drop n)

/-- Sends RoleState entries, 64 to a message. -/
def State.sendRole (s : State) (to_ : NodeId) (kind epoch : Nat) (l : List RoleEntry) : State :=
  (pieces 64 (l.length / 64 + 1) l).foldl (fun s p =>
    s.sendNode false to_ (.roleState (BitVec.ofNat 4 kind) s.node (BitVec.ofNat 16 epoch) p)) s

/-- Sends a RoleState without entries. -/
def State.sendMark (s : State) (to_ : NodeId) (kind epoch : Nat) (e : RoleEntry) : State :=
  s.sendNode false to_ (.roleState (BitVec.ofNat 4 kind) s.node (BitVec.ofNat 16 epoch) [e])

/-- The COPY entries of some offsets. -/
def State.copyEntries (s : State) (mirrored : Bool) (offs : List Nat) : List RoleEntry :=
  offs.map fun o => .copy (BitVec.ofNat 64 (o + (if mirrored then 2 ^ 63 else 0))) (s.copyLine o)

/-- The epoch of the member role that is handed off: the new one once the cutover has applied it (R263). -/
def State.hoffEpoch (s : State) : Nat := s.memEpoch false s.home.hoff.idx

/-- Lines whose stored codeword cannot be corrected poison their page before a copy, as a migration's read does (R352). -/
def State.copyCheck (s : State) : State :=
  (s.mem.dramErr.map (·.1)).foldl (fun s k =>
    match s.readRaw nobody (k / 64) (k % 64) srcMigration with
    | (s, .bad) =>
      match s.mem.tmap.find? fun e => decide (dFrame e.2 = k / 64) && decide (dTier e.2 ≠ tierZERO)
          && decide (dTier e.2 ≠ tierREMOTE) with
      | some (pk, d) =>
        if dTier d = tierHOT then s.poisonBit pk (k % 64)
        else
          match firstIdx 4 fun i => decide (segStart d i ≤ k % 64) && decide (k % 64 < segStart d i + bodyUnits (dLen d i)) with
          | some i => s.poisonSeg pk i
          | none => s
      | none => s
    | (s, _) => s) s

/-- The tenants that own a page homed here. -/
def State.ownersHere (s : State) : List Nat :=
  (s.mem.tmap.filter fun e => (s.slotEntry (e.1 / 512)).getLsbD 0).map fun e => dOwner e.2

/-- The spare lacks a key slot that a page homed here needs: KSLOT0 or KSLOT1 of an owner (R252). `n` is the model's count
of free values. -/
def State.spareLacksKey (s : State) (peer : NodeId) (n : Nat) : Bool :=
  s.ownersHere.any fun t => !Config.spareHasKey peer (s.fld (F.TRN_TENANT_KSLOT0 t)) n
    || !Config.spareHasKey peer (s.fld (F.TRN_TENANT_KSLOT1 t)) n

/-- The spare's raw capacity or translation region is smaller than this module's (R252). -/
def State.spareSmall (s : State) (peer : NodeId) : Bool :=
  decide (Config.spareRaw peer < s.rawBytes) || decide (Config.spareRegion peer < s.etrBytes)

/-- A spare takes part in handoffs: entry `i` is one and its channel is UP (R252). -/
def State.spareUp (s : State) (i : Nat) : Bool :=
  s.memValid false i && s.memSpare false i && (match s.chan ⟨false, s.memNode false i⟩ with
    | some c => decide (c.state = .up)
    | none => false)

/-- Starts the copy to a spare (R252, R253). -/
def State.startCopy (s : State) (i : Nat) : State :=
  let s := s.copyCheck
  let offs := s.copyOffs
  let h : Hoff := { idleHoff with
    phase := .copy, peer := s.memNode false i, toIdx := i, idx := (s.selfIdx false).getD 0, since := s.now, member := true
    total := offs.length }
  let s := { s.setFld F.POOL_HOFF_STS_RESULT 0 with home.hoff := h }
  s.sendRole h.peer 0 s.hoffEpoch (s.copyEntries false offs)

/-- A write of POOL_HOFF.GO (R252). -/
def State.hoffGo (s : State) (w : Word) : State :=
  let i := F.POOL_HOFF_TO.of w
  if F.POOL_HOFF_GO.of w = 0 then s
  else if s.home.hoff.phase ≠ .idle then (s.setFld F.POOL_HOFF_STS_REFUSED 1).setFld F.POOL_HOFF_STS_RESULT 1
  else
    let peer := s.memNode false i
    if !s.spareUp i then s.setFld F.POOL_HOFF_STS_RESULT 2
    else if s.spareSmall peer then s.setFld F.POOL_HOFF_STS_RESULT 3
    else
      let (n, s) := s.fresh
      if s.spareLacksKey peer n then s.setFld F.POOL_HOFF_STS_RESULT 4 else s.startCopy i

/-- Discards what a spare has received (R254, R255). -/
def State.discardCopy (s : State) : State :=
  let s := s.home.hoff.frames.foldl (fun s f => s.freeFrame f) s
  { s with mem.etr := s.mem.etr.filter (fun e => decide (s.slotCount ≤ e.1)), mem.tmap := [], home.hoff.frames := [] }

/-- A handoff ends before its cutover (R254, R255): `lost` where the channel or the other end is gone. -/
def State.hoffEnd (s : State) (lost : Bool) : State :=
  let peer := s.home.hoff.peer
  let recv := decide (s.home.hoff.phase = .receiving)
  let s := if recv then s.discardCopy else s
  let s := s.setFld F.POOL_HOFF_STS_RESULT (if lost then 5 else 0)
  let s := if recv then s
    else (s.sendMark peer 8 s.hoffEpoch .abort).record (occObj bPOOL Cause.pool_HOFF_ABORT 2 peer.toNat)
  { s with home.hoff := { s.home.hoff with phase := .idle } }

/-- A write of POOL_HOFF.ABORT (R254). -/
def State.hoffAbort (s : State) (w : Word) : State :=
  if F.POOL_HOFF_ABORT.of w = 1 ∧ (s.home.hoff.phase = .copy ∨ s.home.hoff.phase = .ready) then s.hoffEnd false else s

/-- The COPY completes once every message of it has left (R253). -/
def State.hoffCopyDone (s : State) : State :=
  match s.chan ⟨false, s.home.hoff.peer⟩ with
  | some c =>
    if s.home.hoff.phase = .copy ∧ c.txq.isEmpty then { s with home.hoff := { s.home.hoff with phase := .ready } } else s
  | none => s

/-- The channel to the other end has been lost for longer than GRACE (R254, R255). -/
def State.hoffLost (s : State) : State :=
  let p := s.home.hoff.phase
  let down : Bool := match s.chan ⟨false, s.home.hoff.peer⟩ with
    | some c => match c.downSince with
      | some t => decide (t + s.graceNs < s.now) && decide (c.state ≠ .up)
      | none => false
    | none => true
  if (p = .copy ∨ p = .ready ∨ p = .receiving) ∧ down then s.hoffEnd true else s

/-- A transaction of the kind that moves: its response is sent and its line waits for the release (R256). -/
def movesTx (t : HTx) : Bool := decide (t.phase = .release)

/-- The request that a moved transaction stands for at its new holder (R263). -/
def movedReq (origin : NodeId) (oconn : ConnId) (txid : Txid) (agent : AgentId) (pa : Addr) (slot conf : Nat) : HReq :=
  ⟨⟨origin, oconn, txid⟩, false, 0, slot, ⟨.readShared, ⟨0, false, false, 0, txid, agent, pa⟩, 0, 0, 0, 0⟩, agent, conf⟩

/-- What a result-cache entry holds of its response: the first 32 bytes, filled with zeros (R263). -/
def resultBytes (r : Resp) : BitVec 256 := BitVec.ofNat 256 (leNat (r.bytes.take 32))

/-- The old holder of a member role at the cutover (R256, R257); `idx` is the index whose holder changes. -/
def State.cutoverMember (s : State) (peer : NodeId) (idx : Nat) : State :=
  let epoch := s.memEpoch false idx
  let s := s.home.parked.foldl (fun s h => (s.incFld F.DIR_NAKCNT_STALE).respond h (staleNak h.req epoch peer)) s
  let moves := s.home.txs.filter fun e => movesTx e.2
  let resid := (s.home.txs.filter fun e => !movesTx e.2).map (·.1)
  let ways := s.home.dir.filter fun e => decide (e.2.ent.st ≠ .free) && !resid.contains (wayLine e.1 e.2.ent)
  let results := s.home.results
  let moved : List (TxKey × Nat) := moves.filterMap (fun e => e.2.req.map fun h => (h.key, e.1)) ++
    results.map fun e => (e.key, 0)
  let pa (line : Nat) : Addr := BitVec.ofNat 52 (64 * line)
  let s := s.sendRole peer 1 epoch (ways.map fun e =>
    .dirent (pa (wayLine e.1 e.2.ent)) (entBits { e.2.ent with opn := false }))
  let s := s.sendRole peer 2 epoch (resid.map fun l => .residual (pa l))
  let s := s.sendRole peer 3 epoch (moves.filterMap fun e => e.2.req.map fun h =>
    .movedTx h.key.origin h.key.oconn h.key.txid h.agent (pa e.1))
  let s := s.sendRole peer 4 epoch (results.map fun e =>
    .result e.key.origin e.key.oconn e.key.txid (resultBytes e.resp))
  { s with
    home.parked := []
    home.results := []
    home.txs := s.home.txs.filter fun e => !movesTx e.2
    home.dir := ways.foldl (fun t e => tdel t e.1) s.home.dir
    home.hoff := { idleHoff with
      phase := .window, peer := peer, idx := idx, since := s.now, residual := resid, all := true, moved := moved
      member := true } }

/-- The record of a handoff whose window opens now at the old holder of another role: that of the member role where both move
in one commit. -/
def State.openWindow (s : State) (peer : NodeId) : Hoff :=
  let h := s.home.hoff
  if h.phase = .window ∧ !h.newHolder ∧ h.since = s.now then h
  else { idleHoff with phase := .window, peer := peer, idx := (s.selfIdx false).getD 0, since := s.now, all := true }

/-- The old holder of the bobbin role at the cutover (R256, R257): SeqReq without a number are stale, its own among them, and
the new holder is told the last number. -/
def State.cutoverBobbin (s : State) (peer : NodeId) (epoch : Nat) : State :=
  let held := s.home.seqHeld
  let s := held.foldl (fun s m => match m with
    | .seqReq _ n g _ _ _ _ =>
      if n = s.node then s.resendSeq g peer (BitVec.ofNat 16 epoch)
      else s.sendNode false n (.seqGrant 2 peer g (BitVec.ofNat 16 epoch) 0)
    | _ => s) { s with home.seqHeld := [] }
  let s := s.sendRole peer 6 epoch [.bobbin (BitVec.ofNat 48 s.home.seqLast)]
  { s with home.hoff := { s.openWindow peer with bobbin := true } }

/-- The old holder of the face role at the cutover: its relays stay here as residual transactions (R256). -/
def State.cutoverFace (s : State) (peer : NodeId) : State :=
  { s with home.hoff := { s.openWindow peer with face := true } }

/-- The END marker goes to the new holder of each role that this module has given up at this instant (R257, R259). -/
def State.sendEnd (s : State) (peer : NodeId) (epoch : Nat) : State :=
  let s := s.sendMark peer 7 epoch .endMark
  if peer = s.home.hoff.peer then { s with home.hoff := { s.home.hoff with endMark := s.chanMark ⟨false, peer⟩ } } else s

/-- The new holder of the member role, of which it has a copy, at the cutover (R256, R258). -/
def State.takeMember (s : State) (old : NodeId) (idx : Nat) : State :=
  { s with home.hoff := { idleHoff with
      phase := .window, peer := old, idx := idx, since := s.now, newHolder := true, member := true } }

/-- The record of a new holder that takes another role: that of the member role where it takes both in one commit. -/
def State.takeOther (s : State) (old : NodeId) : Hoff :=
  let h := s.home.hoff
  if h.phase = .window ∧ h.newHolder ∧ h.since = s.now then h
  else { idleHoff with
    phase := .window, peer := old, idx := (s.selfIdx false).getD 0, since := s.now, all := true, newHolder := true }

/-- A way for an entry that a new holder receives: the line's own, or a free one in service (R223). A set has none left only
where a way of it is blinded; a request for a line of that set that matches no way is then served after a recovery (log 187,
DEDUCED). -/
def State.wayFor (s : State) (line : Nat) : Option Nat :=
  let die := slotDie ((s.slotHolding (64 * line)).getD 0)
  let ks := waysOf die (lineSet line)
  match ks.find? fun k => decide ((s.way k).ent.st ≠ .free) && decide (wayLine k (s.way k).ent = line) with
  | some k => some k
  | none => ks.find? fun k => decide ((s.way k).ent.st = .free) && !s.home.blind.contains k

/-- Stores an entry that a new holder receives (R257). -/
def State.takeEnt (s : State) (pa : Addr) (b : BitVec 80) : State :=
  let line := pa.toNat / 64
  let e := { entOf b with opn := false }
  let s := { s with home.hoff.known := if s.home.hoff.known.contains line then s.home.hoff.known
    else s.home.hoff.known ++ [line] }
  match s.wayFor line with
  | some k => if e.st = .free ∨ e.st = .trans then s.putWay k ⟨freeEnt, 0, 0, false⟩ else s.writeEnt k e
  | none => s

/-- A moved transaction reaches the new holder: its line waits for the release there (R256, R263). -/
def State.takeMoved (s : State) (origin : NodeId) (oconn : ConnId) (txid : Txid) (agent : AgentId) (pa : Addr) : State :=
  let line := pa.toNat / 64
  let slot := (s.slotHolding (64 * line)).getD 0
  let h := movedReq origin oconn txid agent pa slot s.home.confGen
  match s.wayFor line with
  | none => s
  | some k =>
  let t : HTx := { freshTx line slot k (s.way k).ent (some h) .release with drop := false }
  { s.putTx t with home.hoff.moved := s.home.hoff.moved ++ [(h.key, line)] }.markWay k true

/-- A cached response reaches the new holder (R263). -/
def State.takeResult (s : State) (origin : NodeId) (oconn : ConnId) (txid : Txid) (b : BitVec 256) : State :=
  match parseMsg (leBytes 32 b.toNat) with
  | some (.resp r) =>
    let slot := (s.slotHolding r.pa.toNat).getD 0
    let e : ResEntry := ⟨⟨origin, oconn, txid⟩, false, slotDie slot, r.agent, r, true⟩
    { s with home.results := s.home.results ++ [e], home.hoff.moved := s.home.hoff.moved ++ [(e.key, 0)] }
  | _ => s

/-- A RoleState entry that follows the cutover reaches the new holder (R257, R258). -/
def State.takeEntry (s : State) (e : RoleEntry) : State :=
  match e with
  | .dirent pa b => s.takeEnt pa b
  | .residual pa => { s with home.hoff.residual := s.home.hoff.residual ++ [pa.toNat / 64] }
  | .movedTx o c t a pa => s.takeMoved o c t a pa
  | .result o c t b => s.takeResult o c t b
  | .lineDone pa b =>
    { s.takeEnt pa b with home.hoff.residual := s.home.hoff.residual.filter (· ≠ pa.toNat / 64) }
  | .bobbin g => { s with home.hoff.gsn := some g.toNat, home.seqLast := g.toNat }
  | _ => s

/-- A copy may be accepted (R255). -/
def State.mayReceive (s : State) (from_ : NodeId) : Bool :=
  let home := ((s.entryOf false from_).map (s.isHomeEntry false)).getD false
  let spare := (upto 64).any fun i => s.memValid false i && s.memSpare false i && decide (s.memNode false i = s.node)
  home && spare && (decide (s.home.hoff.phase = .idle)
    || (decide (s.home.hoff.phase = .receiving) && decide (s.home.hoff.peer = from_)))

/-- A RoleState arrives (R255, R257, R258). -/
def State.rxRoleState (s : State) (id : ChanId) (kind : Nat) (entries : List RoleEntry) : State :=
  let from_ := id.peer
  if kind = 0 then
    if !s.mayReceive from_ then
      if s.home.hoff.newHolder ∧ s.home.hoff.member ∧ s.home.hoff.peer = from_ then
        entries.foldl (fun s e => match e with
          | .copy off d => s.putCopy (off.toNat % 2 ^ 63) d
          | _ => s) s
      else s.record (occObj bPOOL Cause.pool_HOFF_ABORT 2 from_.toNat)
    else
      let s := if s.home.hoff.phase = .receiving then s
        else { s with home.hoff := { idleHoff with phase := .receiving, peer := from_, since := s.now, member := true } }
      entries.foldl (fun s e => match e with
        | .copy off d => s.putCopy (off.toNat % 2 ^ 63) d
        | _ => s) s
  else if kind = 8 then
    if s.home.hoff.phase = .receiving ∧ s.home.hoff.peer = from_ then s.hoffEnd false else s
  else if kind = 6 ∧ s.home.hoff.newHolder ∧ s.home.hoff.bobbin then entries.foldl State.takeEntry s
  else if !s.home.hoff.newHolder ∨ s.home.hoff.peer ≠ from_ then s
  else if kind = 7 then
    { s with home.hoff.endSeen := true, home.hoff.all := true }
  else entries.foldl State.takeEntry s

/-- Writes of this step to a copied region go to the spare, of the member role alone (R253, R257). DESIGN CHOICE (log 170):
a step is atomic, and the writes that it makes go out at its end, each line once, in the order slot table, tier map, frame
table, frames; the steps' own order is kept. -/
def State.mirror (s0 s : State) : State :=
  let h := s.home.hoff
  let on := (h.phase = .copy ∨ h.phase = .ready ∨ h.phase = .window ∨ h.phase = .residual) ∧ !h.newHolder ∧ h.member
  if !on then s
  else
    let slots := (changed s0.mem.etr s.mem.etr).filter (· < s.slotCount)
    let offs := (squeeze (slots.map (· / 8))).map (copyOff rgSLOT)
      ++ (squeeze ((changed s0.mem.tmap s.mem.tmap).map (· / 2))).map (copyOff rgTMAP)
      ++ (squeeze ((changed s0.mem.ftab s.mem.ftab).map (· / 8))).map (copyOff rgFTAB)
      ++ (changed s0.mem.dram s.mem.dram).map (copyOff rgFRAME)
    s.sendRole h.peer 0 s.hoffEpoch (s.copyEntries true offs)

/-- Residual transactions that are no lines still run at an old holder: fence marks being collected at a bobbin, relays at a
face (R256, R261). -/
def State.residualElse (s : State) : Bool :=
  (s.home.hoff.bobbin && !s.home.marks.isEmpty) || (s.home.hoff.face && !s.home.relays.isEmpty)

/-- Residual lines that have closed are told to the new holder; the last residual transaction ends RESIDUAL (R257, R261). -/
def State.lineDones (s : State) : State :=
  let h := s.home.hoff
  if h.newHolder ∨ !(h.phase = .window ∨ h.phase = .residual) then s
  else
    let closed := h.residual.filter fun l => (s.tx l).isNone
    let ent (l : Nat) : DirEnt :=
      ((s.home.dir.find? fun e => decide (e.2.ent.st ≠ .free) && decide (wayLine e.1 e.2.ent = l)).map
        (·.2.ent)).getD freeEnt
    let s := s.sendRole h.peer 5 s.hoffEpoch (closed.map fun l =>
      .lineDone (BitVec.ofNat 52 (64 * l)) (entBits { ent l with opn := false }))
    let left := h.residual.filter fun l => (s.tx l).isSome
    let ended := decide (h.phase = .residual) && left.isEmpty && !s.residualElse
    { s with home.hoff := { s.home.hoff with residual := left, phase := if ended then .idle else h.phase } }

/-- A moved transaction still awaits an answer at the new holder: its line waits for the release, or its result-cache entry
does (R260). -/
def State.movedLive (s : State) (m : TxKey × Nat) : Bool :=
  (match s.tx m.2 with
  | some t => movesTx t && ((t.req.map (·.key)) == some m.1)
  | none => false) || s.home.results.any fun e => e.moved && decide (e.key = m.1)

/-- Asks the origin of a moved transaction for its ResultRelease again (R260); the origin may be this module itself. -/
def State.askRelease (s : State) (k : TxKey) : State :=
  let s := s.incFld F.POOL_HOFF_CNT_RESENT
  if k.origin ≠ s.node then s.sendNode false k.origin (.roleResend s.node k.oconn k.txid)
  else if s.relPending k.oconn.toNat k.txid then s.retarget k.oconn.toNat k.txid s.node
  else s.release k

/-- The highest sequence number applied from any sender (R258; log 189, DEDUCED). -/
def State.topApplied (s : State) : Nat :=
  match s.home.applied.map (·.2.2) with
  | [] => s.home.seqLast
  | q :: l => l.foldl (fun a b => if follows48 b a then b else a) q

/-- A new bobbin that has not been told its predecessor's last number when the window closes starts 2^32 after the highest
that it has applied (R258). -/
def State.startGsn (s : State) : State :=
  if s.gsnKnown then s
  else
    let last := (s.topApplied + 2 ^ 32 - 1) % 2 ^ 48
    { s with home.seqLast := last, home.hoff := { s.home.hoff with gsn := some last } }

/-- The new holder's window closes: at END once no moved transaction awaits an answer, or 1 ms after the cutover, when it
asks for what is missing (R259, R260). -/
def State.closeNew (s : State) (late : Bool) : State :=
  let live := s.home.hoff.moved.filter s.movedLive
  if !(late || (s.home.hoff.endSeen && live.isEmpty)) then s
  else
    let s := live.foldl (fun s m => s.askRelease m.1) s
    let s := s.startGsn
    { s with home.hoff := { s.home.hoff with phase := .idle } }

/-- COUNT has acknowledged the END marker (R259). -/
def State.endAcked (s : State) : Bool :=
  match s.chan ⟨false, s.home.hoff.peer⟩ with
  | some c => decide (s.home.hoff.endMark ≤ c.base)
  | none => true

/-- The handoff window closes (R259, R260). -/
def State.windowClose (s : State) : State :=
  let h := s.home.hoff
  let late := decide (h.since + 1000000 ≤ s.now)
  if h.phase ≠ .window then s
  else if h.newHolder then s.closeNew late
  else if late || (s.endAcked && h.moved.isEmpty) then
    let ended := h.residual.isEmpty && !s.residualElse
    { s with home.hoff := { s.home.hoff with phase := if ended then .idle else .residual } }
  else s

/-- The holders of the roles of the module's own pool before a commit: this module's member index, the node of each member
entry, the bobbin and the face (R244, R256). -/
structure Holders where
  idx : Option Nat
  nodes : List NodeId
  bobbin : Option NodeId
  face : Option NodeId
  deriving DecidableEq, Repr

/-- The holders that the applied record names. -/
def State.holders (s : State) : Holders :=
  { idx := s.selfIdx false
    nodes := (upto 64).map (s.memNode false)
    bobbin := if s.bit (F.POOL_ROLES_BOBV 0) then some (s.bobbinNode false) else none
    face := if s.bit (F.POOL_ROLES_FACEV 0) then some (s.memNode false (s.fld (F.POOL_ROLES_FACE 0))) else none }

/-- The member role changes its holder: this module gives it to a spare, or takes it as one (R256). -/
def State.moveMember (s : State) (old : Holders) : State :=
  match old.idx with
  | some i =>
    let peer := s.memNode false i
    if s.isHomeEntry false i ∧ peer ≠ s.node then
      let f := s.abandonAll.flushAll
      (s.mirror f).cutoverMember peer i
    else s
  | none => match s.selfIdx false with
    | some i => if s.home.hoff.phase = .receiving then s.takeMember (old.nodes.getD i 0) i else s
    | none => s

/-- The bobbin or the face changes its holder (R256). -/
def State.moveRole (s : State) (old new : Option NodeId) (give : State → NodeId → State) (take : Hoff → Hoff) : State :=
  match old, new with
  | some a, some b =>
    if a = b then s
    else if a = s.node then give s b
    else if b = s.node then { s with home.hoff := take (s.takeOther a) }
    else s
  | _, _ => s

/-- The END markers of the roles given up at this instant (R257). -/
def State.endRoles (s : State) (new : Holders) : State :=
  let h := s.home.hoff
  if h.newHolder ∨ h.phase ≠ .window ∨ h.since ≠ s.now then s
  else
    let s := if h.member then s.sendEnd h.peer s.hoffEpoch else s
    let to_ (o : Option NodeId) : NodeId := o.getD h.peer
    let s := if h.bobbin ∧ !(h.member ∧ to_ new.bobbin = h.peer) then
        s.sendEnd (to_ new.bobbin) (s.fld (F.POOL_ROLES_BEPOCH 0)) else s
    if h.face ∧ !(h.member ∧ to_ new.face = h.peer) then s.sendEnd (to_ new.face) (s.fld (F.POOL_ROLES_FEPOCH 0)) else s

/-- The record has changed at a commit: who takes a role over from whom (R256). -/
def State.cutover (s : State) (old : Holders) : State :=
  let new := s.holders
  let s := s.moveMember old
  let s := s.moveRole old.bobbin new.bobbin (fun s b => s.cutoverBobbin b (s.fld (F.POOL_ROLES_BEPOCH 0)))
    fun h => { h with bobbin := true, gsn := none }
  let s := s.moveRole old.face new.face State.cutoverFace fun h => { h with face := true }
  s.endRoles new

end Sys2Proof.Machine
end

