-- ==== Sys2Proof/Machine/Assign.lean ====
section
/-! DEFINITION. Extent assignment at the home (R65 to R69). -/

namespace Sys2Proof.Machine

/-- RESULT codes of TRN_ASSIGN_STS. -/
def asOK : Nat := 0
def asNOT_HOME : Nat := 1
def asCAPACITY : Nat := 2
def asIN_USE : Nat := 3
def asBAD_SLOT : Nat := 4
def asBAD_OP : Nat := 5

/-- A slot is in use (R50); an entry that cannot be read counts as used (R74). -/
def State.slotUsed (s : State) (slot : Nat) : Bool := (s.slotEntry slot).getLsbD 0 || s.mem.etrBad.contains slot

/-- Slots in use (TRN_ASSIGN_STS.USED). -/
def State.slotsUsed (s : State) : Nat := countIf s.mem.etr fun e => decide (e.1 < s.slotCount) && e.2.getLsbD 0

/-- The effective capacity in 2 MiB units (R295). -/
def State.effCapacity (s : State) : Nat :=
  min s.slotCount ((s.dieFrames 0 + s.dieFrames 1 - s.lent + s.borrowed) * s.fld F.TIER_CFG_PLAN / 32768)

/-- The lowest free slot (R67 step 4). -/
def State.lowestFree (s : State) : Option Nat :=
  (upto (min s.slotCount (s.mem.etr.length + s.mem.etrBad.length + 1))).find? fun i => !s.slotUsed i

/-- A used slot holds this extent. -/
def State.extentInUse (s : State) (paext : Nat) : Bool :=
  s.mem.etr.any fun e => decide (e.1 < s.slotCount) && e.2.getLsbD 0 && decide (bfGet e.2 32 31 = paext)

/-- Writes a slot table entry (R50). -/
def State.setSlot (s : State) (slot : Nat) (e : Word) : State :=
  { s with mem.etr := sput (fun _ => 0) s.mem.etr slot e, mem.etrBad := s.mem.etrBad.filter (· ≠ slot) }

/-- The slot table entry of a used slot. -/
def usedEntry (paext : Nat) : Word := BitVec.ofNat 64 (1 + paext * 2 ^ 32)

/-- The ways that track a line of an extent. -/
def State.waysIn (s : State) (paext : Nat) : List (Nat × Nat) :=
  s.home.dir.filterMap fun e =>
    let line := wayLine e.1 e.2.ent
    if e.2.ent.st ≠ .free ∧ line / 32768 = paext then some (e.1, line) else none

/-- The extent that an operation recalls: none for ASSIGN, or where the slot is refused (R67). -/
def State.recalls (s : State) (a : Assign) : Option Nat :=
  if a.op = 0 ∨ s.slotCount ≤ a.slot ∨ !s.slotUsed a.slot then none
  else some (bfGet (s.slotEntry a.slot) 32 31)

/-- Recalls one line of the extent, its returned data discarded (R67 step 3). -/
def State.recallLine (s : State) (slot k line : Nat) : State :=
  let w := s.way k
  let agents := if w.eBad = 0 then s.listedOf w.ent else s.agentsInUse
  let s := (s.markWay k true).putTx { freshTx line slot k w.ent none .snoops with drop := true }
  let (s, l) := s.sendSnoops line slot (agents.map fun a => (a, .invalid, isOwner w.ent a))
  State.advance phaseFuel (s.modTx line fun t => { t with snoops := l }) line

/-- The replicated pages of a slot. -/
def State.replPages (s : State) (slot : Nat) : List Nat :=
  (s.mem.tmap.filter fun e => decide (e.1 / 512 = slot) && dRepl e.2).map (·.1)

/-- Carries an operation's recalls and replica drops on (R67 steps 3 and 4). -/
def State.pushAssign (s : State) : State :=
  match s.home.assign with
  | none => s
  | some a =>
    match s.recalls a with
    | none => s
    | some paext =>
      let s := (s.waysIn paext).foldl (fun s w => if s.lineOpen w.2 then s else s.recallLine a.slot w.1 w.2) s
      if (s.waysIn paext).isEmpty then
        (s.replPages a.slot).foldl (fun s pk => s.dropPage pk (paext * 2 ^ 21 + pk % 512 * 4096)) s
      else s

/-- Every line of the extent is recalled and closed, no page of it migrates (R284), and none is replicated any more. -/
def State.recalled (s : State) (slot paext : Nat) : Bool :=
  (s.waysIn paext).isEmpty && (s.home.txs.all fun e => decide (e.1 / 32768 ≠ paext))
    && (s.mem.migs.all fun m => decide (m.page / 512 ≠ slot))
    && (s.replPages slot).isEmpty && (s.home.drops.all fun d => decide (d.page / 512 ≠ slot))

/-- Gives up what a page holds: its frame, its bin space or its borrowed frame (R67 step 4). Its DIRTY entries are dropped
after their store (R292). Space that a descriptor named which cannot be read stays taken (R352). -/
def State.freePage (s : State) (pk ppa : Nat) : State :=
  let bad := s.mem.tmapBad.contains pk
  let s := if bad then s else ((s.settlePage ppa).storePage pk).abandonMig pk
  let d := s.desc pk
  let s := (s.dropSegs (pageDie pk) ppa).forgetSegs pk
  let s := { s with
    mem.merge := s.mem.merge.filter fun e => decide (e.line / 64 ≠ ppa / 4096)
    mem.lostPages := s.mem.lostPages.filter (· ≠ pk)
    mem.tmapBad := s.mem.tmapBad.filter (· ≠ pk) }
  if bad then s
  else if dTier d = tierHOT then s.freeFrame (dFrame d)
  else if dTier d = tierWARM then s.freeRunOf d
  else if dTier d = tierREMOTE then s.addSpare (dLender d) (dFrame d)
  else s

/-- The descriptors of an extent after steps 5 and 6: TIER ZERO under an owner with GEN + 1, or all 0 but GEN (R67). -/
def State.newDescs (s : State) (slot : Nat) (owner : Option Nat) : State :=
  (upto 512).foldl (fun s p =>
    let pk := 512 * slot + p
    let gen := dGen (s.desc pk)
    let d : BitVec 256 := match owner with
      | some t => bfSet (bfSet 0 4 12 t) 16 16 ((gen + 1) % 65536)
      | none => bfSet 0 16 16 gen
    (s.setDesc pk d)) s

/-- A page of the tenant has been given the GEN 0xFFFF: its rekey falls due (R67 step 5, R382; log 186, DEDUCED). -/
def State.genDue (s : State) (slot t : Nat) : State :=
  if !(upto 512).any fun p => dGen (s.desc (512 * slot + p)) = 0xFFFF then s
  else
    let n := s.keySlotOf t (s.curOf t)
    ((s.setKey n { s.key n with due := true }).setFld (F.XTS_TSTATE_DUE t) 1).record
      { occ bXTS Cause.xts_REKEY_DUE with tenant := some t }

/-- Step 5 of an operation that gives an extent to a tenant, or to none (R67, R382). -/
def State.rewriteDescs (s : State) (slot : Nat) (owner : Option Nat) : State :=
  let s := s.newDescs slot owner
  match owner with
  | some t => s.genDue slot t
  | none => s

/-- Ends an operation with a RESULT; HSLOT is written by one that completed (R67). -/
def State.endAssign (s : State) (result slot : Nat) : State :=
  let s := ({ s with home.assign := none }.setFld F.TRN_ASSIGN_STS_BUSY 0).setFld F.TRN_ASSIGN_STS_RESULT result
  if result = asOK then s.setFld F.TRN_ASSIGN_STS_HSLOT slot else s

/-- Steps 1 to 6 of ASSIGN (R67). -/
def State.doAssign (s : State) (a : Assign) : State :=
  let home := match s.mapMember false (a.paext * 2 ^ 21) with
    | some m => decide (s.memNode false m = s.node) && s.isHomeEntry false m
    | none => false
  if !home then s.endAssign asNOT_HOME 0
  else if s.effCapacity < s.slotsUsed + 1 then s.endAssign asCAPACITY 0
  else if s.extentInUse a.paext ∧ s.lowestFree.isSome then s.endAssign asIN_USE 0
  else
    match s.lowestFree with
    | none => s.endAssign asCAPACITY 0
    | some slot => ((s.rewriteDescs slot (some a.tenant)).setSlot slot (usedEntry a.paext)).endAssign asOK slot

/-- Steps 4 to 6 of REASSIGN and RELEASE, once every line is recalled (R67, R68). -/
def State.doReassign (s : State) (a : Assign) : State :=
  match s.recalls a with
  | none => s.endAssign asBAD_SLOT 0
  | some paext =>
    if !s.recalled a.slot paext then s
    else
      let s := (upto 512).foldl (fun s p => s.freePage (512 * a.slot + p) (paext * 2 ^ 21 + p * 4096)) s
      let s := s.rewriteDescs a.slot (if a.op = 1 then some a.tenant else none)
      let s := s.setSlot a.slot (if a.op = 1 then usedEntry paext else 0)
      s.endAssign asOK a.slot

/-- The operation completes, as soon as it can (R68). -/
def State.assignDone (s : State) : State :=
  match s.home.assign with
  | none => s
  | some a => if a.op = 0 then s.doAssign a else s.doReassign a

/-- A write of TRN_ASSIGN (R67). -/
def State.wrAssign (s : State) (w : Word) : State :=
  let op := s.fld F.TRN_ASSIGN_ARG0_OP
  if !w.getLsbD 0 then s
  else if s.bit F.TRN_ASSIGN_STS_BUSY then s.setFld F.TRN_ASSIGN_STS_REFUSED 1
  else if op = 3 then s.setFld F.TRN_ASSIGN_STS_RESULT asBAD_OP
  else
    { s with home.assign := some ⟨op, s.fld F.TRN_ASSIGN_ARG0_HSLOT, s.fld F.TRN_ASSIGN_ARG0_TENANT,
      s.fld F.TRN_ASSIGN_ARG1_PAEXT⟩ }.setFld F.TRN_ASSIGN_STS_BUSY 1

end Sys2Proof.Machine
end

