-- ==== Sys2Proof/Machine/Pool.lean ====
section
/-! DEFINITION. The commands of the pool and of Picot (spec/04, spec/06 to spec/08). -/

namespace Sys2Proof.Machine

/-- What follows every step that can touch memory, the directory or the pool: pages and lines go on as far as they can,
and a handoff mirrors the writes, from the copy on where this step has taken it (R185, R253, R281). `s0` is the state before
the step, `s1` the one that its command left. -/
def State.after (s0 s1 : State) : State :=
  let s := s0.dropUnfinished s1.askPromos.retryLost.pushAssign.settle.pushMigs
  (if s0.home.hoff.phase = .idle then s1 else s0).mirror s.lineDones

/-- A step of the datapath: nothing happens while the datapath does not run. -/
def State.act (s : State) (f : State → State) : State := if s.dataUp then s.after (f s) else s

/-- A Picot message arrives: the datapath takes it in its turn (R117, R118). -/
def State.heard (s : State) (chan : ChanId) (f : PMsg → Bool) (g : State → State) : State :=
  s.act fun s => s.onChan chan f g

/-- Ends a handoff whose other end is gone (R254, R255). -/
def loseHoff (s : State) : State := s.hoffEnd true

def execFwdToHome (chan : ChanId) (env : Envelope) (inner : Msg) (s : State) : Host.Outcome State Fault Refusal :=
  .next (s.heard chan (fun m => m = .fwdToHome env inner) fun u =>
    u.rxFwdToHome chan (s.chanRxEngine chan) env inner)

def execFwdToOrigin (chan : ChanId) (env : Envelope) (inner : Msg) (s : State) : Host.Outcome State Fault Refusal :=
  .next (s.heard chan (fun m => m = .fwdToOrigin env inner) fun s => s.rxFwdToOrigin chan env inner)

def execResultRelease (chan : ChanId) (origin : NodeId) (oconn : ConnId) (txid : Txid) (s : State) :
    Host.Outcome State Fault Refusal :=
  .next (s.heard chan (fun m => m = .resultRelease origin oconn txid) fun s =>
    s.release ⟨origin, oconn, txid⟩)

def execDeadNotice (chan : ChanId) (done : Bool) (node declarer : NodeId) (dseq : BitVec 16) (s : State) :
    Host.Outcome State Fault Refusal :=
  .next (s.heard chan (fun m => m = .deadNotice done node declarer dseq) fun s =>
    s.rxDeadNotice chan done node declarer dseq
    loseHoff)

def execPicotFrame (f : RxFrame) (s : State) : Host.Outcome State Fault Refusal :=
  if !s.hasPort f.port then .fault .noSuchUnit
  else .next (s.act fun s => s.rxPicot f)

def execPicotReplayTimer (chan : ChanId) (s : State) : Host.Outcome State Fault Refusal :=
  .next (s.act fun s => s.chanReplay chan)

def execPicotIdleUnit (chan : ChanId) (s : State) : Host.Outcome State Fault Refusal :=
  .next (s.act fun s => s.chanIdle chan)

def execPicotPathBroken (chan : ChanId) (s : State) : Host.Outcome State Fault Refusal :=
  .next (s.act fun s => s.chanBroken chan)

def execChanStart (chan : ChanId) (echov : Bool) (src dst : NodeId) (bank : Bool) (rgen rgenEcho poolver : BitVec 32)
    (s : State) : Host.Outcome State Fault Refusal :=
  .next (s.heard chan (fun m => m = .chanStart echov src dst bank rgen rgenEcho poolver) fun s =>
    s.rxChanStart chan echov src dst
    bank rgen rgenEcho poolver)

def execChanstartResend (chan : ChanId) (s : State) : Host.Outcome State Fault Refusal :=
  .next (s.act fun s => s.resendStart chan)

def execPicotGraceExpiry (chan : ChanId) (s : State) : Host.Outcome State Fault Refusal :=
  .next (s.act fun s => s.chanGrace chan)

def execSeqReq (chan : ChanId) (kind : BitVec 2) (node : NodeId) (rtag epoch : BitVec 16) (pa : Addr) (mask : BitVec 64)
    (line : Line) (s : State) : Host.Outcome State Fault Refusal :=
  .next (s.heard chan (fun m => m = .seqReq kind node rtag epoch pa mask line) fun s =>
    s.rxSeqReq kind node rtag epoch pa mask line)

def execSeqGrant (chan : ChanId) (status : BitVec 2) (node : NodeId) (rtag epoch : BitVec 16) (seqno : BitVec 48)
    (s : State) : Host.Outcome State Fault Refusal :=
  .next (s.heard chan (fun m => m = .seqGrant status node rtag epoch seqno) fun s =>
    s.rxSeqGrant status.toNat node rtag epoch)

def execSeqBusyResend (rtag : BitVec 16) (s : State) : Host.Outcome State Fault Refusal :=
  .next (s.act fun s => s.seqBusyResend rtag)

def execReplApply (chan : ChanId) (kind : BitVec 2) (node : NodeId) (rtag epoch : BitVec 16) (pa : Addr)
    (seqno : BitVec 48) (line : Line) (s : State) : Host.Outcome State Fault Refusal :=
  .next (s.heard chan (fun m => m = .replApply kind node rtag epoch pa seqno line) fun s =>
    s.rxReplApply chan kind.toNat node rtag pa.toNat seqno.toNat line)

def execReplDone (chan : ChanId) (status : BitVec 2) (node : NodeId) (rtag : BitVec 16) (seqno : BitVec 48) (s : State) :
    Host.Outcome State Fault Refusal :=
  .next (s.heard chan (fun m => m = .replDone status node rtag seqno) fun s =>
    s.rxReplDone status.toNat node rtag)

def execLendReq (chan : ChanId) (kind : Bool) (node : NodeId) (rtag : BitVec 16) (frame count : BitVec 32) (s : State) :
    Host.Outcome State Fault Refusal :=
  .next (s.heard chan (fun m => m = .lendReq kind node rtag frame count) fun s =>
    s.rxLendReq kind node rtag frame.toNat count.toNat)

def execLendGrant (chan : ChanId) (status : BitVec 2) (node : NodeId) (rtag : BitVec 16) (frame count lgen : BitVec 32)
    (s : State) : Host.Outcome State Fault Refusal :=
  .next (s.heard chan (fun m => m = .lendGrant status node rtag frame count lgen) fun s =>
    s.rxLendGrant status.toNat node rtag frame.toNat count.toNat lgen)

def execRemAccess (chan : ChanId) (kind : BitVec 2) (node : NodeId) (rtag : BitVec 16) (line : BitVec 6)
    (frame lgen : BitVec 32) (pa : Addr) (owner : TenantId) (gen : BitVec 16) (ksel : Bool) (poison : BitVec 64)
    (data : Line) (s : State) : Host.Outcome State Fault Refusal :=
  .next (s.heard chan (fun m => m = .remAccess kind node rtag line frame lgen pa owner gen ksel poison data) fun s =>
    s.rxRemAccess kind.toNat node rtag line frame lgen pa.toNat owner.toNat gen.toNat ksel poison data)

def execRemAnswer (chan : ChanId) (status : BitVec 2) (node : NodeId) (rtag : BitVec 16) (line : BitVec 6)
    (frame lgen : BitVec 32) (data : Line) (s : State) : Host.Outcome State Fault Refusal :=
  .next (s.heard chan (fun m => m = .remAnswer status node rtag line frame lgen (some data)
        || m = .remAnswer status node rtag line frame lgen none) fun s => s.rxRemAnswer status.toNat node rtag line.toNat data)

def execRoleState (chan : ChanId) (kind : BitVec 4) (node : NodeId) (epoch : BitVec 16) (entries : List RoleEntry)
    (s : State) : Host.Outcome State Fault Refusal :=
  .next (s.heard chan (fun m => m = .roleState kind node epoch entries) fun s =>
    s.rxRoleState chan kind.toNat entries)

def execRoleResend (chan : ChanId) (node : NodeId) (oconn : ConnId) (txid : Txid) (s : State) :
    Host.Outcome State Fault Refusal :=
  .next (s.heard chan (fun m => m = .roleResend node oconn txid) fun s =>
    s.rxRoleResend chan node oconn txid)

def execHoffCopyDone (s : State) : Host.Outcome State Fault Refusal := .next (s.act State.hoffCopyDone)

def execHoffLost (s : State) : Host.Outcome State Fault Refusal := .next (s.act State.hoffLost)

def execHandoffWindowClose (s : State) : Host.Outcome State Fault Refusal := .next (s.act State.windowClose)

end Sys2Proof.Machine
end

