-- ==== Sys2Proof/Machine/Coh.lean ====
section
/-! DEFINITION. The coherence requests and snoop responses that arrive on connections (spec/05, spec/06). -/

namespace Sys2Proof.Machine

/-- A request with the fields its opcode uses. -/
def mkReq (op : ReqOp) (hdr : ReqHdr) (mask : BitVec 64) (line : Line) (opa opb : BitVec 128) : Req :=
  ⟨op, hdr, mask, line, opa, opb⟩

/-- A request arrives on a connection (R57, R58, R185). -/
def State.request (s : State) (conn : ConnId) (r : Req) : State := s.act fun s => s.recvReq conn.toNat r

def execReadShared (conn : ConnId) (hdr : ReqHdr) (s : State) : Host.Outcome State Fault Refusal :=
  .next (s.request conn (mkReq .readShared hdr 0 0 0 0))

def execReadOwn (conn : ConnId) (hdr : ReqHdr) (s : State) : Host.Outcome State Fault Refusal :=
  .next (s.request conn (mkReq .readOwn hdr 0 0 0 0))

def execUpgrade (conn : ConnId) (hdr : ReqHdr) (s : State) : Host.Outcome State Fault Refusal :=
  .next (s.request conn (mkReq .upgrade hdr 0 0 0 0))

def execReadNoCache (conn : ConnId) (hdr : ReqHdr) (s : State) : Host.Outcome State Fault Refusal :=
  .next (s.request conn (mkReq .readNoCache hdr 0 0 0 0))

def execWriteNoCache (conn : ConnId) (hdr : ReqHdr) (mask : BitVec 64) (line : Line) (s : State) :
    Host.Outcome State Fault Refusal :=
  .next (s.request conn (mkReq .writeNoCache hdr mask line 0 0))

def execWriteBack (conn : ConnId) (hdr : ReqHdr) (line : Line) (s : State) : Host.Outcome State Fault Refusal :=
  .next (s.request conn (mkReq .writeBack hdr 0 line 0 0))

def execEvictClean (conn : ConnId) (hdr : ReqHdr) (s : State) : Host.Outcome State Fault Refusal :=
  .next (s.request conn (mkReq .evictClean hdr 0 0 0 0))

def execFetchAdd (conn : ConnId) (hdr : ReqHdr) (opa : BitVec 128) (s : State) : Host.Outcome State Fault Refusal :=
  .next (s.request conn (mkReq .fetchAdd hdr 0 0 opa 0))

def execSwap (conn : ConnId) (hdr : ReqHdr) (opa : BitVec 128) (s : State) : Host.Outcome State Fault Refusal :=
  .next (s.request conn (mkReq .swap hdr 0 0 opa 0))

def execCompareSwap (conn : ConnId) (hdr : ReqHdr) (opa opb : BitVec 128) (s : State) : Host.Outcome State Fault Refusal :=
  .next (s.request conn (mkReq .compareSwap hdr 0 0 opa opb))

def execFence (conn : ConnId) (hdr : ReqHdr) (s : State) : Host.Outcome State Fault Refusal :=
  .next (s.request conn (mkReq .fence hdr 0 0 0 0))

def execSnpRsp (conn : ConnId) (newState : BitVec 3) (wbif : Bool) (tenant : TenantId) (snptx : BitVec 16)
    (agent : AgentId) (pa : Addr) (s : State) : Host.Outcome State Fault Refusal :=
  .next (s.act fun s => s.recvSnpRsp conn.toNat ⟨newState, wbif, false, tenant, snptx, agent, pa, none⟩)

def execSnpRspData (conn : ConnId) (newState : BitVec 3) (dirty : Bool) (tenant : TenantId) (snptx : BitVec 16)
    (agent : AgentId) (pa : Addr) (line : Line) (s : State) : Host.Outcome State Fault Refusal :=
  .next (s.act fun s => s.recvSnpRsp conn.toNat ⟨newState, false, dirty, tenant, snptx, agent, pa, some line⟩)

end Sys2Proof.Machine
end

