-- ==== Sys2Proof/Machine/Serve.lean ====
section
/-! DEFINITION. The transport's commands: frames received, timers and sending (spec/03, spec/04, R464, R469, R480). -/

namespace Sys2Proof.Machine

/-- STANDBY, or DRAIN on the way into it: connections with AGV 0 run on (R464, R469). -/
def State.standing (s : State) : Bool :=
  !s.locked && (decide (s.fld F.PMU_STATE_STATE = 5) || (decide (s.fld F.PMU_STATE_STATE = 3) && s.sys.power.toStby))

/-- A connection runs in the module's present state (R445, R464, R469). -/
def State.runs (s : State) (k : Nat) : Bool :=
  s.dataUp || (s.standing && (match s.conn k with
    | some c => !c.agv
    | none => false))

/-- A step of one connection: in STANDBY only its transport moves. -/
def State.linkAct (s : State) (k : Nat) (f : State → State) : State :=
  if s.dataUp then s.after (f s) else if s.runs k then f s else s

/-- A Coldel or Picot frame before POOL_READY: checks 1 to 4 of R111, then NOCONN (R480). -/
def State.rxEarly (s : State) (f : RxFrame) : State :=
  let e := engineOf s.portMode f.port 0
  if !(s.port f.port).link then s
  else if !f.fcsGood then s.badFcs f
  else if !s.dstAccepted f ∨ f.tag = .other then s
  else if f.etherType.toNat = s.fld F.CDL_ETYPE_COLDEL ∨ f.etherType.toNat = s.fld F.CDL_ETYPE_PICOT then
    s.incFld (F.CDL_RXDISC0_NOCONN e)
  else s

/-- A frame of one Coldel type arrives, in the module's present state. -/
def State.frame (s : State) (f : RxFrame) (type : Nat) (isn : Seq24) : Host.Outcome State Fault Refusal :=
  if !s.hasPort f.port then .fault .noSuchUnit
  else if s.locked then .next s
  else if !s.bit F.GBL_STATUS_POOL_READY then .next (s.rxEarly f)
  else .next (s.linkAct (CHdr.parse f.body).conn fun s => s.rxColdel f type isn)

def execData (f : RxFrame) (s : State) : Host.Outcome State Fault Refusal := s.frame f 0 0
def execAck (f : RxFrame) (s : State) : Host.Outcome State Fault Refusal := s.frame f 1 0
def execNak (f : RxFrame) (s : State) : Host.Outcome State Fault Refusal := s.frame f 2 0
def execHeartbeat (f : RxFrame) (s : State) : Host.Outcome State Fault Refusal := s.frame f 3 0
def execConnect (f : RxFrame) (isn : Seq24) (s : State) : Host.Outcome State Fault Refusal := s.frame f 4 isn
def execClose (f : RxFrame) (s : State) : Host.Outcome State Fault Refusal := s.frame f 6 0
def execAudit (f : RxFrame) (s : State) : Host.Outcome State Fault Refusal := s.frame f 7 0

/-- A PAUSE or PFC frame: counted in the port's blocks and ignored (R79, R111). -/
def State.rxPause (s : State) (f : RxFrame) : State :=
  let blocks := portBlocks s.portMode f.port
  let opc := bytesAt f.body 1 1 + 256 * bytesAt f.body 0 1
  if !(s.port f.port).link ∨ s.locked then s
  else if !(s.rxFilter f).2 then (s.rxFilter f).1
  else if f.etherType ≠ 0x8808 then s
  else if opc = 0x0001 then blocks.foldl (fun s b => s.incFld (F.ETH_RXERR_CNT_PAUSE b)) s
  else if opc = 0x0101 then blocks.foldl (fun s b => s.incFld (F.ETH_RXERR_CNT_PFC b)) s
  else s

def execPause (f : RxFrame) (s : State) : Host.Outcome State Fault Refusal :=
  if !s.hasPort f.port then .fault .noSuchUnit else .next (s.rxPause f)

/-- A signed value of `w` bits, saturating. -/
def satSigned (w : Nat) (x : Int) : Nat :=
  let y := max (-(2 ^ (w - 1) : Int)) (min x (2 ^ (w - 1) - 1))
  (y % (2 ^ w : Int)).toNat

/-- The bytes after the EtherType are those of an IEEE 1588 Sync of a PTP domain: messageType 0, versionPTP 2 and
domainNumber, in a message of at least 44 bytes (R81). -/
def isSync (domain : Nat) (body : List Byte) : Bool :=
  decide (44 ≤ body.length) && decide (bytesAt body 0 1 % 16 = 0) && decide (bytesAt body 1 1 % 16 = 2)
    && decide (bytesAt body 4 1 = domain)

/-- The Sync of the slave port that this module's PTP takes (R81): PTP runs on the port, in the Sync's domain. -/
def State.hearsSync (s : State) (f : RxFrame) : Bool :=
  decide (s.fld F.CDL_PTP_ROLE ≠ 0) && decide (bitsOf (s.fld F.CDL_PTP_PORTS) f.port 1 = 1)
    && decide (f.etherType = 0x88F7) && isSync (s.fld F.CDL_PTP_DOMAIN) f.body

/-- The servo at a Sync that shows an offset from the master (R396, R397). -/
def State.syncOffset (s : State) (f : RxFrame) (offset : Int) : State :=
    let st := s.fld F.MTR_PTPSTS_STATE
    let p := s.sys.ptp
    let good := if -50 ≤ offset ∧ offset ≤ 50 then p.good + 1 else 0
    let lock := decide (16 ≤ good) && decide (st ≠ 2)
    let ready := s.bit F.GBL_STATUS_POOL_READY
    let step := lock && p.mayStep && !ready
    let s := { s with sys.ptp := { p with good := good, lastSync := s.now, offset := offset
                                          mayStep := p.mayStep && !lock && !ready } }
    let s := ((s.setFld F.MTR_PTPSTS_OFFSET (satSigned 32 offset)).setFld F.MTR_PTPSTS_PORT f.port).setFld
      F.MTR_PTPSTS_STATE (if lock then 2 else if st = 0 then 1 else st)
    let s := if step then
        let now := ((s.now : Int) - offset).toNat
        { s with now := now, sys.ptp := { s.sys.ptp with lastSync := now } }
      else s
    if ready ∧ (1000 < offset ∨ offset < -1000) then s.record (occ bMTR Cause.mtr_PTP_OFFSET) else s

/-- A Sync arrives with the offset that the exchange with the best master shows (R81, R111, R396, R397). DESIGN CHOICE (log
180): the other PTP messages have no command; what they tell is inside the offset, and the module sends none. -/
def State.sync (s : State) (f : RxFrame) (offset : Int) : State :=
  if !(s.port f.port).link then s
  else if !(s.rxFilter f).2 then (s.rxFilter f).1
  else if s.hearsSync f then s.syncOffset f offset
  else s

def execSync (f : RxFrame) (offset : Int) (s : State) : Host.Outcome State Fault Refusal :=
  if !s.hasPort f.port then .fault .noSuchUnit else .next (s.sync f offset)

/-- 2 s without a valid Sync while LOCKED (R397). -/
def execHoldover (s : State) : Host.Outcome State Fault Refusal :=
  .next <|
    if s.fld F.MTR_PTPSTS_STATE = 2 ∧ s.sys.ptp.lastSync + 2000000000 ≤ s.now then
      ({ s with sys.ptp := { s.sys.ptp with good := 0 } }.setFld F.MTR_PTPSTS_STATE 3).record
        (occ bMTR Cause.mtr_PTP_HOLDOVER)
    else s

/-- The standalone ACK of R126. -/
def State.standaloneAck (s : State) (k : Nat) : State :=
  match s.conn k with
  | some c => match c.grantAck with
    | some t => if t + 1000 ≤ s.now then s.sendAck k else s
    | none => s
  | none => s

def execStandaloneAck (conn : ConnId) (s : State) : Host.Outcome State Fault Refusal :=
  .next (s.linkAct conn.toNat fun s => s.standaloneAck conn.toNat)

def execSendData (conn : ConnId) (tc : BitVec 2) (s : State) : Host.Outcome State Fault Refusal :=
  .next (s.linkAct conn.toNat fun s => s.sendData conn.toNat tc.toNat)

/-- The replay timer (R129): the packet at SND_UNA goes again with ACKREQ 1; a bad entry closes the connection (R165). DESIGN
CHOICE (log 178): R129 does not name HOLDING; the timer does nothing then, and starts anew at a failover and at its end. -/
def State.replayTimer (s : State) (k : Nat) : State :=
  match s.conn k with
  | none => s
  | some c =>
    match c.replay with
    | [] => s
    | e :: rest =>
      if s.now < c.rto + 4000 ∨ c.holding.isSome then s
      else
        let s := s.incFld (F.CDL_RELY0_RTO c.engine)
        if e.bad then s.closeParity k
        else (s.resend k c c.onAlt true e.pkt).modConn k fun c =>
          { c with rto := s.now, replay := { e with alt := c.onAlt } :: rest, grantAck := none }

def execReplayTimerExpiry (conn : ConnId) (s : State) : Host.Outcome State Fault Refusal :=
  .next (s.linkAct conn.toNat fun s => s.replayTimer conn.toNat)

/-- The connections on a path record, each with whether the record is its alternate path; lowest number first. -/
def State.onPath (s : State) (key : PathKey) : List (Nat × Bool) :=
  ((s.usersOf key).filter s.runs).map fun k => (k, decide ((s.connPath k false).key key.engine ≠ key))

/-- A HEARTBEAT is due on a path record (R138). -/
def State.heartbeat (s : State) (key : PathKey) : State :=
  match s.path key, s.onPath key with
  | some r, (k, alt) :: _ =>
    if s.now < r.lastHb + 1000 ∨ s.inFlight key ≠ 0 then s
    else
      (s.sendCtl k 3 alt (leBytes 8 s.now ++ leBytes 8 r.echo)).putPath
        { r with lastHb := s.now, txTimes := (r.txTimes.filter fun t => decide (s.now ≤ t + 6000)) ++ [s.now] }
  | _, _ => s

def execHeartbeatSend (path : PathKey) (s : State) : Host.Outcome State Fault Refusal :=
  .next (if s.dataUp || s.standing then s.heartbeat path else s)

/-- 6 µs have passed without a proof (R140, R141, R148). -/
def State.breakPath (s : State) (key : PathKey) : State :=
  match s.path key with
  | none => s
  | some r =>
    if r.state = .broken ∨ s.now < r.lastProof + 6000 then s
    else
      let s' := s.putPath { r with state := .broken }
      let s' := if r.state = .up then s'.record (occObj (bPort key.engine) Cause.port_PATH_BROKEN 7 key.port) else s'
      let s' := (s.usersOf key).foldl (fun s k => s.followRecord key k) s'
      ((s.usersOf key).filter s.runs).foldl (fun s k => s.pathLost k) s'

def execPathBroken (path : PathKey) (s : State) : Host.Outcome State Fault Refusal :=
  .next (if s.dataUp || s.standing then s.breakPath path else s)

/-- A connection on a path has no UP path. -/
def State.noUpPath (s : State) (k : Nat) : Bool :=
  match s.conn k with
  | some c => decide (s.pathView k c false ≠ .up) && decide (s.pathView k c true ≠ .up)
  | none => false

/-- How long proofs must have run: FAILBACK, or 20 µs where a connection has no UP path (R134, R140). -/
def State.failbackNs (s : State) (lone : Bool) : Nat :=
  if lone then 20000 else s.fld F.CDL_TIMERS_FAILBACK * 1000000

/-- A connection's own view of a path is UP again (R134): the record has carried proofs since the timeout. -/
def State.clearView (s : State) (k : Nat) (alt : Bool) : State :=
  match s.conn k with
  | none => s
  | some c =>
    match (if alt then c.viewQ else c.viewP) with
    | none => s
    | some v =>
      if v.ret ∧ v.since + s.failbackNs (s.noUpPath k) ≤ s.now then
        s.putConn k (if alt then { c with viewQ := none } else { c with viewP := none })
      else s

/-- Proofs without a gap bring a RETURNING path UP (R140, R141, R148). -/
def State.raisePath (s : State) (key : PathKey) : State :=
  match s.path key with
  | none => s
  | some r =>
    let users := s.onPath key
    let lone := users.any fun u => s.noUpPath u.1
    let s := if r.state = .returning ∧ s.now < r.lastProof + 6000 ∧ r.retSince + s.failbackNs lone ≤ s.now then
        s.putPath { r with state := .up }
      else s
    if ((s.path key).map (·.state)) = some .up ∧ s.now < r.lastProof + 6000 then
      users.foldl (fun s u => (s.clearView u.1 u.2).pathGained u.1) s
    else s

def execPathUp (path : PathKey) (s : State) : Host.Outcome State Fault Refusal :=
  .next (if s.dataUp || s.standing then s.raisePath path else s)

/-- The credit timeout (R134). -/
def State.creditOut (s : State) (k tc : Nat) : State :=
  match s.conn k with
  | none => s
  | some c =>
    if !c.starved tc ∨ c.holding.isSome ∨ s.now < c.gotAt.get tc + s.fld F.CDL_TIMERS_CREDIT_TO * 1000 then s
    else
      let c' := if c.onAlt then { c with viewQ := some ⟨s.now, false⟩ } else { c with viewP := some ⟨s.now, false⟩ }
      ((s.putConn k c').record (occObj (bPort c.engine) Cause.port_CREDIT_TIMEOUT 3 k)).pathLost k

def execCreditTimeout (conn : ConnId) (tc : BitVec 2) (s : State) : Host.Outcome State Fault Refusal :=
  .next (s.linkAct conn.toNat fun s => s.creditOut conn.toNat tc.toNat)

/-- Four values of 3 bytes each, as AUDIT carries them (R90). -/
def per4Bytes (p : Per4 Seq24) : List Byte :=
  leBytes 3 p.c0.toNat ++ leBytes 3 p.c1.toNat ++ leBytes 3 p.c2.toNat ++ leBytes 3 p.c3.toNat

/-- The AUDIT of R135. -/
def State.sendAudit (s : State) (k : Nat) (payload : Conn → List Byte) : State :=
  match s.conn k with
  | none => s
  | some c =>
    if !c.auditDue ∨ s.now < c.lastAudit + 100000 then s
    else (s.sendCtl k 7 c.onAlt (payload c)).modConn k fun c => { c with auditDue := false, lastAudit := s.now }

/-- The payload of an AUDIT (R90): SENT0 to SENT3, GOT0 to GOT3 and ASEQ. -/
def auditPayload (c : Conn) : List Byte := per4Bytes c.sent ++ per4Bytes c.got ++ leBytes 3 c.sndNxt.toNat

def execAuditSend (conn : ConnId) (s : State) : Host.Outcome State Fault Refusal :=
  .next (s.linkAct conn.toNat fun s => s.sendAudit conn.toNat auditPayload)

/-- GRACE has expired on a HOLDING connection (R149, R152). -/
def State.holdFlush (s : State) (k : Nat) : State :=
  match s.conn k with
  | none => s
  | some c =>
    match c.holding with
    | none => s
    | some t =>
      if c.flushed ∨ s.now < t + s.graceNs then s
      else
        let gone := c.txq.c2.filter fun m => !m.coh
        let keys := gone.filterMap (·.rel)
        let s := s.putConn k { c with flushed := true, txq := c.txq.set 2 (c.txq.c2.filter (·.coh)) }
        let s := (s.addFld (F.CDL_RELY1_HOLD_FLUSH c.engine) gone.length).record
          (occObj (bPort c.engine) Cause.port_HOLD_FLUSH 3 k)
        { s with link.rels := s.link.rels ++ keys }

def execHoldFlush (conn : ConnId) (s : State) : Host.Outcome State Fault Refusal :=
  .next (s.linkAct conn.toNat fun s => s.holdFlush conn.toNat)

end Sys2Proof.Machine
end

