-- ==== Sys2Proof/Machine/Csr.lean ====
section
/-! DEFINITION. CSR access: the register map, the allow lists, the crossbar and its answers (R6 to R10, R29, R73, R120,
R270, R422, R445, R489, R510 to R518). -/

namespace Sys2Proof.Machine

/-- The instance and element of a register that an address names. -/
def RegDef.place (d : RegDef) (a : Nat) : Option (Nat × Nat) :=
  let i := if d.n1 ≤ 1 then 0 else (a - d.base) / d.s1
  let r := (a - d.base) - i * d.s1
  let j := if d.n2 ≤ 1 then 0 else r / d.s2
  if d.base ≤ a ∧ i < d.n1 ∧ j < d.n2 ∧ r = j * d.s2 then some (i, j) else none

/-- The register at an address. -/
def regAt (a : Nat) : Option RegDef := regDefs.find? fun d => (d.place a).isSome

/-- Port registers of block 0 that the other blocks mirror as 0 (R120, R164). -/
def mirrorsZero (a : Nat) : Bool :=
  let off := a % 0x100000
  decide (0x1100000 ≤ a) && decide (a < 0x1800000)
    && ([0x0, 0x1000, 0x1008, 0x1010, 0x1018, 0x1100, 0x1108, 0x1110, 0x1118, 0x1120, 0x1128, 0x1300, 0x1308, 0x1310].contains off)

/-- The address of a register's select register, for the bank that the address lies in (R73, R270). -/
def RegDef.selKey (d : RegDef) (a : Nat) : Option Nat :=
  d.sel.map fun k => k + d.s1 * ((d.place a).getD (0, 0)).1

/-- The key under which an access to a register reaches its value: the address and the select value in force (R73). -/
def State.regKey (s : State) (d : RegDef) (a : Nat) : Nat :=
  match d.selKey a with
  | some k => a + (s.reg k).toNat * 2 ^ 32
  | none => a

/-- An access to bank 1 of POOL at a module that is not a face reads 0 and writes nothing (R270). -/
def State.bankAway (s : State) (a : Nat) : Bool :=
  decide (0x2108000 ≤ a) && decide (a < 0x2108400) && (regAt a).isSome && !s.isFace

/-- A staged write enters the basting bank (R489, R490). -/
def State.stage (s : State) (key : Nat) (v : Word) : State :=
  let st := s.fld F.CFG_STS_STATE
  let b := s.sys.bank
  if st = 2 ∨ st = 3 ∨ st = 4 ∨ ((tget b.staged key).isNone ∧ 131072 ≤ b.staged.length) then
    { s with sys.bank := { b with lost := true } }.setFld F.CFG_STS_LOSTWR 1
  else
    let t := tput b.staged key v
    let s := { s with sys.bank := { b with staged := t } }.setFld F.CFG_STS_STAGED t.length
    if st = 5 then s else s.setFld F.CFG_STS_STATE 1

/-- What a write stores by the access types of the register's fields (R8). -/
def State.storeReg (s : State) (d : RegDef) (a : Nat) (w : Word) : State :=
  let key := s.regKey d a
  let rw := BitVec.ofNat 64 d.rw
  let r := ((s.reg key &&& ~~~rw) ||| (w &&& rw)) &&& ~~~(w &&& BitVec.ofNat 64 d.w1c)
  let s := s.setReg key r
  if d.rws = 0 then s else s.stage key (w &&& BitVec.ofNat 64 d.rws)

/-- The management port runs: from the end of start step 2, in every state except RETENTION and OFF (R542). -/
def State.mgtUp (s : State) : Bool :=
  decide (s.fld F.PMU_STATE_STATE ≠ 4) && (decide (s.fld F.PMU_STATE_STATE = 0) || decide (3 ≤ s.fld F.FWU_BOOT_PHASE))

/-- The management core runs its firmware, so that CSRs can be reached (R504, R542). -/
def State.csrUp (s : State) : Bool := s.mgtUp && decide (s.fld F.PMU_STATE_STATE ≠ 0)

/-- The management port's address (GBL_MGT, R505). -/
def State.mgtAddr (s : State) : BitVec 32 :=
  let a := s.fld F.GBL_MGT_IPV4
  if a = 0 ∨ s.fld F.PMU_STATE_STATE = 0 then BitVec.ofNat 32 (0xA9FE5A20 + s.sys.start.shelfId.toNat) else BitVec.ofNat 32 a

/-- GBL_ALLOW names a node (R511). -/
def State.allowNode (s : State) (n : NodeId) (write : Bool) : Bool :=
  (upto 64).any fun i =>
    s.bit (F.GBL_ALLOW_V i) && decide (s.fld (F.GBL_ALLOW_NODE i) = n.toNat) && (!write || s.bit (F.GBL_ALLOW_WRITE i))

/-- An address lies under a prefix. -/
def inPrefix (a b : BitVec 32) (len : Nat) : Bool := decide (a.toNat / 2 ^ (32 - len) = b.toNat / 2 ^ (32 - len))

/-- GBL_MGTALLOW admits a source address (R513). -/
def State.allowIp (s : State) (ip : BitVec 32) (write : Bool) : Bool :=
  let l := (upto 8).filter fun j => s.bit (F.GBL_MGTALLOW_V j)
  l.isEmpty || l.any fun j =>
    inPrefix ip (BitVec.ofNat 32 (s.fld (F.GBL_MGTALLOW_ADDR j))) (s.fld (F.GBL_MGTALLOW_PREFIX j))
      && (!write || s.bit (F.GBL_MGTALLOW_WRITE j))

/-- A tenant may read this counter although its node is not on the list (R422). -/
def State.tenantRead (s : State) (k : Nat) (d : RegDef) (a : Nat) : Bool :=
  match d.place a with
  | some (b, i) =>
    decide (d.name = "PRF_CNT") && s.bit F.PRF_TENANT_READ_EN && s.bit (F.TRN_CONN_BIND_BOUND k)
      && s.bit (F.PRF_CTL_QUAL b i) && s.bit (F.PRF_CTL_TREAD b i)
      && decide (s.bound k (s.fld (F.PRF_CTL_TENANT b i)) = some true)
  | none => false

/-- A register whose W1C fields, or whose writes, are still served in LOCK (R445). -/
def lockWritable (d : RegDef) : Bool :=
  ["FLTSTS", "FLTFIRST", "FLTOVF", "NTQ_RELEASE", "NTQ_CTL"].contains d.name

/-- A request at the crossbar: who sends it, whether it writes, its address, and the data of a write where the command
gives them. -/
structure CsrReq where
  src : CsrSrc
  write : Bool
  addr : BitVec 32
  data : Option Word
  deriving DecidableEq, Repr

/-- A CSR message waiting in a class buffer. -/
def Msg.isCsr : Msg → Bool
  | .csrRead _ _ => true
  | .csrWrite _ _ _ => true
  | _ => false

/-- The message of a request with this transaction ID (R108). -/
def CsrReq.is (r : CsrReq) (txid : Txid) : Msg → Bool
  | .csrRead t a => !r.write && decide (t = txid) && decide (a = r.addr)
  | .csrWrite t a d => r.write && decide (t = txid) && decide (a = r.addr) && r.data.all (· = d)
  | _ => false

/-- The request lies behind 64 others of its connection that wait at the crossbar (R515). -/
def State.overLimit (s : State) (r : CsrReq) : Bool :=
  match r.src with
  | .inband k t =>
    match s.conn k.toNat with
    | some c =>
      let l := (c.rxq.flatMap (·.msgs)).filter Msg.isCsr
      (match l.findIdx? (r.is t) with
      | some i => decide (64 ≤ i)
      | none => false)
    | none => false
  | .mgmt _ _ _ => false

/-- The access lists admit a request (R511, R513, R422). -/
def State.csrAllowed (s : State) (r : CsrReq) : Bool :=
  match r.src with
  | .inband k _ =>
    match s.conn k.toNat with
    | some c =>
      s.allowNode c.peer r.write || (!r.write && (match regAt r.addr.toNat with
        | some d => s.tenantRead k.toNat d r.addr.toNat
        | none => false))
    | none => false
  | .mgmt ip _ _ => s.allowIp ip r.write

/-- The answer of the crossbar: STATUS, HINT and RDATA. -/
structure CsrAns where
  status : Nat
  hint : Nat
  rdata : Word
  deriving DecidableEq, Repr

/-- A CsrRsp. -/
def CsrAns.msg (a : CsrAns) (t : Txid) : Msg :=
  .csrRsp (BitVec.ofNat 4 a.status) (BitVec.ofNat 16 a.hint) t a.rdata

/-- A parity error in the crossbar: cause 0x02, and STATUS 15 for the request it hits, which has no effect (R110, R521). -/
def State.xbarParity (s : State) : State × CsrAns :=
  (({ s with sys.csr := { s.sys.csr with xbarBad := false } } : State).record (occ bGBL Cause.gbl_XBAR_PARITY), ⟨15, 0, 0⟩)

/-- What the crossbar does with a request, and its answer; `eff` is the access itself. -/
def State.crossbar (s : State) (r : CsrReq) (eff : State → State × CsrAns) : State × CsrAns :=
  if s.sys.csr.mcDown then (s, ⟨9, 1000, 0⟩)
  else if s.overLimit r then (s, ⟨9, 10, 0⟩)
  else if s.sys.csr.xbarBad then s.xbarParity
  else if !s.csrAllowed r then (s.incFld F.GBL_CSRCNT_DENIED, ⟨6, 0, 0⟩)
  else
    let s := s.incFld F.GBL_CSRCNT_SERVED
    let a := r.addr.toNat
    if mirrorsZero a ∨ s.bankAway a then (s, ⟨0, 0, 0⟩)
    else
      match regAt a with
      | none => (s, ⟨5, 0, 0⟩)
      | some d =>
        if s.locked ∧ r.write ∧ !lockWritable d then (s, ⟨0, 0, 0⟩)
        else
          let (s', v) := eff s
          (if s.dataUp && s'.dataUp then s.after s' else s', v)

/-- The answer that the management cache holds for a request (R514). -/
def State.cached (s : State) (ip : BitVec 32) (port : BitVec 16) (t : Txid) : Option CsrKept :=
  s.sys.csr.kept.find? fun e => e.ip = ip && e.port = port && e.txid = t && decide (s.now ≤ e.time + 1000000000)

/-- Keeps an answer in the management cache: the last 256 of each source, for 1 s (R514). -/
def State.keepAnswer (s : State) (ip : BitVec 32) (port : BitVec 16) (t : Txid) (m : Msg) : State :=
  let live := s.sys.csr.kept.filter fun e => decide (s.now ≤ e.time + 1000000000) && !(e.ip = ip && e.port = port && e.txid = t)
  let mine := live.filter fun e => e.ip = ip && e.port = port
  let live := if mine.length < 256 then live else (match mine with
    | e :: _ => live.erase e
    | [] => live)
  { s with sys.csr.kept := live ++ [⟨ip, port, t, s.now, m⟩] }

/-- One request of a management source, with its answer (R513, R514); a restart that the request itself starts leaves
the answer owed (R517). -/
def State.mgmtOne (s : State) (ip : BitVec 32) (port : BitVec 16) (t : Txid) (r : CsrReq)
    (eff : State → State × CsrAns) : State × Msg :=
  match s.cached ip port t with
  | some e => (s.incFld F.GBL_CSRCNT_DUPS, e.rsp)
  | none =>
    let (s', a) := s.crossbar r eff
    let m := a.msg t
    if a.status = 9 ∨ s'.sys.csr.mcDown ∨ s'.sys.csr.resets ≠ s.sys.csr.resets then (s', m)
    else (s'.keepAnswer ip port t m, m)

/-- The management datagram that holds these answers (R512). -/
def mgtBytes (l : List Msg) : List Byte :=
  [1, BitVec.ofNat 8 l.length] ++ List.replicate 6 0 ++ l.flatMap Msg.bytes

/-- Sends a datagram from the management port. -/
def State.sendMgt (s : State) (o : MgtOut) : State := { s with sys.mgtOut := s.sys.mgtOut ++ [o] }

/-- Answers a management source, once the management core runs (R517); nothing after a reset has cleared the crossbar. -/
def State.answerMgt (s : State) (resets : Nat) (o : MgtOut) : State :=
  if s.sys.csr.resets ≠ resets ∨ !s.mgtUp then s else s.sendMgt o

/-- Leaves an answer to be sent when the management core is back, if the request itself took it down (R517). -/
def State.answerLater (s0 s : State) (o : MgtOut) : State :=
  if s.sys.csr.mcDown ∧ !s0.sys.csr.mcDown ∧ s.sys.csr.resets = s0.sys.csr.resets then
    { s with sys.csr.owedMgt := s.sys.csr.owedMgt ++ [o] }
  else s.answerMgt s0.sys.csr.resets o

/-- Sends a CsrRsp on a connection (R108). -/
def State.answerBand (s0 s : State) (k : Nat) (t : Txid) (m : Msg) : State :=
  if s.sys.csr.mcDown ∧ !s0.sys.csr.mcDown ∧ s.sys.csr.resets = s0.sys.csr.resets then
    { s with sys.csr.owed := s.sys.csr.owed ++ [(.inband (BitVec.ofNat 16 k) t, m)] }
  else s.queueMsg k ⟨m, none, false⟩

/-- A request can reach the crossbar: on a connection that runs, in its turn among the messages of its class or as one past
the limit, or over the management port (R29, R101, R510, R515, R518). -/
def State.reaches (s : State) (r : CsrReq) : Bool :=
  match r.src with
  | .inband k t =>
    s.csrUp && !s.locked && s.runs k.toNat && (s.conn k.toNat).isSome && (s.inTurn k.toNat 0 (r.is t) || s.overLimit r)
  | .mgmt _ _ _ => s.csrUp

/-- One CSR request from its arrival to its answer; `eff` is the access itself. -/
def State.csrDo (s : State) (r : CsrReq) (eff : State → State × CsrAns) : State :=
  if !s.reaches r then s
  else
    match r.src with
    | .inband k t =>
      let (s1, a) := s.crossbar r eff
      s.answerBand (s1.takeMsg k.toNat 0 (r.is t)) k.toNat t (a.msg t)
    | .mgmt ip port t =>
      let (s1, m) := s.mgmtOne ip port t r eff
      s.answerLater s1 ⟨ip, port, mgtBytes [m]⟩

/-- A write of a register as a request. -/
def writeReq (src : CsrSrc) (addr : Nat) (w : Word) : CsrReq := ⟨src, true, BitVec.ofNat 32 addr, some w⟩

/-- A read of a register as a request. -/
def readReq (src : CsrSrc) (addr : Nat) : CsrReq := ⟨src, false, BitVec.ofNat 32 addr, none⟩

/-- A CSR write with its stored part and its action. -/
def State.csrPut (s : State) (src : CsrSrc) (addr : Nat) (w : Word) (act : State → State) : State :=
  s.csrDo (writeReq src addr w) fun s =>
    match regAt addr with
    | some d => (act (s.storeReg d addr w), ⟨0, 0, 0⟩)
    | none => (s, ⟨0, 0, 0⟩)

/-- A CSR read whose value `f` gives. -/
def State.csrGet (s : State) (src : CsrSrc) (addr : Nat) (f : State → State × Word) : State :=
  s.csrDo (readReq src addr) fun s =>
    let (s, v) := f s
    (s, ⟨0, 0, v⟩)

/-- A CSR write that is this command only where `trig` holds of the word written. -/
def State.csrTrig (s : State) (src : CsrSrc) (addr : Nat) (w : Word) (trig : Bool) (act : State → State) : State :=
  if trig then s.csrPut src addr w act else s

/-- Bits of a written word. -/
def wbits (w : Word) (lo n : Nat) : Nat := bitsOf w.toNat lo n

/-- One bit of a written word. -/
def wbit (w : Word) (i : Nat) : Bool := w.getLsbD i

/-- Records a fault of the redundancy domain `dom`: a second one within the recovery time `span` of the first is one
step more severe (R434). -/
def State.recordDom (s : State) (dom span : Nat) (o : Occ) : State :=
  let esc := match tget s.sys.recov dom with
    | some t => decide (s.now < t)
    | none => false
  { s with sys.recov := tput s.sys.recov dom (s.now + span) }.record { o with esc := esc }

end Sys2Proof.Machine
end

