-- ==== Sys2Proof/Machine/Faults.lean ====
section
/-! DEFINITION. Fault registers and the notice queue (R427 to R431, R436 to R444, R447). -/

namespace Sys2Proof.Machine

/-- MAXSEV returns to 0 in the cycle in which CAUSE becomes all 0 (R427). -/
def State.lowerMax (s : State) (base : Nat) : State :=
  if s.reg (base + 0xf00) = 0 then s.setFld (F.BLK_FLTOVF_MAXSEV base) 0 else s

/-- A W1C write of FLTSTS (R8, R427); the store has cleared the bits. -/
def State.wrFltsts (s : State) (block : Nat) : State := s.lowerMax (block * 0x10000)

/-- A W1C write of FLTFIRST: V clears the whole register (R426). -/
def State.wrFltfirst (s : State) (block : Nat) (w : Word) : State :=
  if wbit w 0 then s.setReg (block * 0x10000 + 0xf08) 0 else s

/-- A W1C write of FLTOVF: OVF clears OVF and COUNT (R426). -/
def State.wrFltovf (s : State) (block : Nat) (w : Word) : State :=
  let base := block * 0x10000
  if wbit w 0 then (s.setFld (F.BLK_FLTOVF_OVF base) 0).setFld (F.BLK_FLTOVF_COUNT base) 0 else s

/-- The address of one of a block's three fault registers. -/
def fltAddr (block : BitVec 16) (off : Nat) : Nat := block.toNat * 0x10000 + off

def execCauseClear (src : CsrSrc) (block : BitVec 16) (wdata : Word) (s : State) : Host.Outcome State Fault Refusal :=
  if !faultBlocks.contains block.toNat then .fault .noSuchUnit
  else .next (s.csrPut src (fltAddr block 0xf00) wdata fun s => s.wrFltsts block.toNat)

def execFltfirstClear (src : CsrSrc) (block : BitVec 16) (wdata : Word) (s : State) : Host.Outcome State Fault Refusal :=
  if !faultBlocks.contains block.toNat then .fault .noSuchUnit
  else .next (s.csrTrig src (fltAddr block 0xf08) wdata (wbit wdata 0) fun s => s.wrFltfirst block.toNat wdata)

def execFltovfClear (src : CsrSrc) (block : BitVec 16) (wdata : Word) (s : State) : Host.Outcome State Fault Refusal :=
  if !faultBlocks.contains block.toNat then .fault .noSuchUnit
  else .next (s.csrTrig src (fltAddr block 0xf10) wdata (wbit wdata 0) fun s => s.wrFltovf block.toNat wdata)

def execHoldoffExpiry (block : BitVec 16) (code : BitVec 8) (s : State) : Host.Outcome State Fault Refusal :=
  .next (s.endHoldoff (pairKey block.toNat code.toNat))

/-- Notice `a` is delivered before `b` (R438). -/
def popBefore (a b : Notice) : Bool :=
  decide (b.sev < a.sev) || (decide (a.sev = b.sev) && decide (a.nseq < b.nseq))

/-- The pending notice that comes first (R438). -/
def firstPending (l : List QEntry) : Option Notice :=
  l.foldl (fun best e =>
    if e.dseq.isSome then best
    else match best with
      | none => some e.note
      | some b => if popBefore e.note b then some e.note else best) none

/-- A notice as its 32 bytes (R437). -/
def Notice.word (n : Notice) (i : Nat) : Word :=
  BitVec.ofNat 64 <|
    match i with
    | 0 => n.time
    | 1 => n.sev % 8 + b2n n.esc * 2 ^ 3 + b2n n.first * 2 ^ 4 + b2n n.redeliv * 2 ^ 5 + b2n n.restored * 2 ^ 6
        + n.code % 2 ^ 8 * 2 ^ 8 + n.block % 2 ^ 16 * 2 ^ 16 + n.txid % 2 ^ 16 * 2 ^ 32 + n.tenant % 2 ^ 12 * 2 ^ 48
        + b2n n.tv * 2 ^ 60
    | 2 => n.obj % 2 ^ 52 + n.okind % 16 * 2 ^ 52
    | _ => n.nseq % 2 ^ 32 + n.count % 2 ^ 16 * 2 ^ 32

/-- Gives a pending notice a delivery number. -/
def deliverEntry (n : Notice) (d : Nat) : List QEntry → List QEntry
  | [] => []
  | e :: l => if e.dseq = none ∧ e.note = n then ⟨n, some d⟩ :: l else e :: deliverEntry n d l

/-- A queue entry whose parity is wrong is freed: NTQ cause 0x02 (R448; no command of the model sets `bad`, log 54). -/
def State.ntqParity (s : State) : State :=
  let bad := s.ntq.bad.filter fun n => s.ntq.entries.any fun e => e.note.nseq = n
  let s := { s with ntq.bad := [], ntq.entries := s.ntq.entries.filter fun e => !bad.contains e.note.nseq }
  if bad.isEmpty then s else bad.foldl (fun s _ => s.record (occ bNTQ Cause.ntq_ENTRY_PARITY)) s.postOverrun

/-- A read of NTQ_POP (R438). -/
def State.ntqPop (s0 : State) : State × Word :=
  let s := s0.ntqParity
  match firstPending s.ntq.entries with
  | none => (s, 0)
  | some n =>
    let d := s.ntq.dseq % 2 ^ 32
    let s := { s with
      ntq.entries := deliverEntry n d s.ntq.entries
      ntq.dseq := s.ntq.dseq + 1 }
    ((upto 4).foldl (fun s i => s.setReg (F.NTQ_NREC i).key (n.word i)) s, BitVec.ofNat 64 (2 ^ 32 + d))

def execNtqPop (src : CsrSrc) (s : State) : Host.Outcome State Fault Refusal :=
  .next (s.csrGet src F.NTQ_POP.key State.ntqPop)

/-- `a` is `b` or precedes it, modulo 2^32 (R441). -/
def dseqUpTo (a b : Nat) : Bool := decide ((b + 2 ^ 32 - a) % 2 ^ 32 < 2 ^ 31)

/-- The delivery number `d` has been given out since the last clearing (R441). -/
def NoticeQ.delivered (q : NoticeQ) (d : Nat) : Bool :=
  decide (0 < q.dseq) && dseqUpTo d ((q.dseq - 1) % 2 ^ 32) && (decide (d < q.dseq) || decide (2 ^ 31 ≤ q.dseq))

/-- A write of NTQ_RELEASE (R441, R442). -/
def State.ntqRelease (s : State) (w : Word) : State :=
  let d := wbits w 0 32
  if !wbit w 32 then s
  else if !s.ntq.delivered d then s.setFld F.NTQ_STS_RLREFUSED 1
  else
    let goes (e : QEntry) : Bool := match e.dseq with
      | some k => dseqUpTo k d
      | none => false
    let pastMark := match s.ntq.mark with
      | some m => s.ntq.entries.any fun e => goes e && (match e.dseq with
        | some k => dseqUpTo m k
        | none => false)
      | none => false
    { s with
      ntq.entries := s.ntq.entries.filter fun e => !goes e
      ntq.mark := if pastMark then none else s.ntq.mark }.postOverrun

def execNtqRelease (src : CsrSrc) (wdata : Word) (s : State) : Host.Outcome State Fault Refusal :=
  .next (s.csrTrig src F.NTQ_RELEASE.key wdata (wbit wdata 32) fun s => s.ntqRelease wdata)

/-- NTQ_CTL.MARK (R442). -/
def State.ntqMark (s : State) : State :=
  { s with ntq.mark := some (s.ntq.dseq % 2 ^ 32) }.setFld F.NTQ_STS_M s.ntq.dseq

/-- NTQ_CTL.REWIND (R442). -/
def State.ntqRewind (s : State) : State :=
  match s.ntq.mark with
  | none => s.setFld F.NTQ_STS_RWREFUSED 1
  | some m =>
    let back (e : QEntry) : QEntry := match e.dseq with
      | some k => if dseqUpTo m k then ⟨{ e.note with redeliv := true }, none⟩ else e
      | none => e
    { s with ntq.entries := s.ntq.entries.map back }

/-- A write of NTQ_CTL (R442). One with MARK and REWIND sets the mark first (log 190, DEDUCED). -/
def State.ntqCtl (s : State) (w : Word) : State :=
  let s := if wbit w 0 then s.ntqMark else s
  if wbit w 1 then s.ntqRewind else s

def execMark (src : CsrSrc) (wdata : Word) (s : State) : Host.Outcome State Fault Refusal :=
  .next (s.csrTrig src F.NTQ_CTL.key wdata (wbit wdata 0) fun s => s.ntqCtl wdata)

def execRewind (src : CsrSrc) (wdata : Word) (s : State) : Host.Outcome State Fault Refusal :=
  .next (s.csrTrig src F.NTQ_CTL.key wdata (wbit wdata 1) fun s => s.ntqCtl wdata)

/-- A notice restored from a block's FLTFIRST (R444). -/
def State.restored (s : State) (block : Nat) : Notice :=
  let base := block * 0x10000
  { time := s.fld (F.BLK_FLTFIRST_TIME base) * 1024
    sev := s.fld (F.BLK_FLTFIRST_SEV base)
    esc := false, first := true, redeliv := false, restored := true
    code := s.fld (F.BLK_FLTFIRST_CODE base)
    block := block
    txid := s.fld (F.BLK_FLTFIRST_TXID base)
    tenant := 0, tv := false, obj := 0, okind := 0, nseq := 0, count := 1 }

/-- Clears the notice queue, and posts the notices restored from each block's first record (R444). -/
def State.clearNtq (s : State) : State :=
  let s := { s with ntq := ⟨[], 0, 0, none, 0, [], []⟩ }
  let s := (((s.setFld F.NTQ_STS_OVERRUN 0).setFld F.NTQ_STS_RLREFUSED 0).setFld F.NTQ_STS_RWREFUSED 0).setFld F.NTQ_STS_M 0
  faultBlocks.foldl (fun s b =>
    if s.bit (F.BLK_FLTFIRST_V (b * 0x10000)) then s.postNotice (s.restored b) else s) s

end Sys2Proof.Machine
end

