-- ==== Sys2Proof/Machine/TrnCmd.lean ====
section
/-! DEFINITION. The commands of translation: assignment, invalidation and the extent table (R56, R67 to R73). -/

namespace Sys2Proof.Machine

/-- A write of TRN_ASSIGN with GO that finds this operation in ARG0. -/
def State.assignCmd (s : State) (src : CsrSrc) (w : Word) (op : Nat) : State :=
  s.csrTrig src F.TRN_ASSIGN.key w (wbit w 0 && decide (s.fld F.TRN_ASSIGN_ARG0_OP = op)) fun s => s.wrAssign w

def execTrnAssignAssign (src : CsrSrc) (wdata : Word) (s : State) : Host.Outcome State Fault Refusal :=
  .next (s.assignCmd src wdata 0)

def execTrnAssignReassign (src : CsrSrc) (wdata : Word) (s : State) : Host.Outcome State Fault Refusal :=
  .next (s.assignCmd src wdata 1)

def execTrnAssignRelease (src : CsrSrc) (wdata : Word) (s : State) : Host.Outcome State Fault Refusal :=
  .next (s.assignCmd src wdata 2)

def execAssignDone (s : State) : Host.Outcome State Fault Refusal := .next (s.act State.assignDone)

/-- Removes cached translations that `f` accepts, by tenant and extent (R71). -/
def State.dropCached (s : State) (f : Nat → Nat → Bool) : State :=
  let hit (k : Nat) : Bool := f (k / 2 ^ 31 % 4096) (k % 2 ^ 31)
  { s with
    mem.xcache := s.mem.xcache.filter fun e => !hit e.1
    mem.xcacheBad := s.mem.xcacheBad.filter fun k => !hit k }

/-- A write of TRN_INV (R71, R73). DESIGN CHOICE (log 176): one with the reserved SCOPE 3 is ignored whole; it leaves REFUSED as
it is, while BUSY too. -/
def State.wrInv (s : State) (w : Word) : State :=
  let scope := wbits w 0 2
  let t := wbits w 2 12
  let start := s.fld F.TRN_INV_RANGE_START
  let count := s.fld F.TRN_INV_RANGE_COUNT
  if scope = 3 then s
  else if s.bit F.TRN_INV_STS_BUSY then s.setFld F.TRN_INV_STS_REFUSED 1
  else
    (s.dropCached fun u ext =>
      decide (scope = 2) || (decide (u = t) && (decide (scope = 1)
        || (decide (start ≤ ext) && (decide (count = 0) || decide (ext < start + count)))))).setFld F.TRN_INV_STS_BUSY 1

/-- A write of TRN_INV with this scope. -/
def State.invCmd (s : State) (src : CsrSrc) (w : Word) (scope : Nat) : State :=
  s.csrTrig src F.TRN_INV.key w (decide (wbits w 0 2 = scope)) fun s => s.wrInv w

def execTrnInvTenantRange (src : CsrSrc) (wdata : Word) (s : State) : Host.Outcome State Fault Refusal :=
  .next (s.invCmd src wdata 0)

def execTrnInvTenant (src : CsrSrc) (wdata : Word) (s : State) : Host.Outcome State Fault Refusal :=
  .next (s.invCmd src wdata 1)

def execTrnInvAll (src : CsrSrc) (wdata : Word) (s : State) : Host.Outcome State Fault Refusal :=
  .next (s.invCmd src wdata 2)

/-- An invalidation completes (R71). -/
def execTrnInvDone (s : State) : Host.Outcome State Fault Refusal := .next (s.setFld F.TRN_INV_STS_BUSY 0)

/-- AINC advances OFF after each access of TRN_ET_DATA. -/
def State.etNext (s : State) : State := if s.bit F.TRN_ET_ADDR_AINC then s.incFld F.TRN_ET_ADDR_OFF else s

/-- A write of TRN_ET_DATA (R55, R56): the slot table and what lies past the region are not written. -/
def State.wrEtData (s : State) (w : Word) : State :=
  let off := s.fld F.TRN_ET_ADDR_OFF
  (if s.slotCount ≤ off ∧ off < s.etrBytes / 8 then s.setSlot off w else s).etNext

/-- A read of TRN_ET_DATA (R73, R110): an entry that cannot be read is answered with INTERNAL. -/
def State.rdEtData (s : State) : State × CsrAns :=
  let off := s.fld F.TRN_ET_ADDR_OFF
  if s.etrBytes / 8 ≤ off then (s.etNext, ⟨0, 0, 0⟩)
  else if s.mem.etrBad.contains off then
    ((s.record (if off < s.slotCount then occObj bTRN Cause.trn_SLOT_UNCORR 5 off
      else occ bTRN Cause.trn_ET_UNCORR)).etNext, ⟨15, 0, 0⟩)
  else (s.etNext, ⟨0, 0, s.slotEntry off⟩)

def execTrnEtDataWrite (src : CsrSrc) (wdata : Word) (s : State) : Host.Outcome State Fault Refusal :=
  .next (s.csrDo (writeReq src F.TRN_ET_DATA.key wdata) fun s => (s.wrEtData wdata, ⟨0, 0, 0⟩))

def execTrnEtDataRead (src : CsrSrc) (s : State) : Host.Outcome State Fault Refusal :=
  .next (s.csrDo (readReq src F.TRN_ET_DATA.key) State.rdEtData)

end Sys2Proof.Machine
end

