-- ==== Sys2Proof/Machine/MemCmd.lean ====
section
/-! DEFINITION. The commands of the channels and of on-chip parity (R223, R237, R346, R349 to R362). -/

namespace Sys2Proof.Machine

/-- SOURCE of ECC_UELOG0 (R352). -/
def sourceCode : ReadSource → Nat
  | .demand => srcDemand
  | .rmw => srcRmw
  | .patrol => srcPatrol
  | .migration => srcMigration
  | .lender => srcLender
  | .replica => srcReplica
  | .region => srcRegion

/-- The hot page whose frame this is, if any. -/
def State.hotPageOf (s : State) (f : Nat) : Option Nat :=
  (s.mem.tmap.find? fun e => decide (dTier e.2 = tierHOT) && decide (dFrame e.2 = f)).map (·.1)

/-- The warm segments with a body unit at this unit of a bin. -/
def State.segmentsAt (s : State) (f unit : Nat) : List (Nat × Nat) :=
  (s.mem.tmap.filter fun e => decide (dTier e.2 = tierWARM) && decide (dFrame e.2 = f)).flatMap fun e =>
    ((upto 4).filter fun k => decide (segStart e.2 k ≤ unit) && decide (unit < segStart e.2 k + bodyUnits (dLen e.2 k))).map
      fun k => (e.1, k)

/-- A frame-table entry that cannot be read: the frame is withdrawn, which may take its die below LOW (R293, R304). -/
def State.withdraw (s : State) (f : Nat) : State :=
  ((s.setFtab f (bfSet (s.ftabAt f) 30 1 1)).record (occObj bTIER Cause.tier_FTBL_UNCORR 6 f)).watchFree (frameDie f)

/-- An age-table entry that cannot be read is rewritten (R304). -/
def State.renewAge (s : State) (pk : Nat) : State :=
  (s.setAge pk s.epoch s.epoch).record (occ bTIER Cause.tier_AGE_UNCORR)

/-- An uncorrectable line of a reserved region: every entry in it is lost (R74, R304, R352). Which line of the reserved space
a line of a reserved frame holds is the free value Config.regionLine; what a line of a region holds follows R49, R50, R55,
R272, R376 and R409. -/
def State.regionBad (s : State) (f line : Nat) : State :=
  let (r, i) := regionAt s.regionSizes (64 * Config.regionLine f line % s.reservedBytes)
  let run (n : Nat) : List Nat := (upto n).map fun j => i / 64 * n + j
  match r with
  | .tierMap => { s with mem.tmapBad := run 2 ++ s.mem.tmapBad }
  | .frameTable => (run 8).foldl (fun s f => s.withdraw f) s
  | .ageTable => (run 16).foldl (fun s pk => s.renewAge pk) s
  | .translation => { s with mem.etrBad := run 8 ++ s.mem.etrBad }
  | .keyStore => { s with mem.keyStoreBad := i / 80 :: (if i / 80 = (i + 63) / 80 then [] else [(i + 63) / 80]) ++ s.mem.keyStoreBad }
  | .ledger => { s with meter.bad := (4096 + i / 128) :: s.meter.bad }
  | .checkpoints => { s with meter.bad := i / 128 :: s.meter.bad }
  | .other => s

/-- The result of an uncorrectable read, by what was read (R352). -/
def State.ueResult (s : State) (f line : Nat) (source : ReadSource) : State :=
  match source with
  | .patrol => s
  | .lender => s
  | .region => s.regionBad f line
  | .replica =>
    match s.mem.replicas.find? fun r => r.frame = f with
    | some r => (s.dropReplica r.pa).recordPa (occObj bDIR Cause.dir_REPLICA_DROP 1 r.pa)
    | none => s
  | _ =>
    match s.hotPageOf f with
    | some pk =>
      let s := if source = .rmw then
          { s with mem.merge := s.mem.merge.filter fun e => decide (e.line ≠ (s.pagePa pk + 64 * line) / 64) }
        else s
      s.poisonBit pk line
    | none => (s.segmentsAt f line).foldl (fun s e => s.poisonSeg e.1 e.2) s

/-- A stored line acquires an error pattern and is read (R342, R350 to R352). -/
def State.lineReturn (s : State) (f line : Nat) (source : ReadSource) (err : BitVec 640) : State :=
  let key := f * 64 + line
  let s := { s with mem.dramErr := sput (fun _ => 0) s.mem.dramErr key (sget (fun _ => 0) s.mem.dramErr key ^^^ err) }
  match s.readRaw nobody f line (sourceCode source) with
  | (s, .bad) => s.ueResult f line source
  | (s, _) => s

def execLineReadReturn (frame : Nat) (line : Nat) (source : ReadSource) (err : BitVec 640) (s : State) :
    Host.Outcome State Fault Refusal :=
  if 64 ≤ line ∨ s.chanFrames (frameChan frame) ≤ frame / 24 then .fault .noSuchUnit
  else .next (s.act fun s => s.lineReturn frame line source err)

/-- A merge entry's 250 ns have passed (R346). -/
def State.mergeClose (s : State) (group line : Nat) : State :=
  match s.mergeOf line with
  | some e => if e.group = group ∧ e.since + 250 ≤ s.now then s.closeLine line else s
  | none => s

def execMergeEntryClose (group : Nat) (line : Nat) (s : State) : Host.Outcome State Fault Refusal :=
  .next (s.act fun s => s.mergeClose group line)

/-- A frame lies in the scope of the patrol (R349). -/
def State.patrolled (s : State) (f : Nat) : Bool :=
  s.chReady (frameChan f) && (decide (f / 24 < s.reservedLocal (frameChan f)) || decide (bfGet (s.ftabAt f) 0 2 ≠ fFREE))

/-- The first frame of the patrol's scope at or after `f`. -/
def State.nextPatrol (s : State) (f : Nat) : Option Nat :=
  match if f < 24 * s.reservedTop then (upto 24).find? fun i => s.patrolled (f + i) else none with
  | some i => some (f + i)
  | none => (s.mem.ftab.find? fun e => decide (f ≤ e.1) && s.patrolled e.1).map (·.1)

/-- A completed pass halves every device count (R355). -/
def State.endPatrol (s : State) : State :=
  { s with
    mem.patrolAt := 0
    mem.devCnt := (s.mem.devCnt.map fun (e : Nat × Nat) => (e.1, e.2 / 2)).filter fun (e : Nat × Nat) => e.2 ≠ 0 }.incFld F.ECC_SCRUBSTS_PASSES

/-- The patrol scrubber reads its next line (R349 to R351). -/
def State.patrol (s : State) : State :=
  if !s.bit F.ECC_SCRUB_EN then s
  else
    match s.nextPatrol (s.mem.patrolAt / 64) with
    | none => s.endPatrol
    | some f =>
      let line := if f = s.mem.patrolAt / 64 then s.mem.patrolAt % 64 else 0
      let s := (s.readRaw nobody f line srcPatrol).1
      let next := f * 64 + line + 1
      if (s.nextPatrol (next / 64)).isNone then s.endPatrol else { s with mem.patrolAt := next }

def execPatrolRead (s : State) : Host.Outcome State Fault Refusal := .next (s.act State.patrol)

/-- A byte of two's complement. -/
def byteOf (t : Int) : Nat := (t % 256).toNat

/-- The temperature read of a channel's DIMMs (R334, R362). -/
def State.dimmTemp (s : State) (c : Nat) (t : Int) : State :=
  let hot := decide (85 < t)
  let was := s.bit (F.MEM_STS_HOTREF c)
  let thr := s.bit (F.MEM_STS_THROTTLE c)
  let thr' := if 95 < t then true else if t < 90 then false else thr
  let s := s.setFld (F.MEM_STS_TEMP c) (byteOf t)
  let s := s.setFld (F.MEM_STS_HOTREF c) (b2n hot)
  let s := if hot ∧ !was then s.record (occ (bMEM c) Cause.mem_HOT_REFRESH) else s
  let s := s.setFld (F.MEM_STS_THROTTLE c) (b2n thr')
  if thr' ∧ !thr then s.record (occ (bMEM c) Cause.mem_THROTTLE) else s

def execDimmTempRead (channel : Nat) (temp : Int) (s : State) : Host.Outcome State Fault Refusal :=
  if 24 ≤ channel then .fault .noSuchUnit else .next (s.dimmTemp channel temp)

/-- The frame that a merge entry's line is stored in. -/
def State.mergeFrame (s : State) (e : MergeEntry) : Option Nat :=
  (s.slotHolding (64 * e.line)).map fun slot => dFrame (s.desc (pageIdx slot (64 * e.line)))

/-- A channel halts (R354): its open merge entries close and poison their lines, and its die has fewer free frames (R293). -/
def State.haltChan (s : State) (c : Nat) : State :=
  let s := ((s.setFld (F.MEM_STS_READY c) 0).setFld (F.MEM_STS_LEFTOUT c) 1).setFld (F.MEM_STS_REASON c) 5
  let s := s.record (occ (bMEM c) Cause.mem_CHAN_HALT)
  let s := s.closeMerges fun e => (match s.mergeFrame e with
    | some f => decide (frameChan f = c)
    | none => false)
  s.watchFree (chanDie c)

def execChanHalt (channel : Nat) (s : State) : Host.Outcome State Fault Refusal :=
  if 24 ≤ channel then .fault .noSuchUnit
  else .next (s.act fun s => if s.chReady channel then s.haltChan channel else s)

/-- A W1C write of MEM_RETIRE returns devices to service (R357). -/
def execMemRetireClear (src : CsrSrc) (channel : Nat) (wdata : Word) (s : State) : Host.Outcome State Fault Refusal :=
  if 24 ≤ channel then .fault .noSuchUnit
  else .next (s.csrTrig src (F.MEM_RETIRE channel).key wdata (wdata &&& 0x8421084210 != 0) id)

/-- A write of MEM_FLIPCTL (R360). -/
def execMemFlipctl (src : CsrSrc) (channel : Nat) (wdata : Word) (s : State) : Host.Outcome State Fault Refusal :=
  if 24 ≤ channel then .fault .noSuchUnit
  else .next (s.csrPut src (F.MEM_FLIPCTL channel).key wdata id)

/-- A write of ECC_PFLIP (R359). -/
def execEccPflip (src : CsrSrc) (wdata : Word) (s : State) : Host.Outcome State Fault Refusal :=
  .next (s.csrPut src F.ECC_PFLIP.key wdata id)

/-- A write of DIR_PFLIP (R237). -/
def execDirPflip (src : CsrSrc) (wdata : Word) (s : State) : Host.Outcome State Fault Refusal :=
  .next (s.csrPut src F.DIR_PFLIP.key wdata id)

/-- DIR_BLIND.CLR: every blinded way is FREE and in service (R223). -/
def State.wrBlind (s : State) (w : Word) : State :=
  if wbit w 8 then { s with home.blind := [] }.setFld F.DIR_BLIND_COUNT 0 else s

def execDirBlindClr (src : CsrSrc) (wdata : Word) (s : State) : Host.Outcome State Fault Refusal :=
  .next (s.csrTrig src F.DIR_BLIND.key wdata (wbit wdata 8) fun s => s.wrBlind wdata)

end Sys2Proof.Machine
end

