-- ==== Sys2Proof/Machine/TierCmd.lean ====
section
/-! DEFINITION. The commands of the tier engine (R277, R279, R281, R282, R288 to R291, R318). -/

namespace Sys2Proof.Machine

/-- The scan's next descriptor, and what the module then asks of its lender (R277, R296). -/
def execScan (s : State) : Host.Outcome State Fault Refusal := .next (s.act fun s => s.scan.askLender)

def execHeatEpoch (s : State) : Host.Outcome State Fault Refusal := .next (s.act State.heatEpoch)

/-- A migration's copy completes within its 4 µs (R281, R282). -/
def execMigrationComplete (page : Nat) (s : State) : Host.Outcome State Fault Refusal :=
  .next (s.act fun s => s.completeMig page)

/-- A migration whose 4 µs have run out is abandoned (R282). -/
def State.migTimeout (s : State) (page : Nat) : State :=
  match s.migOf page with
  | some m => if m.since + 4000 ≤ s.now then s.abandonMig page else s
  | none => s

def execMigAbandon (page : Nat) (s : State) : Host.Outcome State Fault Refusal := .next (s.act fun s => s.migTimeout page)

/-- A DIRTY segment is stored when it is due (R288, R289, R291). -/
def State.storeSeg (s : State) (page seg : Nat) : State :=
  let ppa := s.pagePa page
  let die := pageDie page
  let no := (ppa + 1024 * seg) / 1024
  match s.segEntry die no with
  | some (_, e) => if s.isWarm page ∧ s.storeDue die no e then s.storeSegment page seg else s
  | none => s

def execSegmentStore (page : Nat) (seg : Nat) (s : State) : Host.Outcome State Fault Refusal :=
  if 4 ≤ seg then .fault .noSuchUnit else .next (s.act fun s => s.storeSeg page seg)

/-- A fill of a segment that is not in the cache (R290, R291, R318); a poisoned segment is not filled. -/
def State.fillSeg (s : State) (page seg : Nat) : State :=
  let ppa := s.pagePa page
  let no := (ppa + 1024 * seg) / 1024
  if !s.isWarm page ∨ s.segLost page seg ∨ (s.segEntry (pageDie page) no).isSome then s
  else (s.demandFill ⟨0, some (dOwner (s.desc page)), ppa + 1024 * seg⟩ page ppa seg).1

def execSegmentFill (page : Nat) (seg : Nat) (s : State) : Host.Outcome State Fault Refusal :=
  if 4 ≤ seg then .fault .noSuchUnit else .next (s.act fun s => s.fillSeg page seg)

end Sys2Proof.Machine
end

