-- ==== Sys2Proof/Machine/CmpCmd.lean ====
section
/-! DEFINITION. The test decoder and parity injection of the compression engines (R328, R331). -/

namespace Sys2Proof.Machine

/-- The bytes of CMP_TIN. -/
def State.testIn (s : State) : List Byte := (upto 256).flatMap fun j => leBytes 8 (s.reg (F.CMP_TIN j).key).toNat

/-- The segment in CMP_TOUT. -/
def State.testOut (s : State) : BitVec 8192 :=
  BitVec.ofNat 8192 (leNat ((upto 128).flatMap fun j => leBytes 8 (s.reg (F.CMP_TOUT j).key).toNat))

/-- Writes bytes to consecutive registers, from the one with key `k`. -/
def State.putBytes (s : State) (k : Nat) (l : List Byte) : State :=
  (upto ((l.length + 7) / 8)).foldl (fun s j => s.setReg (k + 8 * j) (BitVec.ofNat 64 (bytesAt l (8 * j) 8))) s

/-- A write of CMP_TCTL with GO (R331). -/
def State.startTest (s : State) (w : Word) : State :=
  if s.bit F.CMP_TCTL_BUSY then s.setFld F.CMP_TCTL_REFUSED 1
  else
    { s with sys.test := some (wbits w 1 1, wbits w 2 1) }.setReg F.CMP_TCTL.key
      (((w &&& 6) ||| 8) ||| (s.reg F.CMP_TCTL.key &&& ~~~(w &&& 0x40000000) &&& 0x7FFFFFF0))

/-- A write of CMP_TCTL: one with GO while BUSY is ignored. -/
def State.wrTctl (s : State) (w : Word) : State :=
  if wbit w 0 then s.startTest w
  else s.setReg F.CMP_TCTL.key (((s.reg F.CMP_TCTL.key &&& ~~~(6 : Word)) ||| (w &&& 6)) &&& ~~~(w &&& 0x40000000))

/-- A write of CMP_TCTL with GO that names this operation. -/
def State.testCmd (s : State) (src : CsrSrc) (w : Word) (op : Nat) : State :=
  if wbit w 0 ∧ wbits w 1 1 = op then
    s.csrDo (writeReq src F.CMP_TCTL.key w) fun s => (s.wrTctl w, ⟨0, 0, 0⟩)
  else s

def execCmpTestDecode (src : CsrSrc) (wdata : Word) (s : State) : Host.Outcome State Fault Refusal :=
  .next (s.testCmd src wdata 0)

def execCmpTestCompress (src : CsrSrc) (wdata : Word) (s : State) : Host.Outcome State Fault Refusal :=
  .next (s.testCmd src wdata 1)

/-- An armed parity flip of the engine that runs the test is used up; the test is run again and records nothing (R328,
R331). -/
def State.testFlip (s : State) (die kind : Nat) : State :=
  let (e, s) := s.pickEngine (s.enginesUp die kind)
  (s.engineFails die kind e).2

/-- Ends a test with its RESULT. -/
def State.endTest (s : State) (result : Nat) : State :=
  ({ s with sys.test := none }.setFld F.CMP_TCTL_BUSY 0).setFld F.CMP_TCTL_RESULT result

/-- Decodes CMP_TIN as CMP_TDESC describes it: LEN bounds an LZ body only (R314, R331). -/
def State.testDecode (s : State) (die : Nat) : State :=
  let s := s.testFlip die 0
  let type := s.fld F.CMP_TDESC_TYPE
  let len := s.fld F.CMP_TDESC_LEN
  let body := if type = tLZ then s.testIn.take len else s.testIn.take 1024
  let r := expandBody type body (s.fld F.CMP_TDESC_CHK)
  let pos := if type = tLZ then r.inPos else if type = tZERO then 0 else len
  let s := if r.code = 0 then s.putBytes (F.CMP_TOUT 0).key r.out else s
  (((s.endTest r.code).setFld F.CMP_TCTL_INPOS pos).setFld F.CMP_TCTL_OUTCNT r.outCnt)

/-- Compresses CMP_TOUT (R323, R325, R331). -/
def State.testCompress (s : State) (die : Nat) : State :=
  let s := s.testFlip die 1
  let p := compress s.testOut
  let s := s.putBytes (F.CMP_TIN 0).key p.body
  (((s.setFld F.CMP_TDESC_TYPE p.type).setFld F.CMP_TDESC_LEN p.len).setFld F.CMP_TDESC_CHK p.chk).endTest 0

/-- The test operation under way completes (R331). -/
def State.testDone (s : State) : State :=
  match s.sys.test with
  | none => s
  | some (op, die) =>
    if (if op = 0 then s.decUp die else s.compUp die) = 0 then s.endTest 6
    else if op = 0 then s.testDecode die else s.testCompress die

def execCmpTestDone (s : State) : Host.Outcome State Fault Refusal := .next (if s.dataUp then s.testDone else s)

/-- A write of CMP_PFLIP (R328). -/
def execCmpPflip (src : CsrSrc) (wdata : Word) (s : State) : Host.Outcome State Fault Refusal :=
  .next (s.csrPut src F.CMP_PFLIP.key wdata id)

end Sys2Proof.Machine
end

