-- ==== Sys2Proof/Machine/Meter.lean ====
section
/-! DEFINITION. Metering and the performance counters (R395 to R425). -/

namespace Sys2Proof.Machine

/-- The fabric runs: ACTIVE, RIDE-THROUGH or DRAIN, not in LOCK (R445, R462). -/
def State.fabUp (s : State) : Bool := s.dataUp || (!s.locked && decide (s.fld F.PMU_STATE_STATE = 3))

/-- The servo is LOCKED (R397). -/
def State.ptpLocked (s : State) : Bool := decide (s.fld F.MTR_PTPSTS_STATE = 2)

/-- This module holds the member role for a page's extent (R400). -/
def State.metersPage (s : State) (pk : Nat) : Bool :=
  (s.slotEntry (pk / 512)).getLsbD 0 && (match s.selfIdx false with
    | some i => decide (s.mapMember false (s.pagePa pk) = some i)
    | none => false)

/-- Adds a page's residency to its owner's accumulators (R400, R401). -/
def State.meterPage (s : State) (pk : Nat) (d : BitVec 256) : State :=
  if dTier d = tierZERO ∨ !s.metersPage pk then s
  else
    let add (a n : Nat) : Nat := (a + n) % 2 ^ 96
    let u := pageUnits d
    s.modTen (dOwner d) fun m =>
      if dTier d = tierHOT then { m with hot := add m.hot 64, changed := true }
      else if dTier d = tierWARM then { m with warm := add m.warm u, saved := add m.saved (64 - u), changed := true }
      else { m with remote := add m.remote 64, changed := true }

/-- The owners of the pages that add to residency here (R400, R406). -/
def State.residents (s : State) : List Nat :=
  ((s.mem.tmap.filter fun e => decide (dTier e.2 ≠ tierZERO) && s.metersPage e.1).map fun e => dOwner e.2).eraseDups

/-- Every tenant that is enabled or has residency here has a metering state (R406, R407). -/
def State.meterTenants (s : State) : State :=
  let begin_ (s : State) (t : Nat) : State := if (tget s.meter.tens t).isNone then s.modTen t id else s
  s.residents.foldl begin_ ((upto 4096).foldl (fun s t => if s.bit (F.TRN_TENANT_EN t) then begin_ s t else s) s)

/-- Marks what holds of the time that passes: the servo not LOCKED, RETENTION or STANDBY (R407). -/
def State.meterMarks (s : State) : State :=
  let st := s.fld F.PMU_STATE_STATE
  let hold := !s.ptpLocked
  let ret := decide (st = 4) || decide (st = 5)
  { s with meter.tens := s.meter.tens.map fun e =>
      (e.1, { e.2 with holdover := e.2.holdover || hold, retained := e.2.retained || ret }) }

/-- A record without its CRC (R407). -/
def recordBody (node tenant : Nat) (m : MtrTen) (endAt rseq : Nat) : Nat :=
  1 + 2 ^ 8 * b2n (decide (1 < m.span)) + 2 ^ 9 * b2n m.gap + 2 ^ 10 * b2n m.first + 2 ^ 11 * b2n m.holdover
    + 2 ^ 12 * b2n m.retained + 2 ^ 16 * tenant + 2 ^ 32 * node + 2 ^ 48 * min m.span 65535 + 2 ^ 64 * (m.start % 2 ^ 64)
    + 2 ^ 128 * (endAt % 2 ^ 64) + 2 ^ 192 * (rseq % 2 ^ 64) + 2 ^ 256 * m.hot + 2 ^ 352 * m.warm + 2 ^ 448 * m.remote
    + 2 ^ 544 * m.saved + 2 ^ 640 * m.rd + 2 ^ 704 * m.wr + 2 ^ 768 * m.at_

/-- A ledger record (R407). -/
def ledgerRecord (node tenant : Nat) (m : MtrTen) (endAt rseq : Nat) : BitVec 1024 :=
  let v := recordBody node tenant m endAt rseq
  BitVec.ofNat 1024 (v + 2 ^ 992 * (crc32c (leBytes 124 v)).toNat)

/-- The metering state that a checkpoint entry restores after a module reset (R413). -/
def tenOfRecord (r : BitVec 1024) : MtrTen :=
  let g (lo w : Nat) : Nat := bfGet r lo w
  ⟨g 256 96, g 352 96, g 448 96, g 544 96, g 640 64, g 704 64, g 768 64, g 128 64, 0, false, false, true, false, false, false, false⟩

/-- The accumulators of a tenant whose parity is wrong are reloaded from its checkpoint entry, with GAP on its next record: cause
0x04 (R413; no command of the model sets `bad`, log 54). -/
def State.reloadTens (s : State) : State :=
  ((s.meter.tens.filter fun e => e.2.bad).map (·.1)).foldl (fun s t =>
    let m : MtrTen := match s.meter.check.find? fun e => e.1 = t with
      | some e => if s.meter.bad.contains t then freshTen s.now else tenOfRecord e.2
      | none => { freshTen s.now with gap := true }
    let s := if s.meter.bad.contains t then s.record (occ bMTR Cause.mtr_LEDGER_UE) else s
    ({ s with meter.tens := tput s.meter.tens t m } : State).record { occ bMTR Cause.mtr_ACC_PARITY with tenant := some t }) s

/-- The ring holds 2,097,152 records (R410). -/
def ledgerSize : Nat := 2097152

/-- Free records of the ring (R410). -/
def State.ledgerFree (s : State) : Nat := ledgerSize - (s.fld F.MTR_PROD - s.fld F.MTR_CONS)

/-- Writes a tenant's record for the boundary `t` (R410). -/
def State.writeRecord (s : State) (t tenant : Nat) : State :=
  match tget s.meter.tens tenant with
  | none => s
  | some m =>
    let q := s.fld F.MTR_PROD
    let r := ledgerRecord s.node.toNat tenant m t q
    let s := { s with
      meter.ring := sput (fun _ => 0) s.meter.ring (q % ledgerSize) r
      meter.check := sput (fun _ => 0) s.meter.check tenant r
      meter.bad := s.meter.bad.filter fun i => decide (i ≠ tenant) && decide (i ≠ 4096 + q % ledgerSize)
      meter.tens := tput s.meter.tens tenant
        { m with start := t, span := 0, first := false, missed := false, gap := false, holdover := false
                 retained := false, changed := false } }
    (if 1 < m.span then s.incFld F.MTR_LSTS_MERGEDCNT else s).incFld F.MTR_PROD

/-- A tenant is active at a boundary (R406). -/
def State.meterActive (s : State) (e : Nat × MtrTen) : Bool :=
  s.bit (F.TRN_TENANT_EN e.1) || e.2.changed || s.residents.contains e.1

/-- Inserts a tenant by the START of its state, then by its ID (R411). -/
def insertByStart (e : Nat × MtrTen) : List (Nat × MtrTen) → List (Nat × MtrTen)
  | [] => [e]
  | a :: l => if e.2.start < a.2.start ∨ (e.2.start = a.2.start ∧ e.1 < a.1) then e :: a :: l else a :: insertByStart e l

/-- The active tenants in the order in which their records are written (R411). -/
def State.recordOrder (s : State) : List Nat :=
  let act := s.meter.tens.filter s.meterActive
  let missed := (act.filter fun e => e.2.missed).foldl (fun l e => insertByStart e l) []
  (missed ++ act.filter fun e => !e.2.missed).map (·.1)

/-- The boundary at the instant `t` (R405, R410, R411). One that falls while the fabric is stopped leaves every active tenant
without a record. -/
def State.snapshotAt (s : State) (t : Nat) : State :=
  let s := s.meterTenants.meterMarks
  let older (m : MtrTen) : MtrTen := { m with span := min 65535 (m.span + 1) }
  let s := { s with meter.tens := s.meter.tens.map (fun (e : Nat × MtrTen) => (e.1, older e.2)), meter.boundAt := t }
  if !s.fabUp then (s.recordOrder.foldl (fun s x => s.modTen x fun m => { m with missed := true }) s).setFld F.MTR_BOUND t
  else
    let order := s.recordOrder
    let n := s.ledgerFree
    let left := order.drop n
    let s := (order.take n).foldl (fun s x => s.writeRecord t x) s
    let s := left.foldl (fun s x => s.modTen x fun m => { m with missed := true }) s
    let s := ((s.setFld F.MTR_LSTS_FULL (b2n !left.isEmpty)).setFld F.MTR_LSTS_CARRIED left.length).setFld F.MTR_BOUND t
    if left.isEmpty then s else s.record (occ bMTR Cause.mtr_LEDGER_FULL)

/-- The next tick edge (R401). -/
def State.nextTick (s : State) : Nat := (s.now / 1000 + 1) * 1000

/-- The interval in ns (R405). -/
def State.intervalNs (s : State) : Nat := s.fld F.MTR_CFG_INTERVAL * 1000000000

/-- The next tick edge is a boundary that has not been taken (R405, R415): its records hold the ticks before it. -/
def State.boundaryDue (s : State) : Bool :=
  s.meter.running && !s.locked && decide (0 < s.intervalNs) && decide (s.nextTick % s.intervalNs = 0)
    && decide (s.meter.boundAt < s.nextTick)

/-- The boundary at the next tick edge, if there is one. -/
def State.snapshot (s : State) : State := if s.boundaryDue then s.snapshotAt s.nextTick else s

def execSnapshot (s : State) : Host.Outcome State Fault Refusal := .next s.snapshot

/-- A dump record without its CRC (R423). -/
def State.dumpBody (s : State) (t : Nat) : List Byte :=
  let bank (b : Nat) : List Byte :=
    leBytes 8 (s.reg (F.PRF_CYC b).key).toNat ++ ((upto 8).flatMap fun i => leBytes 6 (s.fld (F.PRF_CNT_COUNT b i)))
      ++ [BitVec.ofNat 8 (s.fld (F.PRF_OVF_OVF b)), 0]
      ++ ((upto 8).map fun i => BitVec.ofNat 8 (s.fld (F.PRF_CTL_EVENT b i))) ++ List.replicate 14 0
  leBytes 8 t ++ leBytes 8 (s.fld F.PRF_DUMPSTS)
    ++ [BitVec.ofNat 8 (s.fld F.PRF_GCTL_FREEZE + 2 * b2n !s.ptpLocked), 0, 0, 0]
    ++ leBytes 4 (s.fld F.PRF_DUMP_MS) ++ List.replicate 40 0 ++ (upto 17).flatMap bank ++ List.replicate 620 0

/-- Writes the dump record of the instant `t` (R423). -/
def State.dumpAt (s : State) (t : Nat) : State :=
  let b := s.dumpBody t
  let r := b ++ leBytes 4 (crc32c b).toNat
  { s with meter.dumpRing := tput s.meter.dumpRing (s.fld F.PRF_DUMPSTS % 32768) r, meter.dumpAt := t }.incFld F.PRF_DUMPSTS

/-- The next tick edge is a dump instant that has not been taken (R423). -/
def State.dumpDue (s : State) : Bool :=
  let p := s.fld F.PRF_DUMP_MS * 1000000
  s.fabUp && decide (0 < p) && decide (s.nextTick % p = 0) && decide (s.meter.dumpAt < s.nextTick)

/-- The dump at the next tick edge, if there is one. -/
def State.dump (s : State) : State := if s.dumpDue then s.dumpAt s.nextTick else s

def execDump (s : State) : Host.Outcome State Fault Refusal := .next s.dump

/-- An occupancy that an event of class Q measures (R418); the queues of a channel are empty between commands. -/
def State.occupancy (s : State) (bank ev : Nat) : Option Nat :=
  if bank < 8 then if ev = 8 then some (s.rbUsed bank) else none
  else if bank < 14 then
    if ev = 3 ∨ ev = 4 then some 0 else if ev = 5 then some (s.groupEntries (bank - 8)).length else none
  else if bank = 14 then
    if ev = 6 then some s.home.txs.length else if ev = 7 then some s.home.results.length else none
  else if bank = 15 then
    if ev = 6 then some s.mem.migs.length
    else if ev = 7 then some (countIf s.mem.scache fun e => e.2.dirty.isSome) else none
  else if bank = 16 then if ev = 4 then some 0 else none
  else none

/-- Whether the condition of an event of class C holds (R418): new DATA stalled, or a packet waiting for credit. -/
def State.holds (s : State) (bank ev : Nat) : Bool :=
  decide (bank < 8) &&
    ((decide (ev = 9) && s.link.stalled.contains bank)
      || (decide (ev = 10) && s.link.conns.any fun e =>
        decide (e.2.engine = bank) && (upto 4).any fun tc =>
          e.2.starved tc))

/-- What `n` cycles add to a counter through conditions and occupancies (R417). -/
def State.cycleAdds (s : State) (bank i n : Nat) : Nat :=
  let ev := s.fld (F.PRF_CTL_EVENT bank i)
  let mode := s.fld (F.PRF_CTL_MODE bank i)
  if s.bit (F.PRF_CTL_QUAL bank i) then 0
  else if mode = 2 ∧ 8 ≤ bank ∧ bank < 14 ∧ (ev = 8 ∨ ev = 9) then Config.busCycles bank ev s.free % (n + 1)
  else if mode = 3 then
    match s.occupancy bank ev with
    | some q => if s.fld (F.PRF_CTL_N bank i) < q then n else 0
    | none => 0
  else if mode = 2 ∧ s.holds bank ev then n else 0

/-- The nominal rate of a bank's clock in MHz: the FAB domain (R24), or a quarter of the DRAM clock of its channel group,
which is half the group's data rate (R25); 0 for a group that holds no DIMM. -/
def State.bankMhz (s : State) (bank : Nat) : Nat :=
  if 8 ≤ bank ∧ bank < 14 then
    (if (upto 4).all fun i => s.fld (F.MEM_CFG_DPC (4 * (bank - 8) + i)) = 0 then 0
      else (upto 4).foldl (fun m i => max m (s.fld (F.MEM_CFG_SPEED (4 * (bank - 8) + i)))) 0 / 8)
  else 1600

/-- The cycles of a bank's domain that a tick passes: the nominal number, or one less or more as the free value
Config.drift has it. -/
def State.bankCycles (s : State) (bank : Nat) : Nat :=
  let n := s.bankMhz bank
  if n = 0 then 0 else n - 1 + Config.drift (if 8 ≤ bank ∧ bank < 14 then bank - 7 else 0) s.free % 3

/-- A counter whose parity is wrong is set to 0 with its OVF bit set: cause 0x01 (R425; no command of the model sets `cntBad`,
log 54). -/
def State.cntParity (s : State) : State :=
  s.meter.cntBad.foldl (fun s i =>
    let (b, c) := (i / 8, i % 8)
    ((s.setFld (F.PRF_CNT_COUNT b c) 0).setFld (F.PRF_OVF_OVF b) (s.fld (F.PRF_OVF_OVF b) ||| 2 ^ c)).record
      (occ bPRF Cause.prf_CNT_PARITY)) { s with meter.cntBad := [] }

/-- The counters over one tick: PRF_CYC, and every counter of a condition or an occupancy (R416, R417, R421). -/
def State.prfTick (s0 : State) : State :=
  let s := s0.cntParity
  if s.bit F.PRF_GCTL_FREEZE then s
  else
    (upto 17).foldl (fun s b =>
      let n := s.bankCycles b
      (upto 8).foldl (fun s i =>
        let a := s.cycleAdds b i n
        if a = 0 then s else s.prfAdd b i a) (s.addFld (F.PRF_CYC b) n)) s

/-- What one tick adds to the counters of clocked domains, and the cycles that engines stay stalled (R147, R416). -/
def State.cycleTick (s : State) : State :=
  let st := s.fld F.PMU_STATE_STATE
  if s.locked ∨ st = 4 ∨ st = 5 ∨ st = 0 then s
  else
    let s := s.link.stalled.foldl (fun s e => s.addFld (F.CDL_RB_STS_STALLCYC e) (s.bankCycles e)) s.prfTick
    { s with free := s.free + 1 }

/-- One tick of the PTP counter (R395, R401, R404, R413): a boundary or a dump at this edge comes first, then every
accumulator adds the residency in force. -/
def State.tick (s : State) : State :=
  let s := s.snapshot.dump
  let s := { s with now := s.nextTick }.cycleTick
  if s.locked then s
  else if s.meter.running ∨ s.bit F.GBL_STATUS_POOL_READY then
    let s := { s with meter.running := true }.reloadTens.meterTenants
    (s.mem.tmap.foldl (fun s e => s.meterPage e.1 e.2) s).meterMarks
  else s

def execTick (s : State) : Host.Outcome State Fault Refusal := .next s.tick

/-- A write of MTR_CONS (R412). -/
def State.wrCons (s : State) (w : Word) : State :=
  if w.toNat < s.fld F.MTR_CONS ∨ s.fld F.MTR_PROD < w.toNat then s.setFld F.MTR_LSTS_REFUSED 1
  else s.setFld F.MTR_CONS w.toNat

def execMtrCons (src : CsrSrc) (wdata : Word) (s : State) : Host.Outcome State Fault Refusal :=
  .next (s.csrDo (writeReq src F.MTR_CONS.key wdata) fun s => (s.wrCons wdata, ⟨0, 0, 0⟩))

/-- The 8 bytes of a latched record that a register reads. -/
def recWord (r : BitVec 1024) (i : Nat) : Word := BitVec.ofNat 64 (bfGet r (64 * i) 64)

/-- A read of MTR_LRD[i]: MTR_LRD[0] latches the record at INDEX, all ones where it cannot be read (R409). -/
def State.rdLrd (s : State) (i : Nat) : State × Word :=
  if i ≠ 0 then (s, recWord s.meter.latch i)
  else
    let x := s.fld F.MTR_LRD_SEL_INDEX
    let bad := s.meter.bad.contains (4096 + x)
    let r := if bad ∨ s.locked then BitVec.allOnes 1024 else sget (fun _ => 0) s.meter.ring x
    let s := { s with meter.latch := r }
    (if bad then s.record (occ bMTR Cause.mtr_LEDGER_UE) else s, recWord r 0)

def execMtrLrdRead (src : CsrSrc) (s : State) : Host.Outcome State Fault Refusal :=
  .next (s.csrGet src (F.MTR_LRD 0).key fun s => s.rdLrd 0)

/-- A read of MTR_TACC[i]: MTR_TACC[0] latches the tenant's live values in record layout, RSEQ and CRC 0. -/
def State.rdTacc (s : State) (i : Nat) : State × Word :=
  if i ≠ 0 then (s, recWord s.meter.tacc i)
  else
    let t := s.fld F.MTR_TSEL_TENANT
    let m := (tget s.meter.tens t).getD (freshTen s.now)
    let r := BitVec.ofNat 1024 (recordBody s.node.toNat t m s.now 0)
    ({ s with meter.tacc := r }, recWord r 0)

def execMtrTaccRead (src : CsrSrc) (s : State) : Host.Outcome State Fault Refusal :=
  .next (s.csrGet src (F.MTR_TACC 0).key fun s => s.rdTacc 0)

/-- A rising edge of PPS_IN (R399, R531): a pulse of at least 100 ns, 500 ms after the last edge accepted. -/
def State.ppsEdge (s : State) (width : Nat) : State :=
  let near : Bool := match s.sys.ptp.ppsIn with
    | some t => decide (s.now < t + 500000000)
    | none => false
  if !s.bit F.MTR_PTPCFG_PPSIN ∨ width < 100 ∨ near then s
  else { s with sys.ptp.ppsIn := some s.now }.setReg F.MTR_PPSIN.key (BitVec.ofNat 64 s.now)

def execPpsIn (width : Nat) (s : State) : Host.Outcome State Fault Refusal := .next (s.ppsEdge width)

/-- PPS_OUT rises at a whole PTP second (R399). -/
def State.ppsRise (s : State) : State :=
  let sec := s.now / 1000000000
  if s.bit F.MTR_PTPCFG_PPSOUT ∧ s.sys.ptp.ppsOut < sec then { s with sys.ptp.ppsOut := sec } else s

def execPpsOut (s : State) : Host.Outcome State Fault Refusal := .next s.ppsRise

/-- A pending overflow sample is taken and posted (R420, R425). -/
def State.takeSample (s : State) (bank ctr : Nat) (txid : Txid) (tenant : TenantId) (tv : Bool) : State :=
  if !s.samples.contains (bank * 8 + ctr) then s
  else
    let s := { s with samples := s.samples.erase (bank * 8 + ctr) }
    let s := ((((s.setFld F.PRF_SAMPLE0_BANK bank).setFld F.PRF_SAMPLE0_CTR ctr).setFld F.PRF_SAMPLE0_TXID
      txid.toNat).setFld F.PRF_SAMPLE0_TENANT tenant.toNat).setFld F.PRF_SAMPLE0_TV (b2n tv)
    let o : Occ := ⟨bPRF, Cause.prf_SAMPLE, false, txid.toNat, if tv then some tenant.toNat else none, 0, 0⟩
    s.postOcc (o.notice s.now false)

def execCounterOverflow (bank ctr : Nat) (txid : Txid) (tenant : TenantId) (tv : Bool) (s : State) :
    Host.Outcome State Fault Refusal :=
  if 17 ≤ bank ∨ 8 ≤ ctr then .fault .noSuchUnit else .next (s.takeSample bank ctr txid tenant tv)

/-- A write of PRF_CTL[i] clears its counter and its OVF bit (R419); a sample still pending is not taken. -/
def State.wrPrfCtl (s : State) (bank ctr : Nat) : State :=
  let s := s.setFld (F.PRF_CNT_COUNT bank ctr) 0
  { s with samples := s.samples.erase (bank * 8 + ctr) }.setFld (F.PRF_OVF_OVF bank)
    (s.fld (F.PRF_OVF_OVF bank) - (if bitsOf (s.fld (F.PRF_OVF_OVF bank)) ctr 1 = 1 then 2 ^ ctr else 0))

def execPrfCtl (src : CsrSrc) (bank ctr : Nat) (wdata : Word) (s : State) : Host.Outcome State Fault Refusal :=
  if 17 ≤ bank ∨ 8 ≤ ctr then .fault .noSuchUnit
  else .next (s.csrPut src (F.PRF_CTL bank ctr).key wdata fun s => s.wrPrfCtl bank ctr)

/-- Zeroes every counter and OVF bit of every bank (R421). -/
def State.clearCounters (s : State) : State :=
  (upto 17).foldl (fun s b =>
    (upto 8).foldl (fun s i => s.setFld (F.PRF_CNT_COUNT b i) 0)
      ((s.setFld (F.PRF_CYC b) 0).setFld (F.PRF_OVF_OVF b) 0)) s

/-- A write of PRF_GCTL: FREEZE is stored, CLEAR acts (R421). -/
def State.wrGctl (s : State) (w : Word) : State := if wbit w 1 then s.clearCounters else s

def execFreeze (src : CsrSrc) (wdata : Word) (s : State) : Host.Outcome State Fault Refusal :=
  .next (s.csrPut src F.PRF_GCTL.key wdata fun s => s.wrGctl wdata)

def execClear (src : CsrSrc) (wdata : Word) (s : State) : Host.Outcome State Fault Refusal :=
  .next (s.csrTrig src F.PRF_GCTL.key wdata (wbit wdata 1) fun s => s.wrGctl wdata)

/-- A read of PRF_DRD[i]: PRF_DRD[0] latches the dump record of the selected slot (R409, R423). -/
def State.rdDrd (s : State) (i : Nat) : State × Word :=
  let s := if i = 0 then
      { s with meter.dumpLatch := if s.locked then List.replicate 2048 0xFF
                                  else (tget s.meter.dumpRing (s.fld F.PRF_DRD_SEL_SLOT)).getD [] }
    else s
  (s, BitVec.ofNat 64 (bytesAt s.meter.dumpLatch (8 * i) 8))

def execPrfDrdRead (src : CsrSrc) (s : State) : Host.Outcome State Fault Refusal :=
  .next (s.csrGet src (F.PRF_DRD 0).key fun s => s.rdDrd 0)

end Sys2Proof.Machine
end

