-- ==== Sys2Proof/Machine/Key.lean ====
section
/-! DEFINITION. The key table, the key-encryption key and key delivery (R370 to R381, R390 to R392). -/

namespace Sys2Proof.Machine

/-- The ASCII bytes of a string. -/
def ascii (t : String) : List Byte := t.toList.map fun c => BitVec.ofNat 8 c.toNat

/-- The key of slot 0 (R371). -/
def slot0Key : BitVec 512 :=
  let part (b : Byte) : List Byte := (sha384 (b :: beBytes 48 Config.deviceKey ++ ascii "Z24-META")).take 32
  BitVec.ofNat 512 (leNat (part 1 ++ part 2))

/-- The provisioned public key in XTS_PROV (R372, R373). -/
def State.provKey (s : State) : Nat × Nat :=
  let l := (upto 12).flatMap fun j => leBytes 8 (s.reg (F.XTS_PROV j).key).toNat
  (beNat (l.take 48), beNat (l.drop 48))

/-- A provisioning value is applied. -/
def State.provSet (s : State) : Bool := (upto 12).any fun j => decide (s.reg (F.XTS_PROV j).key ≠ 0)

/-- The key-encryption key of a provisioned public key (R373). -/
def kekOf (p : Nat × Nat) : Option (BitVec 256) :=
  (ecMul 384 Config.deviceKey (some p)).map fun z =>
    BitVec.ofNat 256 (leNat ((sha384 (beBytes 48 z.1 ++ ascii "Z24-KEK" ++ beBytes 48 Config.devicePub.1)).take 32))

/-- Bytes 0 to 3 of AES-256 under the KEK of a zero block (XTS_STS.KEKID). -/
def kekId (k : BitVec 256) : Nat :=
  leNat ((aesEnc (roundKeys (leBytes 32 k.toNat)) (List.replicate 16 0)).take 4)

/-- Computes the KEK from the applied provisioning value (R373). -/
def State.deriveKek (s : State) : State :=
  let k := if s.provSet then kekOf s.provKey else none
  let s := { s with mem.kek := k }.setFld F.XTS_STS_PVSET (b2n s.provSet)
  match k with
  | some k => (s.setFld F.XTS_STS_KEKV 1).setFld F.XTS_STS_KEKID (kekId k)
  | none => (s.setFld F.XTS_STS_KEKV 0).setFld F.XTS_STS_KEKID 0

/-- Derives slot 0 (R371). -/
def State.deriveSlot0 (s : State) : State := s.setKey 0 ⟨slot0Key, true, false, 0, 0, false, false, false⟩

/-- The wrapped key in XTS_KEYIN (R374). -/
def State.keyIn (s : State) : List Byte := (upto 10).flatMap fun j => leBytes 8 (s.reg (F.XTS_KEYIN j).key).toNat

/-- The key of an unwrapped key record. -/
def recordKey (r : List Byte) : BitVec 512 := BitVec.ofNat 512 (bytesAt r 8 64)

/-- RESULT of a LOAD (R374), with the record where it succeeds. -/
def State.loadResult (s : State) (slot : Nat) : Nat × List Byte :=
  let k := s.key slot
  match s.mem.kek with
  | none => (6, [])
  | some kek =>
    if slot = 0 then (1, [])
    else if k.valid ∧ !k.failed then (2, [])
    else
      match keyUnwrap kek s.keyIn with
      | none => (3, [])
      | some r =>
        if bytesAt r 0 2 ≠ slot ∨ bytesAt r 2 2 ≠ 1 then (4, r)
        else if bytesAt r 8 32 = bytesAt r 40 32 then (5, r)
        else (0, r)

/-- LOAD (R374). -/
def State.keyLoad (s : State) (slot : Nat) : State :=
  let (res, r) := s.loadResult slot
  let s := s.setFld F.XTS_KEYCTL_RESULT res
  if res ≠ 0 then s
  else
    let (bad0, s) := s.takePflip 9 0 0
    let (bad1, s) := s.takePflip 9 1 0
    { s.setKey slot ⟨recordKey r, true, false, BitVec.ofNat 32 (bytesAt r 4 4), 0, false, bad0, bad1⟩ with
      mem.keyStore := sput (fun _ => 0) s.mem.keyStore slot (BitVec.ofNat 640 (leNat s.keyIn))
      mem.keyStoreBad := s.mem.keyStoreBad.filter (· ≠ slot) }

/-- A tenant with EN 1 names the slot (R375, XTS_SLOT.REF). -/
def State.slotNamed (s : State) (slot : Nat) : Bool :=
  (upto 4096).any fun t => s.bit (F.TRN_TENANT_EN t)
    && (decide (s.fld (F.TRN_TENANT_KSLOT0 t) = slot) || decide (s.fld (F.TRN_TENANT_KSLOT1 t) = slot))

/-- Overwrites a slot and its key store entry with zeros (R375). -/
def State.wipeSlot (s : State) (slot : Nat) : State :=
  { s with
    mem.keys := tdel s.mem.keys slot
    mem.keyStore := tdel s.mem.keyStore slot
    mem.keyStoreBad := s.mem.keyStoreBad.filter (· ≠ slot) }

/-- CLEAR (R375). -/
def State.keyClear (s : State) (slot : Nat) : State :=
  if slot = 0 then s.setFld F.XTS_KEYCTL_RESULT 1
  else if s.slotNamed slot then s.setFld F.XTS_KEYCTL_RESULT 7
  else (s.wipeSlot slot).setFld F.XTS_KEYCTL_RESULT 0

/-- A write of XTS_KEYCTL; OP and SLOT are stored (R374, R375). -/
def State.wrKeyctl (s : State) (w : Word) : State :=
  if !wbit w 0 then s
  else if wbit w 1 then s.keyClear (wbits w 2 12)
  else s.keyLoad (wbits w 2 12)

def execLoad (src : CsrSrc) (wdata : Word) (s : State) : Host.Outcome State Fault Refusal :=
  .next (s.csrTrig src F.XTS_KEYCTL.key wdata (wbit wdata 0 && !wbit wdata 1) fun s => s.wrKeyctl wdata)

def execClearSlot (src : CsrSrc) (wdata : Word) (s : State) : Host.Outcome State Fault Refusal :=
  .next (s.csrTrig src F.XTS_KEYCTL.key wdata (wbit wdata 0 && wbit wdata 1) fun s => s.wrKeyctl wdata)

/-- The key that a slot's key store entry unwraps to (R379). -/
def State.storedKey (s : State) (slot : Nat) : Option (BitVec 512) :=
  if slot = 0 then some slot0Key
  else if s.mem.keyStoreBad.contains slot then none
  else
    match s.mem.kek with
    | none => none
    | some kek => (keyUnwrap kek (leBytes 80 (sget (fun _ => 0) s.mem.keyStore slot).toNat)).map recordKey

/-- A die's copy of a slot is reloaded, or the slot becomes FAILED on both dies (R379). -/
def State.keyReload (s : State) (die slot : Nat) (uncorrectable : Bool) : State :=
  let k := s.key slot
  if !k.valid ∨ k.failed ∨ !(if die = 0 then k.bad0 else k.bad1) then s
  else
    let s := if uncorrectable ∧ slot ≠ 0 then { s with mem.keyStoreBad := slot :: s.mem.keyStoreBad } else s
    let fail := (s.setKey slot { k with failed := true }).record (occ bXTS Cause.xts_KT_FAILED)
    if k.bad0 ∧ k.bad1 then fail
    else
      match s.storedKey slot with
      | none => fail
      | some key =>
        (s.setKey slot { k with key := key, bad0 := k.bad0 && decide (die ≠ 0), bad1 := k.bad1 && decide (die = 0) }).record
          (occ bXTS Cause.xts_KT_PARITY)

def execKeySlotReload (die : Nat) (slot : BitVec 12) (uncorrectable : Bool) (s : State) :
    Host.Outcome State Fault Refusal :=
  if 2 ≤ die then .fault .noSuchUnit else .next (s.keyReload die slot.toNat uncorrectable)

/-- A write of XTS_ZEROISE (R392). -/
def State.wrZeroise (s : State) (w : Word) : State :=
  if wbit w 0 ∧ wbits w 16 16 = 0xC1EA ∧ !s.locked then (s.record (occ bXTS Cause.xts_HOST_ZEROISE)).enterLock else s

def execXtsZeroise (src : CsrSrc) (wdata : Word) (s : State) : Host.Outcome State Fault Refusal :=
  .next (s.csrPut src F.XTS_ZEROISE.key wdata fun s => s.wrZeroise wdata)

def execAlarmWindow (s : State) : Host.Outcome State Fault Refusal := .next s.rollAlarm

end Sys2Proof.Machine
end

