-- ==== Sys2Proof/Machine/Check.lean ====
section
/-! DEFINITION. The consistency checks of a commit (R492 and the rules it names). `v` is the state as the commit would leave
its registers. -/

namespace Sys2Proof.Machine

/-- The RWS bits of the register with key `k` (R8). -/
def rwsMask (k : Nat) : Word := BitVec.ofNat 64 (((regAt (k % 2 ^ 32)).map (·.rws)).getD 0)

/-- A register with staged fields laid over it (R492). -/
def State.lay (s : State) (k : Nat) (w : Word) : State := s.setReg k ((s.reg k &&& ~~~(rwsMask k)) ||| w)

/-- The applied values overlaid with staged writes (R492). -/
def State.overlayRegs (s : State) (l : Table (BitVec 64)) : State := l.foldl (fun s e => s.lay e.1 e.2) s

/-- `x` lies in a stated range. -/
def within (lo hi x : Nat) : Bool := decide (lo ≤ x) && decide (x ≤ hi)

/-- The fields of PMU_PACK_CFG describe a supported pack (R453, R476). -/
def packOk (w : Word) : Bool :=
  let chem := wbits w 0 2
  decide (chem ≠ 3) && within 1 80 (wbits w 24 7) && within 10 100 (wbits w 31 7) && within 50 95 (wbits w 51 7)
    && (chem ≠ 1 || within 4 12 (wbits w 2 4))
    && (chem ≠ 2 || (within 120 400 (wbits w 6 9) && within 120 340 (wbits w 15 9)
      && decide (wbits w 15 9 + 60 ≤ wbits w 6 9)))
    && (chem = 0 || within 10 4095 (wbits w 38 12))

/-- Every field of a register lies in its stated range (R77, R164, R303, R393, R405, R423, R447, R453, R476). -/
def rangeOk (name : String) (w : Word) : Bool :=
  match name with
  | "GBL_MGT" => within 8 30 (wbits w 32 6)
  | "GBL_MGTALLOW" => within 0 32 (wbits w 32 6)
  | "PMU_CFG" => within 0 2000 (wbits w 0 12) && within 0 1000 (wbits w 12 10) && within 10 10000 (wbits w 22 14)
  | "PMU_PACK_CFG" => packOk w
  | "ETH_MODE" => decide (wbits w 0 2 ≠ 3)
  | "CDL_TIMERS" => within 2 64 (wbits w 0 7) && within 1 60000 (wbits w 8 16) && within 1 10000 (wbits w 32 14)
  | "CDL_FLIGHT" => within 64 2048 (wbits w 0 12) && within 16 2048 (wbits w 16 12)
  | "CDL_CREDIT" => within 8 255 (wbits w 0 8) && within 65 4095 (wbits w 8 12) && within 65 4095 (wbits w 20 12)
  | "DIR_COHCFG" => within 1 255 (wbits w 0 8) && within 1 255 (wbits w 8 8)
  | "TIER_CFG" => decide (wbits w 0 2 ≠ 3) && within 100 10000 (wbits w 2 14) && within 64 128 (wbits w 16 8)
      && within 1 32 (wbits w 24 6) && within 1 63 (wbits w 32 6)
  | "TIER_THR" => within 1 32767 (wbits w 0 16)
  | "TIER_RESV" => within 1 200 (wbits w 0 10) && within 1 65535 (wbits w 10 16) && within 2048 65535 (wbits w 26 16)
  | "TIER_REPL" => within 1 65535 (wbits w 8 16)
  | "TIER_TMODE" => decide (wbits w 0 2 ≠ 3)
  | "ECC_SCRUB" => within 1 255 (wbits w 1 8)
  | "ECC_RETIRE" => within 1 63 (wbits w 1 6)
  | "XTS_CFG" => within 32 44 (wbits w 0 6) && within 1 32 (wbits w 8 6) && within 1 65535 (wbits w 16 16)
  | "MTR_CFG" => within 1 3600 (wbits w 0 12)
  | "PRF_DUMP" => within 0 10000 (wbits w 0 14)
  | "NTQ_CFG" => within 1 65535 (wbits w 0 16)
  | _ => true

/-- Check 3: the first register with a field out of range; a register at its reset value is in range. -/
def rangeCheck (v : State) : Option Nat :=
  (v.regs.find? fun e => match regAt (e.1 % 2 ^ 32) with
    | some d => !rangeOk d.name e.2
    | none => false).map (·.1)

/-- The tenants with EN 1. -/
def State.enabledTenants (s : State) : List Nat := (upto 4096).filter fun t => s.bit (F.TRN_TENANT_EN t)

/-- A tenant's two key slots. -/
def State.slotsOf (s : State) (t : Nat) : List Nat := [s.fld (F.TRN_TENANT_KSLOT0 t), s.fld (F.TRN_TENANT_KSLOT1 t)]

/-- A tenant's entries are staged. -/
def stagesTenant (l : Table (BitVec 64)) (t : Nat) : Bool :=
  (tget l (F.TRN_TENANT t).key).isSome || (tget l (F.XTS_TSTATE t).key).isSome

/-- Check 4 (R53, R383). -/
def tenantCheck (v : State) (staged : Table (BitVec 64)) : Option Nat :=
  let ts := v.enabledTenants
  (ts.find? fun t =>
    let mine := v.slotsOf t
    mine.contains 0 || (ts.any fun u => decide (u ≠ t) && (v.slotsOf u).any mine.contains)
      || (stagesTenant staged t && mine.any fun k => !(v.key k).valid)).map fun t => (F.TRN_TENANT t).key

/-- A change of a tenant's key fields that R383 allows. -/
def rekeyOk (s v : State) (t : Nat) : Bool :=
  let cur := v.curOf t
  let old := s.fld (F.TRN_TENANT_KSLOT0 t)
  let slot := v.keySlotOf t cur
  decide (s.fld (F.TRN_TENANT_KSLOT0 t) = s.fld (F.TRN_TENANT_KSLOT1 t)) && (cur != s.curOf t)
    && decide (v.keySlotOf t (!cur) = s.keySlotOf t (!cur)) && decide (slot ≠ old) && (v.key slot).valid
    && decide (v.rekeys.length ≤ 64) && decide (s.home.hoff.phase = .idle)

/-- Check 5 (R383). -/
def rekeyCheck (s v : State) : Option Nat :=
  (v.enabledTenants.find? fun t =>
    s.bit (F.TRN_TENANT_EN t) && (decide (s.slotsOf t ≠ v.slotsOf t) || (s.curOf t != v.curOf t)) && !rekeyOk s v t).map fun t =>
      if s.slotsOf t ≠ v.slotsOf t then (F.TRN_TENANT t).key else (F.XTS_TSTATE t).key

/-- The enabled windows, as TRN_WIN_SEL numbers them: 16 for each tenant (R52). -/
def State.enabledWindows (s : State) : List Nat := (upto 65536).filter fun i => s.bit (F.TRN_WIN_A_EN i)

/-- A window breaks a rule of R54 on its own. -/
def State.windowBad (s : State) (i : Nat) : Bool :=
  let base := s.fld (F.TRN_WIN_A_BASE i)
  let size := s.fld (F.TRN_WIN_B_SIZE i)
  let off := s.fld (F.TRN_WIN_B_ETOFF i)
  decide (size = 0) || decide (2 ^ 31 < base + size) || decide (s.etrBytes / 8 < off + size) || decide (off < s.slotCount)

/-- Two windows overlap. -/
def State.windowsMeet (s : State) (i j : Nat) : Bool :=
  decide (s.fld (F.TRN_WIN_A_BASE i) < s.fld (F.TRN_WIN_A_BASE j) + s.fld (F.TRN_WIN_B_SIZE j))
    && decide (s.fld (F.TRN_WIN_A_BASE j) < s.fld (F.TRN_WIN_A_BASE i) + s.fld (F.TRN_WIN_B_SIZE i))

/-- Check 6 (R54). -/
def windowCheck (v : State) : Option Nat :=
  let ws := v.enabledWindows
  (ws.find? fun i =>
    v.windowBad i || ws.any fun j => decide (j ≠ i) && decide (j / 16 = i / 16) && v.windowsMeet i j).map fun i => (F.TRN_WIN_A i).key

/-- The select values for which a register of address `a` differs from its reset value. -/
def State.selsOf (s : State) (a : Nat) : List Nat := (s.regs.filter fun e => e.1 % 2 ^ 32 = a).map fun e => e.1 / 2 ^ 32

/-- The enabled connection entries. -/
def State.enabledConns (s : State) : List Nat := (s.selsOf (F.CDL_CONN_A 0).key).filter fun k => s.bit (F.CDL_CONN_A_EN k)

/-- The engine that a connection entry's primary path gives it (R92). -/
def State.engineOfConn (s : State) (k : Nat) : Nat := engineOf s.portMode (s.connPath k false).port k

/-- The path records that the enabled connections of an engine need (R137). -/
def State.pathNeeds (s : State) (conns : List Nat) (e : Nat) : Nat :=
  ((conns.filter fun k => s.engineOfConn k = e).flatMap fun k =>
    [s.connPath k false] ++ (if s.hasAlt k then [s.connPath k true] else [])).foldl
      (fun (l : List (Nat × Nat × BitVec 48)) p =>
        if l.contains (p.port, p.vid, p.mac) then l else (p.port, p.vid, p.mac) :: l) [] |>.length

/-- An entry breaks a rule on its own (R94). -/
def State.connBad (s : State) (k : Nat) : Bool :=
  let p := s.connPath k false
  decide (s.reg (F.CDL_CONN_P k).key = s.reg (F.CDL_CONN_Q k).key) || decide (p.mac = 0) || !s.hasPort p.port
    || (s.hasAlt k && !s.hasPort (s.connPath k true).port)

/-- Check 7 (R93, R94, R137). -/
def connCheck (v : State) : Option Nat :=
  let en := v.enabledConns
  match en.find? v.connBad with
  | some k => some (F.CDL_CONN_P k).key
  | none =>
    match (upto 8).find? fun e => 512 < v.pathNeeds en e with
    | some e => (en.find? fun k => v.engineOfConn k = e).map fun k => (F.CDL_CONN_P k).key
    | none =>
      ((v.selsOf (F.TRN_CONN_BIND 0).key).find? fun k =>
        v.bit (F.TRN_CONN_BIND_BOUND k) && decide (v.fld (F.TRN_CONN_BIND_PORT k) ≠ v.fld (F.CDL_CONN_P_PORT k))).map fun k =>
          (F.TRN_CONN_BIND k).key

/-- Check 8: the EtherTypes of CDL_ETYPE. -/
def etypeCheck (v : State) : Option Nat :=
  let bad (x : Nat) : Bool := decide (x < 0x600) || [0x800, 0x8100, 0x86DD, 0x8808, 0x88A8, 0x88F7].contains x
  let c := v.fld F.CDL_ETYPE_COLDEL
  let p := v.fld F.CDL_ETYPE_PICOT
  if c = p ∨ bad c ∨ bad p then some F.CDL_ETYPE.key else none

/-- Check 9 (R97). -/
def nodeCheck (s v : State) : Option Nat :=
  if s.fld F.CDL_NODE_NODE ≠ v.fld F.CDL_NODE_NODE ∧ !s.link.conns.isEmpty then some F.CDL_NODE.key else none

/-- A staged write touches the pool record of a bank (R239). -/
def stagesPool (l : Table (BitVec 64)) (b : Bool) : Bool :=
  l.any fun e => let a := e.1 % 2 ^ 32; let lo := 0x2100008 + 0x8000 * bankNo b; decide (lo ≤ a) && decide (a ≤ lo + 0x300)

/-- The rows of R242 that look at the record alone. -/
def poolRecordBad (v : State) (b : Bool) : Option Nat :=
  let n := bankNo b
  let idx := upto 64
  match (v.selsOf (F.POOL_MAPDATA n 0).key).find? fun w => (upto 4).any fun k =>
      let e := bitsOf (v.reg (F.POOL_MAPDATA n w).key).toNat (16 * k) 16
      bitsOf e 6 1 = 1 && !(v.memValid b (bitsOf e 0 6) && !v.memSpare b (bitsOf e 0 6)) with
  | some w => some (F.POOL_MAPDATA n w).key
  | none =>
    match idx.find? fun i => v.isNodeEntry b i && idx.any fun j =>
        decide (j < i) && v.isNodeEntry b j && decide (v.memNode b i = v.memNode b j) with
    | some i => some (F.POOL_MEM_A n i).key
    | none =>
      match idx.find? fun i => v.memValid b i && v.memUplink b i && (decide (v.memNode b i = v.node) && !v.isFace
          || !v.bit (F.POOL_ROLES_FACEV n) || decide (v.memEpoch b i ≠ v.fld (F.POOL_ROLES_FEPOCH n))) with
      | some i => some (F.POOL_MEM_A n i).key
      | none =>
        if (v.selfEntry b).isNone then some (F.POOL_MEM_A n 0).key
        else if (16 < (v.homesOf b).length ∧ !v.bit (F.POOL_ROLES_BOBV n))
            ∨ (v.bit (F.POOL_ROLES_BOBV n) ∧ !v.isHomeEntry b (v.fld (F.POOL_ROLES_BOBBIN n))) then some (F.POOL_ROLES n).key
        else
          ((upto 1024).find? fun a => v.bit (F.POOL_AGENT_PROXY n a) && (upto 1024).any fun c =>
            decide (c < a) && v.bit (F.POOL_AGENT_PROXY n c)
              && decide (v.fld (F.POOL_AGENT_OAGENT n c) = v.fld (F.POOL_AGENT_OAGENT n a))).map fun a => (F.POOL_AGENT n a).key

/-- An extent of this module whose pool map index the commit would take away (R242). -/
def extentTaken (s v : State) : Option Nat :=
  match s.selfIdx false with
  | none => none
  | some me =>
    (s.mem.etr.find? fun e => decide (e.1 < s.slotCount) && e.2.getLsbD 0
      && decide (s.mapMember false (bfGet e.2 32 31 * 2 ^ 21) = some me)
      && decide (v.mapMember false (bfGet e.2 32 31 * 2 ^ 21) ≠ some me)).map fun e => mapKey false (bfGet e.2 32 31 * 2 ^ 21)

/-- The rows of R242 that compare the record with the applied one. -/
def poolChangeBad (s v : State) (b : Bool) : Option Nat :=
  let n := bankNo b
  let idx := upto 64
  match idx.find? fun i =>
      v.memValid b i && decide (v.memNode b i ≠ s.memNode b i) && decide (v.memEpoch b i = s.memEpoch b i) with
  | some i => some (F.POOL_MEM_A n i).key
  | none =>
    let held : List Nat := if b then [] else (s.selfEntry false).toList
      ++ (if s.home.hoff.phase = .copy ∨ s.home.hoff.phase = .ready then [s.home.hoff.toIdx] else [])
    match held.find? fun i => decide (v.memNode b i ≠ s.memNode b i) && decide (s.home.hoff.phase ≠ .ready) with
    | some i => some (F.POOL_MEM_A n i).key
    | none =>
      let d := (v.fld (F.POOL_VER_VERSION n) + 2 ^ 32 - s.fld (F.POOL_VER_VERSION n)) % 2 ^ 32
      if d = 0 ∨ 2 ^ 31 ≤ d then some (F.POOL_VER n).key
      else if b then none else extentTaken s v

/-- Check 10 (R242); `load` for the configuration read at start, which has no applied one before it. -/
def poolCheck (s v : State) (staged : Table (BitVec 64)) (load : Bool) : Option Nat :=
  let one (b : Bool) : Option Nat :=
    if !stagesPool staged b then none
    else
      match poolRecordBad v b with
      | some k => some k
      | none => if load then none else poolChangeBad s v b
  match one false with
  | some k => some k
  | none => one true

/-- Check 11 (R77, R544). -/
def portmodeCheck (s v : State) (persist : Bool) : Option Nat :=
  if persist then none
  else if s.fld F.ETH_MODE_MODE ≠ v.fld F.ETH_MODE_MODE then some F.ETH_MODE.key
  else if s.fld F.TRN_CFG_ETR_SIZE ≠ v.fld F.TRN_CFG_ETR_SIZE then some F.TRN_CFG.key
  else none

/-- Check 12 (R373): any tenant slot VALID, a volatile commit, or a value that is no point of the curve. -/
def provCheck (s v : State) (staged : Table (BitVec 64)) (persist : Bool) : Option Nat :=
  match (upto 12).find? fun j => (tget staged (F.XTS_PROV j).key).isSome with
  | none => none
  | some j =>
    let p := v.provKey
    if !persist ∨ !ecOnCurve p.1 p.2 ∨ s.mem.keys.any fun e => decide (e.1 ≠ 0) && e.2.valid then some (F.XTS_PROV j).key
    else none

/-- Check 13 (R476). -/
def packTestCheck (s v : State) : Option Nat :=
  if s.fld F.PMU_STATE_PACK = 6 ∧ s.reg F.PMU_PACK_CFG.key ≠ v.reg F.PMU_PACK_CFG.key then some F.PMU_PACK_CFG.key else none

/-- Check 1 (R445, R470): RIDE-THROUGH, DRAIN, STANDBY or LOCK, or an update UPDATING or REVERTING. -/
def State.commitBarred (s : State) : Bool :=
  let st := s.fld F.PMU_STATE_STATE
  let fw := s.fld F.FWU_STS_STATE
  s.locked || [2, 3, 5].contains st || [3, 5].contains fw

/-- The first failing check among a list, with its REFCODE. -/
def firstFail : List (Nat × Option Nat) → Option (Nat × Nat)
  | [] => none
  | (c, some k) :: _ => some (c, k)
  | (_, none) :: l => firstFail l

/-- Checks 3 to 13 of R492, in order: REFCODE and the register of the first failing field. -/
def configChecks (s v : State) (staged : Table (BitVec 64)) (persist : Bool) : Option (Nat × Nat) :=
  firstFail [(3, rangeCheck v), (4, tenantCheck v staged), (5, rekeyCheck s v), (6, windowCheck v), (7, connCheck v),
    (8, etypeCheck v), (9, nodeCheck s v), (10, poolCheck s v staged false), (11, portmodeCheck s v persist),
    (12, provCheck s v staged persist), (13, packTestCheck s v)]

/-- The checks that R488 applies to the configuration at load: every one but those that need an applied configuration, and
the test of R383 against slots that are not VALID. -/
def loadChecks (v : State) (staged : Table (BitVec 64)) : Option (Nat × Nat) :=
  let prov : Option Nat :=
    match (upto 12).find? fun j => (tget staged (F.XTS_PROV j).key).isSome with
    | some j => if ecOnCurve v.provKey.1 v.provKey.2 then none else some (F.XTS_PROV j).key
    | none => none
  firstFail [(3, rangeCheck v), (4, tenantCheck v []), (6, windowCheck v), (7, connCheck v), (8, etypeCheck v),
    (10, poolCheck v v staged true), (12, prov)]

/-- What a COMMIT or CHECK of the bank finds: none where it passes (R492). -/
def State.checkBank (s : State) (persist : Bool) : Option (Nat × Nat) :=
  if s.commitBarred then some (1, 0)
  else if s.sys.bank.lost then some (2, 0)
  else configChecks s (s.overlayRegs s.sys.bank.staged) s.sys.bank.staged persist

end Sys2Proof.Machine
end

