-- ==== Sys2Proof/Machine/Image.lean ====
section
/-! DEFINITION. The boot records, images and configuration records of the NVM (R482 to R488, R499). -/

namespace Sys2Proof.Machine

/-- What a boot record says (R482): STATE (0 EMPTY, 1 WRITTEN, 2 TRIAL, 3 CONFIRMED), SEQ, ONCE, CFGHALF and CFGGEN. -/
structure Boot where
  state : Nat
  seq : Nat
  once : Bool
  half : Bool
  gen : Nat
  deriving DecidableEq, Repr

/-- MAGIC of a boot record: "ZBTR" from byte 0 (R482). -/
def bootMagic : BitVec 32 := 0x5254425A

/-- Bytes 0 to 59 of a copy of a boot record (R482). -/
def BootCopy.bytes (r : BootCopy) : List Byte :=
  leBytes 4 r.magic.toNat ++ leBytes 4 r.seq.toNat ++ leBytes 4 (r.state.toNat + 4 * b2n r.once + 8 * b2n r.half)
    ++ leBytes 4 r.gen.toNat ++ List.replicate 44 0

/-- A copy is valid when its MAGIC and CRC are good (R483). -/
def BootCopy.valid (r : BootCopy) : Bool := decide (r.magic = bootMagic) && decide (crc32c r.bytes = r.crc)

/-- What a copy says. -/
def BootCopy.boot (r : BootCopy) : Boot := ⟨r.state.toNat, r.seq.toNat, r.once, r.half, r.gen.toNat⟩

/-- A boot record as it is written, with its MAGIC and CRC. -/
def Boot.copy (b : Boot) : BootCopy :=
  let r : BootCopy :=
    ⟨bootMagic, BitVec.ofNat 32 b.seq, BitVec.ofNat 2 b.state, b.once, b.half, BitVec.ofNat 32 b.gen, 0⟩
  { r with crc := crc32c r.bytes }

/-- The copy of the boot record that applies: copy 0 where it is valid, else copy 1; none where neither is (R483). -/
def Slot.bootCopy (c : Slot) : Option BootCopy :=
  if c.copy0.valid then some c.copy0 else if c.copy1.valid then some c.copy1 else none

/-- The boot record of a slot; a slot without a valid copy counts as EMPTY (R483). -/
def Slot.boot (c : Slot) : Boot :=
  match c.bootCopy with
  | some r => r.boot
  | none => ⟨0, 0, false, false, 0⟩

def Slot.state (c : Slot) : Nat := c.boot.state

def Slot.seq (c : Slot) : Nat := c.boot.seq

def Slot.once (c : Slot) : Bool := c.boot.once

def Slot.half (c : Slot) : Bool := c.boot.half

def Slot.cfgGen (c : Slot) : Nat := c.boot.gen

/-- Copy 0 of a boot record is written: always before copy 1 (R483). -/
def Slot.putCopy0 (c : Slot) (b : Boot) : Slot := { c with copy0 := b.copy }

/-- Copy 1 of a boot record is written. -/
def Slot.putCopy1 (c : Slot) (b : Boot) : Slot := { c with copy1 := b.copy }

/-- A boot record is written: copy 0, then copy 1 (R483). -/
def Slot.putBoot (c : Slot) (b : Boot) : Slot := (c.putCopy0 b).putCopy1 b

/-- The boot record with another STATE. -/
def Slot.withState (c : Slot) (n : Nat) : Slot := c.putBoot { c.boot with state := n }

/-- The boot record with another ONCE. -/
def Slot.withOnce (c : Slot) (once : Bool) : Slot := c.putBoot { c.boot with once := once }

/-- The boot record names another half, with the next CFGGEN (R488, R495). -/
def Slot.withHalf (c : Slot) (half : Bool) : Slot := c.putBoot { c.boot with half := half, gen := c.boot.gen + 1 }

/-- The image region of a slot, in bytes (R482). -/
def imageSize : Nat := 8 * 1024 * 1024 - 8192

/-- A page of a slot's image; erased NOR reads as ones. -/
def Slot.page (c : Slot) (i : Nat) : BitVec 2048 :=
  match tget c.pages i with
  | some p => p
  | none => if c.factory then Config.factoryImage i else BitVec.allOnes 2048

/-- A page of a slot's image is programmed. -/
def Slot.putPage (c : Slot) (i : Nat) (p : BitVec 2048) : Slot :=
  { c with pages := if c.factory then tput c.pages i p else sput (fun _ => BitVec.allOnes 2048) c.pages i p }

/-- The image is as the factory left it. -/
def Slot.pristine (c : Slot) : Bool := c.factory && c.pages.isEmpty

/-- `n` bytes of a slot's image from offset `off`. -/
def Slot.read (c : Slot) (off n : Nat) : List Byte :=
  if n = 0 then []
  else
    let p0 := off / 256
    (((upto ((off % 256 + n + 255) / 256)).flatMap fun i => leBytes 256 (c.page (p0 + i)).toNat).drop (off % 256)).take n

/-- A little-endian field of an image. -/
def Slot.num (c : Slot) (off n : Nat) : Nat := leNat (c.read off n)

/-- The pages that hold these bytes, from page 0. -/
def pagesOf (l : List Byte) : Store 2048 :=
  (upto ((l.length + 255) / 256)).foldl (fun t i =>
    let p := (l.drop (256 * i)).take 256
    sput (fun _ => BitVec.allOnes 2048) t i (BitVec.ofNat 2048 (leNat (p ++ List.replicate (256 - p.length) 0xFF)))) []

/-- RELEASE of a slot's manifest (R485). -/
def Slot.release (c : Slot) : Nat := c.num 8 4

/-- SVN of a slot's manifest. -/
def Slot.svn (c : Slot) : Nat := c.num 12 2

/-- WARMOK of a slot's manifest. -/
def Slot.warmOk (c : Slot) : Bool := c.num 14 2 % 2 = 1

/-- A component entry of a manifest (R485). -/
structure Comp where
  type : Nat
  provides : Nat
  offset : Nat
  length : Nat
  accept : List (Nat × Nat)
  hash : List Byte
  deriving DecidableEq, Repr

/-- The component entry `i` of a slot's manifest. -/
def Slot.compAt (c : Slot) (i : Nat) : Comp :=
  let o := 120 + 80 * i
  { type := c.num o 1, provides := c.num (o + 2) 2, offset := c.num (o + 4) 4, length := c.num (o + 8) 4
    accept := (upto 5).map fun k => (c.num (o + 12 + 4 * k) 2, c.num (o + 14 + 4 * k) 2)
    hash := c.read (o + 32) 48 }

/-- The five component entries of a slot's manifest. -/
def Slot.comps (c : Slot) : List Comp := (upto 5).map c.compAt

/-- The component of a type. -/
def Slot.comp (c : Slot) (type : Nat) : Option Comp := c.comps.find? fun x => decide (x.type = type)

/-- The levels and ranges of a set of running components: L_MC, L_PMU, L_PORT and L_TIER (R498). -/
structure Levels where
  mc : Option Comp
  pmu : Option Comp
  port : Option Comp
  tier : Option Comp
  deriving DecidableEq, Repr

/-- The level that a component provides. -/
def provided (x : Option Comp) : Nat := (x.map (·.provides)).getD 0

/-- A level lies within the range that a component's ACCEPT gives it; `i` counts L_MC, L_PMU, L_PORT, L_TIER, L_HW. -/
def accepts (x : Option Comp) (i level : Nat) : Bool :=
  match x with
  | some c => within ((c.accept.getD i (0, 0)).1) ((c.accept.getD i (0, 0)).2) level
  | none => false

/-- The silicon's level lies within a component's range (R486). -/
def hwOk (x : Option Comp) : Bool := accepts x 4 Config.hwLevel.toNat

/-- A set of running components is compatible (R499). -/
def Levels.ok (l : Levels) : Bool :=
  hwOk l.mc && hwOk l.pmu && hwOk l.port && hwOk l.tier
    && accepts l.mc 1 (provided l.pmu) && accepts l.mc 2 (provided l.port) && accepts l.mc 3 (provided l.tier)
    && accepts l.pmu 0 (provided l.mc) && accepts l.pmu 2 (provided l.port) && accepts l.pmu 3 (provided l.tier)
    && accepts l.port 0 (provided l.mc) && accepts l.port 1 (provided l.pmu) && accepts l.port 3 (provided l.tier)
    && accepts l.port 2 (provided l.port)
    && accepts l.tier 0 (provided l.mc) && accepts l.tier 1 (provided l.pmu) && accepts l.tier 2 (provided l.port)

/-- The components of a slot's image as a running set. -/
def Slot.levels (c : Slot) : Levels := ⟨c.comp 1, c.comp 2, c.comp 3, c.comp 4⟩

/-- Two port microcodes run beside each other during an update (R499). -/
def portsMix (a b : Levels) : Bool := accepts a.port 2 (provided b.port) && accepts b.port 2 (provided a.port)

/-- The set of components after an update has replaced some of them. -/
def mixLevels (old new_ : Levels) (pmu port tier mc : Bool) : Levels :=
  ⟨if mc then new_.mc else old.mc, if pmu then new_.pmu else old.pmu, if port then new_.port else old.port,
    if tier then new_.tier else old.tier⟩

/-- The format level of a slot's configuration (R485). -/
def Slot.cfgLevel (c : Slot) : Nat := if c.named then c.level else provided (c.comp 5)

/-- The sequence of an update from the booted image to the target, checked after every step of R498 and of its reversal
(R499): the sets that arise are the same in both directions. -/
def sequenceOk (old target : Slot) : Bool :=
  let o := old.levels
  let n := target.levels
  (mixLevels o n true false false false).ok
    && (mixLevels o n true true false false).ok && portsMix o n
    && (let m := mixLevels o n true false false false; accepts n.port 0 (provided m.mc) && accepts n.port 1 (provided m.pmu))
    && (mixLevels o n true true true false).ok && n.ok
    && accepts o.mc 0 old.cfgLevel && accepts n.mc 0 old.cfgLevel && accepts n.mc 0 (provided (target.comp 5))

/-- Check 2 of R486. -/
def Slot.formatOk (c : Slot) : Bool :=
  decide (c.read 0 4 = ascii "Z24M") && decide (c.num 4 2 = 1) && decide (c.num 6 2 = 5)
    && [1, 2, 3, 4, 5].all (fun t => decide (countIf c.comps (fun x => decide (x.type = t)) = 1))
    && c.comps.all fun x => decide (x.offset + x.length ≤ imageSize)

/-- Check 3 of R486. -/
def Slot.keyOk (c : Slot) : Bool := decide (beNat (sha384 (c.read 24 96)) = Config.signingHash.toNat)

/-- Check 4 of R486. -/
def Slot.sigOk (c : Slot) : Bool :=
  ecdsaOk (beNat (c.read 24 48), beNat (c.read 72 48)) (sha384 (c.read 0 520)) (beNat (c.read 520 48)) (beNat (c.read 568 48))

/-- Check 5 of R486. -/
def Slot.hashOk (c : Slot) : Bool := c.comps.all fun x => decide (sha384 (c.read x.offset x.length) = x.hash)

/-- Checks 2 to 7 of R486: the RESULT of the first that fails, 0 where none does. The image of the factory passes those
that do not compare it with anything outside it. -/
def Slot.imageResult (c : Slot) (floor : Nat) : Nat :=
  if !c.pristine ∧ !c.formatOk then 2
  else if !c.pristine ∧ !c.keyOk then 3
  else if !c.pristine ∧ !c.sigOk then 4
  else if !c.pristine ∧ !c.hashOk then 5
  else if floor ≠ 0 ∧ c.svn < floor then 6
  else if !c.pristine ∧ !(c.levels.ok && accepts c.levels.mc 0 c.cfgLevel) then 7
  else 0

/-- A record of a configuration group (R487): a register key and its value. -/
abbrev CfgRec := Nat × BitVec 64

/-- The register named by a record, where it is an RWS register. -/
def cfgReg (addr : Nat) : Option RegDef :=
  match regAt addr with
  | some d => if d.rws = 0 then none else some d
  | none => none

/-- Parses the records of one group, up to its END or the end of the list (R487); none where a record is malformed. The fuel
bounds the records. -/
def parseRecords : Nat → List Byte → Option (List CfgRec)
  | 0, _ => none
  | fuel + 1, l =>
    let kind := bytesAt l 0 1
    let count := bytesAt l 2 2
    let addr := bytesAt l 4 4
    let next (n : Nat) (r : List CfgRec) : Option (List CfgRec) := (parseRecords fuel (l.drop n)).map (r ++ ·)
    if l.isEmpty ∨ kind = 0xFF ∨ kind = 4 then some []
    else if kind = 1 then
      (if (cfgReg addr).isSome then next 16 [(addr, BitVec.ofNat 64 (bytesAt l 8 8))] else none)
    else if kind = 2 then
      match cfgReg addr with
      | some d =>
        if d.selKey addr = some (bytesAt l 8 4) then
          next 32 [(addr + bytesAt l 16 8 % 2 ^ 32 * 2 ^ 32, BitVec.ofNat 64 (bytesAt l 24 8))]
        else none
      | none => none
    else if kind = 3 then
      (if (upto count).all fun i => (cfgReg (addr + 8 * i)).isSome then
        next (8 + 8 * count) ((upto count).map fun i => (addr + 8 * i, BitVec.ofNat 64 (bytesAt l (8 + 8 * i) 8)))
      else none)
    else if kind = 5 ∨ kind = 6 then next 16 []
    else none

/-- Applies the records of a group to the NVM values of a half: a later record of a register replaces an earlier one. -/
def applyRecords (t : Table (BitVec 64)) (l : List CfgRec) : Table (BitVec 64) :=
  l.foldl (fun t r => tput t r.1 (r.2 &&& rwsMask r.1)) t

/-- The values of the CFG component of a slot's image (R488); the factory's records are those of the Reset columns. -/
def Slot.cfgComponent (c : Slot) : Option (Table (BitVec 64)) :=
  if c.pristine then some []
  else
    match c.comp 5 with
    | none => none
    | some x => (parseRecords (x.length / 8 + 1) (c.read x.offset x.length)).map (applyRecords [])

/-- The configuration that a slot loads (R488): its active half, or the image's component. -/
def Slot.config (c : Slot) : Option (Table (BitVec 64)) := if c.named then some c.nvm else c.cfgComponent

/-- The bytes of a staged write's record: INDEXED for a register behind a select register, else REG (R487). -/
def recordBytes (k : Nat) : Nat := if k < 2 ^ 32 ∧ ((regAt k).bind (·.sel)).isNone then 16 else 32

/-- The bytes of a group with its END and APPLIED records. -/
def groupBytes (l : Table (BitVec 64)) : Nat := (l.map fun e => recordBytes e.1).sum + 32

end Sys2Proof.Machine
end

