-- ==== Sys2Proof/Machine/Power.lean ====
section
/-! DEFINITION. Feeds, the hold-up pack, ride-through, DRAIN and the power states (R449 to R470, R472, R475, R477). -/

namespace Sys2Proof.Machine

/-- PMU_STATE.STATE values. -/
def pHOOP : Nat := 0
def pACTIVE : Nat := 1
def pRIDE : Nat := 2
def pDRAIN : Nat := 3
def pRETENTION : Nat := 4
def pSTANDBY : Nat := 5
def pLOCK : Nat := 6
def pSTARTING : Nat := 7

/-- The power state (PMU_STATE.STATE): LOCK while the module is in LOCK. -/
def State.pst (s : State) : Nat := if s.locked then pLOCK else s.fld F.PMU_STATE_STATE

/-- Sets the power state. -/
def State.setPst (s : State) (n : Nat) : State := s.setFld F.PMU_STATE_STATE n

/-- The state field of a feed: 0 ABSENT, 1 LOW, 2 GOOD. -/
def feedFld : Feed → Fld
  | .a => F.PMU_STATE_FEEDA
  | .b => F.PMU_STATE_FEEDB

/-- The voltage field of a feed. -/
def feedVolt : Feed → Fld
  | .a => F.PMU_FEED_VA
  | .b => F.PMU_FEED_VB

/-- The cause of a feed that leaves GOOD. -/
def feedCause : Feed → Nat
  | .a => Cause.pmu_FEED_A_LOST
  | .b => Cause.pmu_FEED_B_LOST

/-- The feeds that are GOOD. -/
def State.goodFeeds (s : State) : Nat := countIf [Feed.a, Feed.b] fun f => decide (s.fld (feedFld f) = 2)

/-- Some feed is GOOD, so that input is present (R450). -/
def State.inputGood (s : State) : Bool := decide (0 < s.goodFeeds)

/-- CHEM of the applied pack configuration. -/
def State.chem (s : State) : Nat := s.fld F.PMU_PACK_CFG_CHEM

/-- PMU_STATE.PACK. -/
def State.pack (s : State) : Nat := s.fld F.PMU_STATE_PACK

/-- A slot of the NVM: false A, true B. -/
def State.nvSlot (s : State) (b : Bool) : Slot := if b then s.sys.fwu.b else s.sys.fwu.a

/-- Stores a slot. -/
def State.setSlotRec (s : State) (b : Bool) (c : Slot) : State :=
  if b then { s with sys.fwu.b := c } else { s with sys.fwu.a := c }

/-- Changes a slot. -/
def State.modSlot (s : State) (b : Bool) (f : Slot → Slot) : State := s.setSlotRec b (f (s.nvSlot b))

/-- The booted slot. -/
def State.booted (s : State) : Bool := s.bit F.FWU_BOOT_SLOT

/-- The target slot of an update. -/
def State.target (s : State) : Bool := s.bit F.FWU_STS_TARGET

/-- The slots that a persist commit is written to: the running one, and during TRIAL both (R493, R501). -/
def State.persistSlots (s : State) : List Bool :=
  if s.fld F.FWU_STS_STATE = 4 then [s.target, !s.target] else [s.booted]

/-- What a commit writes to a slot: its fall-back during TRIAL takes what its own format can express (R501). -/
def State.groupFor (s : State) (b : Bool) (l : Table (BitVec 64)) : Table (BitVec 64) :=
  if s.fld F.FWU_STS_STATE = 4 ∧ b ≠ s.target then
    l.filter fun e => !Config.inexpressible (s.nvSlot b).cfgLevel (e.1 % 2 ^ 32)
  else l

/-- A group that would take the active half past 6 MiB (R495). -/
def Slot.compactDue (c : Slot) (l : Table (BitVec 64)) : Bool := c.named && decide (6 * 2 ^ 20 < c.bytes + groupBytes l)

/-- A group goes into a slot's active half, without its APPLIED record: a first one, and one that would pass 6 MiB, goes
into a fresh half behind a snapshot of the NVM values (R487, R493, R495). -/
def Slot.addGroup (c : Slot) (l : Table (BitVec 64)) : Slot :=
  if c.named ∧ !c.compactDue l then { c with bytes := c.bytes + groupBytes l, groups := c.groups + 1, skipped := c.skipped + 1 }
  else
    let snap := c.config.getD []
    { c.withHalf (c.named && !c.half) with
      named := true, nvm := snap, level := c.cfgLevel
      bytes := 16 + groupBytes snap + groupBytes l, groups := 2, skipped := 1 }

/-- A group that was being programmed stays in its half, torn (R488, R507). -/
def State.tornGroup (s : State) : State :=
  if s.fld F.CFG_STS_STATE ≠ 3 then s
  else
    s.persistSlots.foldl (fun s b =>
      let c := s.nvSlot b
      let l := s.groupFor b s.sys.bank.marking
      if c.named ∧ !c.compactDue l then s.setSlotRec b (c.addGroup l) else s) s

/-- The module enters OFF (R445, R465, R470): everything is lost but the NVM, the fuses, the PMU's own record of the reason,
and what the module has already sent. The feeds are as they are. -/
def State.powerOff (s : State) (reason retSec : Nat) : State :=
  let s := s.tornGroup
  let a := s.sys.fwu.a
  let b := s.sys.fwu.b
  let r := State.reset
  let t : State := { r with
    pending := s.pending
    free := s.free
    sys.start.rstHeld := s.sys.start.rstHeld
    link.tx := s.link.tx
    sys.fwu.a := a
    sys.fwu.b := b
    sys.fwu.floor := s.sys.fwu.floor
    sys.fwu.raise := s.sys.fwu.raise
    sys.fwu.fusesSaid := s.sys.fwu.fusesSaid
    sys.mgtOut := s.sys.mgtOut
    sys.smbusOut := s.sys.smbusOut }
  let t := [Feed.a, Feed.b].foldl (fun (t : State) f =>
    (t.setFld (feedFld f) (s.fld (feedFld f))).setFld (feedVolt f) (s.fld (feedVolt f))) t
  (t.setFld F.PMU_LASTOFF_REASON reason).setFld F.PMU_LASTOFF_RETSEC retSec

/-- A check or commit ends refused: the bank is left as it is (R490, R492). -/
def State.endRefused (s : State) (code ref : Nat) : State :=
  let b := s.sys.bank
  let s := (((s.setFld F.CFG_STS_LASTOK 0).setFld F.CFG_STS_CHECKONLY (b2n (wbit b.ctl 1))).setFld F.CFG_STS_REFCODE
    code).setReg F.CFG_REFADDR.key (BitVec.ofNat 64 ref)
  s.setFld F.CFG_STS_STATE (if b.wasEmpty then 0 else 1)

/-- A commit that is scheduled or not yet applied is refused with STATE when input is lost (R496). -/
def State.refusePending (s : State) : State :=
  if [2, 3, 4].contains (s.fld F.CFG_STS_STATE) ∧ wbit s.sys.bank.ctl 0 then s.endRefused 1 0 else s

/-- The pack state changes; a pack that can no longer carry the module ends RTAVAIL (R460, R461). -/
def State.setPack (s : State) (p : Nat) : State :=
  let s := s.setFld F.PMU_STATE_PACK p
  if [2, 3, 4].contains p ∧ !s.sys.power.noDischarge then s
  else if !s.bit F.PMU_STATE_RTAVAIL then s
  else
    let s := s.setFld F.PMU_STATE_RTAVAIL 0
    if s.pst = pACTIVE then s.record (occ bPMU Cause.pmu_RT_UNAVAIL) else s

/-- A running capacity test ends with FCC unchanged; the pack charges again (R458). -/
def State.abortTest (s : State) : State :=
  if s.pack = 6 then { s with sys.power.charged := false }.setPack (if s.sys.power.noCharge then 4 else 2) else s

/-- Every cage port loses its link: the datapath's SerDes are not powered. -/
def State.portsDown (s : State) : State :=
  let down : PortSt := ⟨false, false, false⟩
  { s with link.ports := s.link.ports.map fun e => (e.1, down) }

/-- Every path record becomes BROKEN. -/
def State.breakAll (s : State) : State :=
  let broken (r : PathRec) : PathRec := { r with state := .broken }
  { s with link.paths := s.link.paths.map fun e => (e.1, broken e.2) }

/-- A connection breaks its own view of both paths: its record may carry on for others (R464). -/
def State.breakViews (s : State) (k : Nat) : State :=
  s.modConn k fun c => { c with viewP := some ⟨s.now, false⟩, viewQ := some ⟨s.now, false⟩ }

/-- Every open connection that `held` names enters HOLDING, both its paths broken (R464). -/
def State.holdAll (s : State) (held : Conn → Bool) : State :=
  ((s.link.conns.filter fun e => held e.2 && e.2.holding.isNone).map (·.1)).foldl (fun s k => (s.breakViews k).enterHolding k) s

/-- DRAIN up to its save area: cages stop, migrations are abandoned, accepted writes complete, connections are held
(R463, R464). The save area holds what the state keeps. -/
def State.drain (s : State) (toStby : Bool) : State :=
  let s := if toStby then s else s.record (occ bPMU Cause.pmu_DRAIN)
  let s := (s.incFld F.PMU_CNT_DRAINS).abandonAll.flushAll
  let s := { s with sys.power.toStby := toStby }.setPst pDRAIN
  if toStby then s.holdAll fun c => c.agv
  else (s.holdAll fun _ => true).breakAll

/-- Input is lost: no feed is GOOD (R450, R462, R470). -/
def State.inputLost (s : State) : State :=
  let st := s.pst
  if st = pLOCK ∨ !s.sys.start.powered then s
  else if s.chem = 0 then s.powerOff 1 0
  else if st = pACTIVE then
    if s.bit F.PMU_STATE_RTAVAIL then
      let again : Bool := match s.sys.power.backAt with
        | some t => decide (s.now < t + 10000000000)
        | none => false
      let s := if again then s else { s with sys.power.windowAt := s.now }
      (((s.record (occ bPMU Cause.pmu_INPUT_LOST)).incFld F.PMU_CNT_RIDES).setPst pRIDE).refusePending
    else s.refusePending.drain false
  else if st = pSTANDBY ∧ !s.sys.power.resuming then
    let s := (s.holdAll fun _ => true).breakAll.portsDown
    { s with sys.power.toStby := true, sys.power.retAt := s.now }.setPst pRETENTION |>.incFld F.PMU_CNT_RETENTIONS
  else s

/-- The ride-through window has run out (R462). -/
def State.rideOver (s : State) : Bool := decide (s.sys.power.windowAt + s.fld F.PMU_CFG_RIDE_MS * 1000000 < s.now)

/-- A feed changes its state; leaving GOOD is recorded, ends a capacity test and may lose input (R450, R458). -/
def State.feedTo (s : State) (f : Feed) (st mv : Nat) : State :=
  let left := decide (s.fld (feedFld f) = 2)
  let s := (s.setFld (feedFld f) st).setFld (feedVolt f) (min mv 65535)
  if !left ∨ !s.sys.start.powered then s
  else
    let s := (s.record (occ bPMU (feedCause f))).abortTest
    if s.inputGood then s else s.inputLost

/-- A feed at or above 11.2 V for RETURN_MS becomes GOOD (R449, R462). -/
def State.feedGood (s : State) (f : Feed) (mv : Nat) : State :=
  if s.fld (feedFld f) = 2 ∨ mv < 11200 then s
  else
    let s := (s.setFld (feedFld f) 2).setFld (feedVolt f) (min mv 65535)
    if s.pst ≠ pRIDE then s
    else if s.rideOver then s.drain false
    else { s with sys.power.backAt := some s.now }.setPst pACTIVE

def execFeedGood (feed : Feed) (mv : Nat) (s : State) : Host.Outcome State Fault Refusal := .next (s.feedGood feed mv)

/-- A GOOD feed below 10.8 V, or an ABSENT one at 6.0 V, becomes LOW (R449). -/
def State.feedLow (s : State) (f : Feed) (mv : Nat) : State :=
  let st := s.fld (feedFld f)
  if (st = 2 ∧ mv < 10800) ∨ (st = 0 ∧ 6000 ≤ mv) then s.feedTo f 1 mv else s

def execFeedLow (feed : Feed) (mv : Nat) (s : State) : Host.Outcome State Fault Refusal := .next (s.feedLow feed mv)

/-- A feed below 6.0 V becomes ABSENT (R449). -/
def State.feedAbsent (s : State) (f : Feed) (mv : Nat) : State :=
  if s.fld (feedFld f) ≠ 0 ∧ mv < 6000 then s.feedTo f 0 mv else s

def execFeedAbsent (feed : Feed) (mv : Nat) (s : State) : Host.Outcome State Fault Refusal := .next (s.feedAbsent feed mv)

/-- The charger's cut-back by a feed (R451). -/
def State.setCut (s : State) (f : Feed) (v : Bool) : State :=
  match f with
  | .a => { s with sys.power.cutA := v }
  | .b => { s with sys.power.cutB := v }

/-- One feed carries more than 100 A for 1 ms (R451). -/
def State.overcurrent (s : State) (f : Feed) : State :=
  if s.sys.start.powered then (s.setCut f true).record (occ bPMU Cause.pmu_FEED_OVERCURRENT) else s

def execFeedOvercurrent (feed : Feed) (s : State) : Host.Outcome State Fault Refusal := .next (s.overcurrent feed)

def execCutBackRelease (feed : Feed) (s : State) : Host.Outcome State Fault Refusal := .next (s.setCut feed false)

/-- DIMMs fitted. -/
def State.dimms (s : State) : Nat := ((upto 24).map fun c => s.fld (F.MEM_CFG_DPC c)).sum

/-- RTNEED in mJ (R461): the load over RIDE_MS + 50 ms, and RET_MIN at 1.25 W a DIMM. -/
def State.rtNeed (s : State) (loadW : Nat) : Nat :=
  loadW * (s.fld F.PMU_CFG_RIDE_MS + 50) + s.fld F.PMU_CFG_RET_MIN * 75000 * s.dimms

/-- Tenths of a mJ that the pack offers: SoC × FCC × 0.90 (R461). -/
def State.packEnergy (s : State) : Nat := s.fld F.PMU_PACK_STS_SOC * s.fld F.PMU_PACK_EST_FCC * 324

/-- RTAVAIL (R461). -/
def State.rtAvail (s : State) (loadW : Nat) : Bool :=
  [2, 3, 4].contains s.pack && !s.sys.power.noDischarge && decide (s.rtNeed loadW * 10 ≤ s.packEnergy)
    && decide (loadW * 10000 ≤ s.fld F.PMU_PACK_CFG_IMAX * s.fld F.PMU_PACK_STS_VPACK * 9)

/-- The PMU's 100 ms estimate: what it measures, and RTAVAIL (R457, R461). -/
def State.rtUpdate (s : State) (loadW soc vpackMv : Nat) (ipack10ma : Int) (edlcFcc : Nat) : State :=
  if !s.sys.start.powered then s
  else
    let s := ((s.setFld F.PMU_PACK_STS_VPACK (min vpackMv 65535)).setFld F.PMU_PACK_STS_IPACK
      (satSigned 16 ipack10ma)).setFld F.PMU_PACK_STS_SOC (min soc 10000)
    let s := if s.chem = 2 then s.setFld F.PMU_PACK_EST_FCC (min edlcFcc 65535) else s
    let s := (s.setFld F.PMU_PACK_EST_RTNEED (min 65535 (s.rtNeed loadW / 360000))).setFld F.PMU_PACK_EST_RETMIN
      (min 65535 (s.packEnergy / (max 1 s.dimms * 750000)))
    let was := s.bit F.PMU_STATE_RTAVAIL
    let is_ := s.rtAvail loadW
    let s := s.setFld F.PMU_STATE_RTAVAIL (b2n is_)
    if was ∧ !is_ ∧ s.pst = pACTIVE then s.record (occ bPMU Cause.pmu_RT_UNAVAIL) else s

def execRtavailUpdate (loadW soc vpackMv : Nat) (ipack10ma : Int) (edlcFcc : Nat) (s : State) :
    Host.Outcome State Fault Refusal :=
  .next (s.rtUpdate loadW soc vpackMv ipack10ma edlcFcc)

/-- RIDE_MS has passed since the loss, or the pack's energy runs short (R462). -/
def State.rideExpiry (s : State) (energyShort : Bool) : State :=
  if s.pst = pRIDE ∧ (energyShort ∨ s.sys.power.windowAt + s.fld F.PMU_CFG_RIDE_MS * 1000000 ≤ s.now) then s.drain false
  else s

def execRideExpiry (energyShort : Bool) (s : State) : Host.Outcome State Fault Refusal := .next (s.rideExpiry energyShort)

/-- GBL_STATUS (R519). -/
def State.gblStatus (s : State) : Word :=
  let b (f : Nat → Bool) (n : Nat) : Nat := ((upto n).map fun i => if f i then 2 ^ i else 0).sum
  BitVec.ofNat 64 (b2n (s.bit F.GBL_STATUS_POOL_READY) + 2 * b2n s.locked + 4 * b2n (decide (s.pst = pHOOP))
    + 2 ^ 16 * b (fun p => (s.port p).ready) 16 + 2 ^ 32 * b s.chReady 24)

/-- NTQ_ALERTMAP (R431). -/
def State.alertMap (s : State) : Word := BitVec.ofNat 64 (mapBits s.alert)

/-- The signed value of a byte. -/
def signedByte (n : Nat) : Int := (BitVec.ofNat 8 n).toInt

/-- The greatest of some temperatures; -128 where there is none. -/
def hottest (l : List Int) : Int := l.foldl max (-128)

/-- The hottest DIMM. -/
def State.dimmTop (s : State) : Int :=
  hottest (((upto 24).filter s.chReady).map fun c => signedByte (s.fld (F.MEM_STS_TEMP c)))

/-- The hottest module in a cage that is READY. -/
def State.cageTop (s : State) : Int :=
  hottest (((upto 8).filter fun n => decide (s.fld (F.CAGE_STS_STATE n) = 4)).map fun n => signedByte (s.fld (F.CAGE_STS_TEMP n)))

/-- The datapath is powered, so that the copies of R532 are live. -/
def State.copiesLive (s : State) : Bool :=
  s.sys.start.powered && !([pHOOP, pRETENTION, pSTANDBY].contains s.pst) && decide (2 ≤ s.fld F.FWU_BOOT_PHASE)

/-- Takes the copies that the shelf SMBus holds while the datapath is unpowered (R532). -/
def State.saveShelf (s : State) : State :=
  if !s.copiesLive then s
  else
    { s with
      sys.shelf := { s.sys.shelf with status := s.gblStatus, alerts := s.alertMap, dimm := s.dimmTop, cage := s.cageTop } }

/-- DRAIN completes: RETENTION, STANDBY, or a resume at once (R470, R475). -/
def State.drainDone (s : State) : State :=
  if s.pst ≠ pDRAIN ∨ s.sys.power.resuming then s
  else if !s.inputGood then
    let s := (s.saveShelf.holdAll fun _ => true).breakAll.portsDown
    ({ s with sys.power.retAt := s.now }.setPst pRETENTION).incFld F.PMU_CNT_RETENTIONS
  else if s.sys.power.toStby then s.saveShelf.setPst pSTANDBY
  else { s with sys.power.resuming := true }

def execDrainComplete (s : State) : Host.Outcome State Fault Refusal := .next s.drainDone

/-- A feed has been GOOD for RETURN_MS in RETENTION: the module resumes (R465). -/
def State.returnMs (s : State) (f : Feed) : State :=
  if s.pst = pRETENTION ∧ s.fld (feedFld f) = 2 then { s with sys.power.resuming := true } else s

def execReturnMs (feed : Feed) (s : State) : Host.Outcome State Fault Refusal := .next (s.returnMs feed)

/-- Whole seconds since the entry to RETENTION. -/
def State.retSeconds (s : State) : Nat := (s.now - s.sys.power.retAt) / 1000000000

/-- Pack and LOW feed can no longer carry RETENTION (R465). -/
def State.exhausted (s : State) : State :=
  if s.pst = pRETENTION ∧ !s.inputGood then s.powerOff 2 s.retSeconds else s

def execRetentionExhausted (s : State) : Host.Outcome State Fault Refusal := .next s.exhausted

/-- A PMU_CTL or PMU_RESET write is refused. -/
def State.refusePmu (s : State) (code : Nat) : State := (s.setFld F.PMU_STATE_REFUSED 1).setFld F.PMU_STATE_RFCODE code

/-- STBY_ENTER (R468, R498). -/
def State.stbyEnter (s : State) : State :=
  if s.pst ≠ pACTIVE ∨ s.fld F.FWU_STS_STATE = 3 ∨ s.fld F.FWU_STS_STATE = 5 then s.refusePmu 1
  else if s.home.hoff.phase ≠ .idle then s.refusePmu 2
  else if !s.bit F.PMU_STATE_RTAVAIL ∧ s.goodFeeds < 2 then s.refusePmu 3
  else s.drain true

/-- STBY_EXIT (R466, R534). -/
def State.stbyExit (s : State) : State :=
  if s.pst ≠ pSTANDBY ∨ s.sys.power.hot then s.refusePmu 1 else { s with sys.power.resuming := true }

/-- CAPTEST (R458). -/
def State.capTest (s : State) : State :=
  if s.goodFeeds < 2 ∨ s.pack ≠ 3 ∨ s.fld F.PMU_PACK_STS_SOC ≠ 10000 then s.refusePmu 1 else s.setPack 6

/-- A write of PMU_CTL: each bit acts. -/
def State.wrPmuCtl (s : State) (w : Word) : State :=
  let s := if wbit w 0 then s.stbyEnter else s
  let s := if wbit w 1 then s.stbyExit else s
  let s := if wbit w 2 then s.capTest else s
  if wbit w 3 then s.abortTest else s

def execStbyEnter (src : CsrSrc) (wdata : Word) (s : State) : Host.Outcome State Fault Refusal :=
  .next (s.csrTrig src F.PMU_CTL.key wdata (wbit wdata 0) fun s => s.wrPmuCtl wdata)

def execStbyExit (src : CsrSrc) (wdata : Word) (s : State) : Host.Outcome State Fault Refusal :=
  .next (s.csrTrig src F.PMU_CTL.key wdata (wbit wdata 1) fun s => s.wrPmuCtl wdata)

def execCaptest (src : CsrSrc) (wdata : Word) (s : State) : Host.Outcome State Fault Refusal :=
  .next (s.csrTrig src F.PMU_CTL.key wdata (wbit wdata 2) fun s => s.wrPmuCtl wdata)

def execCapabort (src : CsrSrc) (wdata : Word) (s : State) : Host.Outcome State Fault Refusal :=
  .next (s.csrTrig src F.PMU_CTL.key wdata (wbit wdata 3) fun s => s.wrPmuCtl wdata)

/-- The test has reached the discharge end: FCC, SOH, and a pack that charges again (R458). -/
def State.capDone (s : State) (energyTenthWh : Nat) : State :=
  if s.pack ≠ 6 then s
  else
    let fcc := min energyTenthWh 65535
    let soh := min 1023 (fcc * 100 / max 1 (s.fld F.PMU_PACK_CFG_DESIGN_WH))
    let s := ((s.setFld F.PMU_PACK_EST_FCC fcc).setFld F.PMU_PACK_EST_SOH soh).setFld F.PMU_PACK_STS_SOC 0
    let s := s.record { occ bPMU Cause.pmu_CAPTEST_DONE with txid := fcc / 10 }
    let s := if soh < 10 * s.fld F.PMU_PACK_CFG_EOL_PCT then s.record (occ bPMU Cause.pmu_PACK_EOL) else s
    s.abortTest

def execCaptestDone (energyTenthWh : Nat) (s : State) : Host.Outcome State Fault Refusal := .next (s.capDone energyTenthWh)

/-- What a pack temperature allows (R456). -/
inductive Band where
  | normal
  | limited
  | noCharge
  | hotStop
  | cut
  deriving DecidableEq, Repr

/-- The band of a temperature: each begins at its lower bound; the band below the cut takes its upper bound too. -/
def packBand (chem : Nat) (t : Int) : Band :=
  if chem = 1 then
    if t < -20 then .cut else if t < 0 then .noCharge else if t < 10 then .limited else if t < 40 then .normal
    else if t < 50 then .limited else if t ≤ 60 then .hotStop else .cut
  else if t < 50 then .normal else if t < 65 then .limited else if t ≤ 70 then .hotStop else .cut

/-- The pack is disconnected or has failed (R456, R459, R460): the module falls with it where nothing else carries it. -/
def State.packFault (s : State) : State :=
  if s.pack = 5 then s
  else
    let s := ({ s with sys.power.noDischarge := true }.setPack 5).record (occ bPMU Cause.pmu_PACK_FAULT)
    let low := [Feed.a, Feed.b].any fun f => decide (s.fld (feedFld f) = 1)
    if s.inputGood ∨ s.locked then s
    else if s.pst = pRETENTION ∧ !low then s.powerOff 5 s.retSeconds
    else if s.pst = pRIDE ∨ s.pst = pDRAIN then s.powerOff 3 0
    else s

/-- The once-a-second read of BAT_TS (R456). -/
def State.packTemp (s : State) (temp : Int) (sensorOk : Bool) : State :=
  if !s.sys.start.powered ∨ s.chem = 0 then s
  else
    let p := s.sys.power
    let wasHot := p.noCharge && !p.noDischarge && decide (40 ≤ (BitVec.ofNat 8 (s.fld F.PMU_PACK_STS_TEMP)).toInt)
    let band := if sensorOk then packBand s.chem temp else .cut
    let s := s.setFld F.PMU_PACK_STS_TEMP (satSigned 8 temp)
    let stop := band = .noCharge ∨ band = .hotStop ∨ band = .cut
    let s := { s with sys.power.noCharge := decide stop }
    let live := [2, 3, 4].contains s.pack
    match band with
    | .cut => s.packFault
    | .normal => if s.pack = 4 then s.setPack (if p.charged then 3 else 2) else s
    | .hotStop =>
      let s := if wasHot then s else s.record (occ bPMU Cause.pmu_PACK_TEMP)
      if live then s.setPack 4 else s
    | _ => if live then s.setPack 4 else s

def execPackTempRead (temp : Int) (sensorOk : Bool) (s : State) : Host.Outcome State Fault Refusal :=
  .next (s.packTemp temp sensorOk)

/-- The once-a-second poll of the gauge (R459). -/
def State.gaugePoll (s : State) (answered alarm : Bool) : State :=
  if !s.sys.start.powered ∨ !s.bit F.PMU_PACK_CFG_GAUGE ∨ s.sys.power.gaugeOff then s
  else if answered then
    let s := { s with sys.power.gaugeMiss := 0 }
    if alarm then s.packFault else s
  else
    let n := s.sys.power.gaugeMiss + 1
    let s := { s with sys.power.gaugeMiss := n }
    if n < 3 then s else { s with sys.power.gaugeOff := true }.record (occ bPMU Cause.pmu_GAUGE_LOST)

def execGaugePoll (answered overTemp overCharge : Bool) (s : State) : Host.Outcome State Fault Refusal :=
  .next (s.gaugePoll answered (overTemp || overCharge))

/-- Charging terminates at the end voltage (R454). -/
def State.chargeEnd (s : State) : State :=
  if (s.pack = 2 ∨ s.pack = 4) ∧ !s.sys.power.noCharge then
    let s := { s with sys.power.charged := true }.setFld F.PMU_PACK_STS_SOC 10000
    if s.pack = 2 then s.setPack 3 else s
  else s

def execChargeTermination (s : State) : Host.Outcome State Fault Refusal := .next s.chargeEnd

/-- Charging of a LiFePO4 string starts again below 97 % (R454). -/
def State.chargeAgain (s : State) : State :=
  if s.chem = 1 ∧ s.sys.power.charged ∧ s.fld F.PMU_PACK_STS_SOC < 9700 then
    let s := { s with sys.power.charged := false }
    if s.pack = 3 then s.setPack 2 else s
  else s

def execChargeRestart (s : State) : Host.Outcome State Fault Refusal := .next s.chargeAgain

/-- The pack check completes (R460). -/
def State.packCheck (s : State) (present voltageOk thermistorOk gaugeOk reversed full : Bool) : State :=
  if s.pack ≠ 1 ∨ !s.sys.start.powered then s
  else if s.chem = 0 ∨ !present then s.setPack 0
  else if reversed ∨ !voltageOk ∨ !thermistorOk ∨ (s.bit F.PMU_PACK_CFG_GAUGE ∧ !gaugeOk) then s.packFault
  else
    let s := { s with sys.power.charged := full, sys.power.noDischarge := false }
    s.setPack (if s.sys.power.noCharge then 4 else if full then 3 else 2)

def execPackCheck (present voltageOk thermistorOk gaugeOk reversed full : Bool) (s : State) :
    Host.Outcome State Fault Refusal :=
  .next (s.packCheck present voltageOk thermistorOk gaugeOk reversed full)

/-- The PMU's watchdog restarts it within 50 ms (R23, R434). -/
def State.pmuRestart (s : State) : State :=
  if s.sys.start.powered then s.recordDom (pairKey bPMU Cause.pmu_PMU_RESTART) 50000000 (occ bPMU Cause.pmu_PMU_RESTART) else s

def execPmuRestart (s : State) : Host.Outcome State Fault Refusal := .next s.pmuRestart

/-- The retention island goes outside its limits: LOCK (R435, R477). -/
def State.islandFault (s : State) : State :=
  if s.sys.start.powered ∧ !s.locked then (s.record (occ bPMU Cause.pmu_ISLAND_FAULT)).enterLock else s

def execIslandFault (s : State) : Host.Outcome State Fault Refusal := .next s.islandFault

/-- In LOCK both feeds have stayed below 6.0 V for 1 s: OFF (R445). -/
def State.cycleOut (s : State) : State :=
  if s.locked ∧ s.fld F.PMU_STATE_FEEDA = 0 ∧ s.fld F.PMU_STATE_FEEDB = 0 then s.powerOff 4 0 else s

def execPowerCycleOutOfLock (s : State) : Host.Outcome State Fault Refusal := .next s.cycleOut

end Sys2Proof.Machine
end

