-- ==== Sys2Proof/Machine/Ports.lean ====
section
/-! DEFINITION. Ports and cages: links, port resets, insertion and CMIS (R23, R76, R120, R121, R432, R471, R474, R480,
R537 to R543). -/

namespace Sys2Proof.Machine

/-- Recovery time of a port's redundancy domain (R432). -/
def portRecovery : Nat := 25000

/-- Records a cause of a port in the blocks that describe it; the port is one redundancy domain (R120, R432, R434). -/
def State.recordPort (s : State) (port : Nat) (blocks : List Nat) (code : Nat) : State :=
  blocks.foldl (fun s b => s.recordDom (pairKey (bPort b) 0) portRecovery (occObj (bPort b) code 7 port)) s

/-- Stores a port's link. -/
def State.setPort (s : State) (p : Nat) (v : PortSt) : State := { s with link.ports := tput s.link.ports p v }

/-- The ports of cage `n` (R76). -/
def cagePorts (mode n : Nat) : List Nat := if mode = 1 then (if n < 4 then [n] else []) else if mode = 2 then [2 * n, 2 * n + 1] else [n]

/-- The cage of a port. -/
def cageOf (mode p : Nat) : Nat := if mode = 2 then p / 2 else p

/-- The ports of an engine. -/
def enginePorts (mode e : Nat) : List Nat := if mode = 1 then [e / 2] else if mode = 2 then [2 * e, 2 * e + 1] else [e]

/-- The class D registers of a port block that a port reset returns to their reset value (R474); its cage registers belong
to the cage, and the registers of connections describe what is kept. -/
def State.resetBlock (s : State) (b : Nat) : State :=
  let s := if b = 0 then s.setFld F.CDL_CONN_SEL_CONN 0 else s
  s.setFld (F.CDL_RB_STS_PEAK b) (s.rbUsed b)

/-- Port reset: the link goes down until it is trained again; connections are kept (R471, R474). -/
def State.portReset (s : State) (p : Nat) : State :=
  (portBlocks s.portMode p).foldl (fun s b => s.resetBlock b) (s.setPort p ⟨false, false, false⟩)

/-- A port loses its link (R121). -/
def State.loseLink (s : State) (p : Nat) : State :=
  if (s.port p).link then (s.setPort p ⟨false, false, false⟩).recordPort p (portBlocks s.portMode p) Cause.port_LINK_DOWN else s

def execLinkDown (port : Nat) (s : State) : Host.Outcome State Fault Refusal :=
  if !s.hasPort port then .fault .noSuchUnit else .next (s.loseLink port)

/-- More than 100 uncorrectable codewords in 1 s (R121). -/
def State.fecDegrade (s : State) (p n : Nat) : State :=
  let blocks := portBlocks s.portMode p
  let s := blocks.foldl (fun s b => s.addFld (F.ETH_FEC_CNT_UNCORR b) n) s
  if 100 < n then s.recordPort p blocks Cause.port_FEC_DEGRADE else s

def execFecDegrade (port : Nat) (uncorrectable : BitVec 32) (s : State) : Host.Outcome State Fault Refusal :=
  if !s.hasPort port then .fault .noSuchUnit
  else .next (if (s.port port).link then s.fecDegrade port uncorrectable.toNat else s)

/-- A port loses its link as part of a fault that is recorded already: LINK_DOWN as well (R121), but it is no second fault of
the port's domain (R434; log 131, DEDUCED). -/
def State.linkWith (s : State) (p : Nat) : State :=
  if (s.port p).link then
    (portBlocks s.portMode p).foldl (fun s b => s.record (occObj (bPort b) Cause.port_LINK_DOWN 7 p)) (s.setPort p ⟨false, false, false⟩)
  else s

/-- A port sequencer crashes: a port fault, handled by a port reset of the engine's ports, whose links are lost (R23, R121). -/
def State.sequencerCrash (s : State) (e : Nat) : State :=
  if !s.sys.start.powered ∨ s.locked then s
  else
    (enginePorts s.portMode e).foldl (fun s p => (s.linkWith p).portReset p)
      (s.recordPort ((enginePorts s.portMode e).headD e) [e] Cause.port_SEQUENCER)

def execSequencer (engine : Nat) (s : State) : Host.Outcome State Fault Refusal :=
  if 8 ≤ engine then .fault .noSuchUnit else .next (s.sequencerCrash engine)

/-- The tier engine's sequencer crashes: every unfinished migration is abandoned (R23, R304). -/
def State.tierCrash (s : State) : State :=
  s.abandonAll.recordDom (pairKey bTIER Cause.tier_SEQUENCER) 4000 (occ bTIER Cause.tier_SEQUENCER)

def execTierSequencer (s : State) : Host.Outcome State Fault Refusal := .next (s.act State.tierCrash)

/-- A write of ETH_CTL of block `b`: port resets of its A port, and in 200G mode of its B port (R120, R471). -/
def State.wrEthCtl (s : State) (b : Nat) (w : Word) : State :=
  let m := s.portMode
  let s := if wbit w 0 then s.portReset (if m = 1 then b / 2 else if m = 2 then 2 * b else b) else s
  if wbit w 1 ∧ m = 2 then s.portReset (2 * b + 1) else s

def execResetA (src : CsrSrc) (block : Nat) (wdata : Word) (s : State) : Host.Outcome State Fault Refusal :=
  if 8 ≤ block then .fault .noSuchUnit
  else .next (s.csrTrig src (F.ETH_CTL block).key wdata (wbit wdata 0) fun s => s.wrEthCtl block wdata)

def execResetB (src : CsrSrc) (block : Nat) (wdata : Word) (s : State) : Host.Outcome State Fault Refusal :=
  if 8 ≤ block then .fault .noSuchUnit
  else .next (s.csrTrig src (F.ETH_CTL block).key wdata (wbit wdata 1) fun s => s.wrEthCtl block wdata)

/-- CAGE_STS.STATE values. -/
def cEMPTY : Nat := 0
def cPOWERING : Nat := 1
def cLOWPWR : Nat := 2
def cCONFIG : Nat := 3
def cREADY : Nat := 4
def cFAULT : Nat := 5
def cOFF : Nat := 6
def cHOSTOWN : Nat := 7

/-- CAGE_STS.FAULT values. -/
def cfOVERCURRENT : Nat := 1
def cfPOWER : Nat := 2
def cfNOAPP : Nat := 3
def cfTIMEOUT : Nat := 4
def cfCMIS : Nat := 5
def cfTEMP : Nat := 6

/-- A cage. -/
def State.cage (s : State) (n : Nat) : Cage := (tget s.sys.cages n).getD ⟨none, 0, 0, false⟩

/-- Stores a cage. -/
def State.setCage (s : State) (n : Nat) (c : Cage) : State := { s with sys.cages := tput s.sys.cages n c }

/-- CAGE_STS.STATE. -/
def State.cageSt (s : State) (n : Nat) : Nat := s.fld (F.CAGE_STS_STATE n)

/-- Sets CAGE_STS.STATE. -/
def State.setCageSt (s : State) (n st : Nat) : State := s.setFld (F.CAGE_STS_STATE n) st

/-- The port mode uses the cage (R76). -/
def State.cageUsed (s : State) (n : Nat) : Bool := !(cagePorts s.portMode n).isEmpty

/-- The cage may be powered (R537). -/
def State.cageMay (s : State) (n : Nat) : Bool := s.cageUsed n && s.bit (F.CAGE_CTL_EN n)

/-- The cage's power budget in 0.25 W (R537). -/
def State.cageBudget (s : State) (n : Nat) : Nat := if !s.cageUsed n then 0 else if s.portMode = 1 then 64 else 48

/-- The cages are powered and their sequences run. -/
def State.cagesLive (s : State) : Bool :=
  s.sys.start.powered && !s.locked && (decide (s.pst = pACTIVE) || decide (s.pst = pRIDE) || decide (s.pst = pSTANDBY)
    || (decide (s.pst = pSTARTING) && decide (4 ≤ s.fld F.FWU_BOOT_PHASE)) || s.sys.power.resuming
    || (decide (s.pst = pDRAIN) && s.sys.power.toStby))

/-- The cage is powered off: what it showed of its module is gone, and its ports lose their links. -/
def State.cageOff (s : State) (n : Nat) : State :=
  let s := s.setCage n { s.cage n with step := 0, since := s.now, out := false }
  let s := (s.setReg (F.CAGE_ID n).key 0).setReg (F.CAGE_STS n).key
    (BitVec.ofNat 64 (s.cageSt n + 8 * s.fld (F.CAGE_STS_FAULT n)))
  (cagePorts s.portMode n).foldl (fun s p => s.setPort p ⟨false, false, false⟩) s

/-- Powers a cage off as its ports lose alignment: LINK_DOWN where a link was up (R121, R540). -/
def State.cageDrop (s : State) (n : Nat) : State :=
  ((cagePorts s.portMode n).foldl (fun s p => s.loseLink p) s).cageOff n

/-- A failing step or an alarm leaves the cage in FAULT, powered off, its ports' links lost (R121, R538, R539). -/
def State.cageFault (s : State) (n f : Nat) : State :=
  let s := s.recordPort ((cagePorts s.portMode n).headD n) [n] Cause.port_CAGE_FAULT
  let s := (cagePorts s.portMode n).foldl (fun s p => s.linkWith p) s
  ((s.cageOff n).setCageSt n cFAULT).setFld (F.CAGE_STS_FAULT n) f

/-- Steps 3 to 6 of the insertion sequence with what the module answers (R538). -/
def State.cageProbe (s : State) (n : Nat) (i : CmisInfo) : State :=
  let wait (s : State) (step : Nat) (out : Bool) : State :=
    s.setCage n { s.cage n with step := step, since := s.now, out := out }
  if !i.answers then wait (s.setCageSt n cPOWERING) 3 false
  else
    let s := (((s.setCageSt n cLOWPWR).setFld (F.CAGE_ID_IDENT n) i.ident.toNat).setFld (F.CAGE_ID_CMISREV n)
      i.rev.toNat).setFld (F.CAGE_ID_MEDIA n) i.media.toNat
    let s := (s.setFld (F.CAGE_STS_MAXPOWER n) i.maxPower.toNat).setFld (F.CAGE_STS_COPPER n) (b2n i.copper)
    if i.ident ≠ 0x19 ∨ i.rev.toNat / 16 ≠ 5 then s.cageFault n cfNOAPP
    else if s.cageBudget n < i.maxPower.toNat then s.cageFault n cfPOWER
    else if i.copper then wait s 9 true
    else wait (s.setCageSt n cCONFIG) 7 true

/-- The insertion sequence from its start, for a plugged module (R537, R538, R543). -/
def State.cageInsert (s : State) (n : Nat) (i : CmisInfo) : State :=
  let s := s.setCage n ⟨some i, 0, s.now, false⟩
  if s.bit (F.CAGE_CTL_HOSTOWN n) then s
  else
    let s := s.setFld (F.CAGE_STS_FAULT n) 0
    if !s.cageMay n then s.setCageSt n cOFF else s.cageProbe n i

/-- What a cage shows with no sequence running: EMPTY, or OFF where it may not be powered; a plugged module is brought
up. -/
def State.cageStart (s : State) (n : Nat) : State :=
  match (s.cage n).info with
  | some i => s.cageInsert n i
  | none => (s.setFld (F.CAGE_STS_FAULT n) 0).setCageSt n (if s.cageMay n then cEMPTY else cOFF)

/-- Presence has been stable for 100 ms (R538). -/
def State.presence (s : State) (n : Nat) (i : CmisInfo) : State :=
  if !s.cagesLive ∨ (s.cage n).info.isSome then s else s.cageInsert n i

def execPresence (cage : Nat) (info : CmisInfo) (s : State) : Host.Outcome State Fault Refusal :=
  if 8 ≤ cage then .fault .noSuchUnit else .next (s.presence cage info)

/-- ModuleReady: the application is selected (R538, step 8). -/
def State.moduleReady (s : State) (n : Nat) : State :=
  let c := s.cage n
  match c.info with
  | some i =>
    if !s.cagesLive ∨ c.step ≠ 7 then s
    else if i.appsel = 0 then s.cageFault n cfNOAPP
    else (s.setFld (F.CAGE_ID_APPSEL n) i.appsel.toNat).setCage n { c with step := 8, since := s.now }
  | none => s

def execModuleReady (cage : Nat) (s : State) : Host.Outcome State Fault Refusal :=
  if 8 ≤ cage then .fault .noSuchUnit else .next (s.moduleReady cage)

/-- DPActivated: the links are trained (R538, step 9). -/
def State.dpActivated (s : State) (n : Nat) : State :=
  let c := s.cage n
  if s.cagesLive ∧ c.step = 8 then s.setCage n { c with step := 9, since := s.now } else s

def execDpActivated (cage : Nat) (s : State) : Host.Outcome State Fault Refusal :=
  if 8 ≤ cage then .fault .noSuchUnit else .next (s.dpActivated cage)

/-- The PCS of a port aligns: its link is up, READY while POOL_READY is 1; with every link of its cage trained the cage is
READY (R480, R538). -/
def State.linkUp (s : State) (p : Nat) : State :=
  let n := cageOf s.portMode p
  let c := s.cage n
  if !s.cagesLive ∨ (s.port p).link ∨ !(decide (c.step = 9) || decide (s.cageSt n = cREADY)) then s
  else
    let s := s.setPort p ⟨true, true, s.bit F.GBL_STATUS_POOL_READY⟩
    if c.step = 9 ∧ (cagePorts s.portMode n).all (fun q => (s.port q).link) then
      (s.setCage n { c with step := 0 }).setCageSt n cREADY
    else s

def execLinkUp (port : Nat) (s : State) : Host.Outcome State Fault Refusal :=
  if !s.hasPort port then .fault .noSuchUnit else .next (s.linkUp port)

/-- A step of the sequence is not answered in time: at least 2 s, plus what the module advertises (R538). -/
def State.cageTimeout (s : State) (n : Nat) : State :=
  let c := s.cage n
  if !s.cagesLive ∨ s.now < c.since + 2000000000 then s
  else if c.step = 3 then s.cageFault n cfCMIS
  else if c.step = 7 ∨ c.step = 8 then s.cageFault n cfTIMEOUT
  else s

def execCageTimeout (cage : Nat) (s : State) : Host.Outcome State Fault Refusal :=
  if 8 ≤ cage then .fault .noSuchUnit else .next (s.cageTimeout cage)

/-- The poll of a READY module (R539). -/
def State.cmisPoll (s : State) (n : Nat) (temp : Int) (int highTemp los : Bool) : State :=
  if !s.cagesLive ∨ s.cageSt n ≠ cREADY then s
  else
    let s := (s.setFld (F.CAGE_STS_TEMP n) (satSigned 8 temp)).setFld (F.CAGE_STS_INT n) (b2n int)
    if highTemp then s.cageFault n cfTEMP
    else if los then (cagePorts s.portMode n).foldl (fun s p => s.loseLink p) s
    else s

def execCmisPoll (cage : Nat) (temp : Int) (intFlag highTemp losOrLol : Bool) (s : State) :
    Host.Outcome State Fault Refusal :=
  if 8 ≤ cage then .fault .noSuchUnit else .next (s.cmisPoll cage temp intFlag highTemp losOrLol)

/-- The module is pulled out (R540, R543): port cause 0x01 only, where the cage was powered. -/
def State.presenceLost (s : State) (n : Nat) : State :=
  let st := s.cageSt n
  if (s.cage n).info.isNone ∨ !s.sys.start.powered then s
  else
    let lit := decide (1 ≤ st) && decide (st ≤ 4) || decide (st = cHOSTOWN)
    let ports := cagePorts s.portMode n
    let s := s.cageOff n
    let s := s.setCage n { s.cage n with info := none }
    let port (b : Nat) : Nat := (ports.find? fun p => (portBlocks s.portMode p).contains b).getD n
    let s := if lit ∧ !s.locked then (ports.flatMap (portBlocks s.portMode)).eraseDups.foldl
        (fun s b => s.recordPort (port b) [b] Cause.port_LINK_DOWN) s else s
    if s.bit (F.CAGE_CTL_HOSTOWN n) then (s.setFld (F.CAGE_STS_FAULT n) 0).setCageSt n cHOSTOWN else s.cageStart n

def execPresenceLost (cage : Nat) (s : State) : Host.Outcome State Fault Refusal :=
  if 8 ≤ cage then .fault .noSuchUnit else .next (s.presenceLost cage)

/-- The cage's load is above its limit for 1 ms (R537, R543). -/
def State.cageOver (s : State) (n : Nat) : State :=
  let st := s.cageSt n
  if s.cagesLive ∧ (s.cage n).info.isSome ∧ ((1 ≤ st ∧ st ≤ 4) ∨ st = cHOSTOWN) then s.cageFault n cfOVERCURRENT else s

def execCageOvercurrent (cage : Nat) (s : State) : Host.Outcome State Fault Refusal :=
  if 8 ≤ cage then .fault .noSuchUnit else .next (s.cageOver cage)

/-- The host takes a cage: its ports go through port reset and stay out of service (R541). -/
def State.hostTakes (s : State) (n : Nat) : State :=
  let st := s.cageSt n
  if st = cFAULT ∨ st = cOFF then s
  else
    let s := (cagePorts s.portMode n).foldl (fun s p => (s.loseLink p).portReset p) s
    (s.setCage n { s.cage n with step := 0 }).setCageSt n cHOSTOWN

/-- The host gives a cage back: the sequence runs from step 3 (R541). -/
def State.hostGives (s : State) (n : Nat) : State :=
  if s.cageSt n = cFAULT then s
  else
    match (s.cage n).info with
    | some i => if s.cageMay n then s.cageProbe n i else s.setCageSt n cOFF
    | none => s.cageStart n

/-- A write of CAGE_CTL; `own` is HOSTOWN before it. RESET powers the cage off and runs the sequence again (R540, R541). -/
def State.wrCageCtl (s : State) (n : Nat) (own : Bool) (w : Word) : State :=
  let now_ := s.bit (F.CAGE_CTL_HOSTOWN n)
  let s := if now_ ∧ !own then s.hostTakes n else if own ∧ !now_ then s.hostGives n else s
  if wbit w 2 ∧ !now_ then (s.cageDrop n).cageStart n else s

/-- Stores and performs a write of CAGE_CTL. -/
def State.putCageCtl (s : State) (n : Nat) (w : Word) : State :=
  let own := s.bit (F.CAGE_CTL_HOSTOWN n)
  match regAt (F.CAGE_CTL n).key with
  | some d => (s.storeReg d (F.CAGE_CTL n).key w).wrCageCtl n own w
  | none => s

/-- A write of CAGE_CTL as a CSR request. -/
def State.csrCageCtl (s : State) (src : CsrSrc) (n : Nat) (w : Word) : State :=
  s.csrDo (writeReq src (F.CAGE_CTL n).key w) fun s => (s.putCageCtl n w, ⟨0, 0, 0⟩)

def execCageReset (src : CsrSrc) (cage : Nat) (wdata : Word) (s : State) : Host.Outcome State Fault Refusal :=
  if 8 ≤ cage then .fault .noSuchUnit else .next (if wbit wdata 2 then s.csrCageCtl src cage wdata else s)

def execHostown (src : CsrSrc) (cage : Nat) (wdata : Word) (s : State) : Host.Outcome State Fault Refusal :=
  if 8 ≤ cage then .fault .noSuchUnit else .next (s.csrCageCtl src cage wdata)

/-- RESULT of a CMIS transfer that cannot start; 0 where it starts (R541). -/
def State.cmisResult (s : State) (n : Nat) : Nat :=
  let len := s.fld (F.CAGE_CMIS_CTL_LEN n)
  let st := s.cageSt n
  if len = 0 ∨ 8 < len ∨ 256 < s.fld (F.CAGE_CMIS_CTL_OFFSET n) + len then 4
  else if (s.cage n).info.isNone then 3
  else if s.bit (F.CAGE_CMIS_CTL_WRITE n) ∧ !s.bit (F.CAGE_CTL_HOSTOWN n) then 2
  else if st = cLOWPWR ∨ st = cCONFIG ∨ st = cREADY ∨ st = cHOSTOWN then 0
  else 1

/-- A write of CAGE_CMIS_CTL: with GO 1 while BUSY it is ignored whole (R541). -/
def State.putCmis (s : State) (n : Nat) (w : Word) : State :=
  if wbit w 0 ∧ s.bit (F.CAGE_CMIS_CTL_BUSY n) then s.setFld (F.CAGE_CMIS_CTL_REFUSED n) 1
  else
    match regAt (F.CAGE_CMIS_CTL n).key with
    | some d =>
      let s := s.storeReg d (F.CAGE_CMIS_CTL n).key w
      if !wbit w 0 then s
      else
        let r := s.cmisResult n
        if r = 0 then s.setFld (F.CAGE_CMIS_CTL_BUSY n) 1 else s.setFld (F.CAGE_CMIS_CTL_RESULT n) r
    | none => s

def execCmisTransfer (src : CsrSrc) (cage : Nat) (wdata : Word) (s : State) : Host.Outcome State Fault Refusal :=
  if 8 ≤ cage then .fault .noSuchUnit
  else .next (if wbit wdata 0 then
      s.csrDo (writeReq src (F.CAGE_CMIS_CTL cage).key wdata) fun s => (s.putCmis cage wdata, ⟨0, 0, 0⟩)
    else s)

/-- A CMIS transfer ends: the bytes read, or NOACK (R541, R543). -/
def State.cmisDone (s : State) (n : Nat) (noAck : Bool) (rdata : Word) : State :=
  if !s.bit (F.CAGE_CMIS_CTL_BUSY n) then s
  else
    let s := s.setFld (F.CAGE_CMIS_CTL_BUSY n) 0
    if noAck ∨ (s.cage n).info.isNone then s.setFld (F.CAGE_CMIS_CTL_RESULT n) 1
    else
      let s := s.setFld (F.CAGE_CMIS_CTL_RESULT n) 0
      if s.bit (F.CAGE_CMIS_CTL_WRITE n) then s
      else
        let m := ones64 (8 * s.fld (F.CAGE_CMIS_CTL_LEN n))
        let k := (F.CAGE_CMIS_DATA n).key
        s.setReg k ((s.reg k &&& ~~~m) ||| (rdata &&& m))

def execCmisTransferDone (cage : Nat) (noAck : Bool) (rdata : Word) (s : State) : Host.Outcome State Fault Refusal :=
  if 8 ≤ cage then .fault .noSuchUnit else .next (s.cmisDone cage noAck rdata)

end Sys2Proof.Machine
end

