-- ==== Sys2Proof/Machine/Start.lean ====
section
/-! DEFINITION. Start, resets and the end of a resume (R23, R45, R77, R248, R329, R333 to R340, R369, R371, R390, R413, R444,
R466, R467, R471 to R474, R478 to R488, R500 to R507, R517, R529, R544). -/

namespace Sys2Proof.Machine

/-- Stores the RESULT of a slot at this start. -/
def State.setResult (s : State) (b : Bool) (r : Nat) : State :=
  if b then { s with sys.fwu.result1 := r } else { s with sys.fwu.result0 := r }

/-- The bits of a register that a start of this kind keeps (R471, R474): the PMU keeps what no load and no clearing
reaches; what describes DRAM that is kept stays. -/
def RegDef.kept (d : RegDef) (key kind : Nat) : Word :=
  let k := d.keep
  if key / 0x10000 % 0x10000 = bPMU then ~~~(BitVec.ofNat 64 (k.n ||| k.p))
  else if kind = 0 then 0
  else if kind = 1 then BitVec.ofNat 64 (k.s ||| k.m)
  else if d.name = "MEM_CFG" ∨ d.name = "MEM_STS" then BitVec.allOnes 64
  else BitVec.ofNat 64 (k.s ||| k.m ||| k.k ||| (if d.name = "TRN_CFG" then 0xFFFFFFF0 else 0))

/-- A register after the reset of a start. -/
def keptReg (kind : Nat) (e : Nat × Word) : Word :=
  match regAt (e.1 % 2 ^ 32) with
  | some d => let m := d.kept e.1 kind; (e.2 &&& m) ||| (regReset e.1 &&& ~~~m)
  | none => regReset e.1

/-- Every register that the reset reaches takes its reset value (R474). -/
def State.resetRegs (s : State) (kind : Nat) : State :=
  { s with regs := (s.regs.filter fun e => keptReg kind e != regReset e.1).map fun e => (e.1, keptReg kind e) }

/-- Memory after a warm reset: DRAM and the regions in it are kept, and keys; SRAM starts empty (R471, R478). Frames of
replicas that this module held for others are free again. -/
def State.warmMem (s : State) : Mem :=
  let s := s.mem.replicas.foldl (fun s r => s.freeFrame r.frame) s
  { State.reset.mem with
    dram := s.mem.dram, dramErr := s.mem.dramErr, tmap := s.mem.tmap, tmapBad := s.mem.tmapBad, etr := s.mem.etr
    etrBad := s.mem.etrBad, ftab := s.mem.ftab, atab := s.mem.atab, keyStore := s.mem.keyStore
    keyStoreBad := s.mem.keyStoreBad, keys := s.mem.keys, kek := s.mem.kek, lgen := s.mem.lgen, lenderGens := s.mem.lenderGens
    dramAt := s.mem.dramAt, layout := s.mem.layout, lostSegs := s.mem.lostSegs
    spareBorrowed := s.mem.spareBorrowed, openBins := s.mem.openBins, heatEpoch := s.mem.heatEpoch, alarmWin := s.minute }

/-- A draw of the hardware random source is never 0 (R248, R297). -/
def nonZero (v : BitVec 32) : BitVec 32 := if v = 0 then 1 else v

/-- Memory after a module reset: DRAM stands, undecipherable; every table and region is filled anew at step 6 (R390, R474,
R478). -/
def State.moduleMem (s : State) (lgen : BitVec 32) : Mem :=
  { State.reset.mem with dram := s.mem.dram, dramErr := s.mem.dramErr, dramAt := s.mem.dramAt, lgen := nonZero lgen }

/-- Step 6 of a cold start or module reset: the reserved regions are laid out and written in full, so that no codeword in
them is wrong (R337, R478). -/
def State.fillRegions (s : State) : State :=
  let s := s.layOut
  let outside (key : Nat) : Bool := s.tenantFrame (key / 64)
  { s with
    mem.dramErr := s.mem.dramErr.filter fun e => outside e.1
    mem.dramAt := s.mem.dramAt.filter fun e => outside e.1 }

/-- Metering after a module reset: each tenant goes on from its checkpoint (R413). -/
def State.moduleMeter (s : State) : Meter :=
  let ten (e : Nat × BitVec 1024) : Nat × MtrTen :=
    (e.1, if s.meter.bad.contains e.1 then freshTen 0 else tenOfRecord e.2)
  { State.reset.meter with
    tens := s.meter.check.map ten, ring := s.meter.ring, check := s.meter.check, bad := s.meter.bad }

/-- The causes of checkpoints that could not be read (R413). -/
def State.recordGaps (s : State) : State :=
  (s.meter.bad.filter fun t => decide (t < 4096)).foldl (fun s _ => s.record (occ bMTR Cause.mtr_LEDGER_UE)) s

/-- Step 1 of a start of this kind (0 cold, 1 module reset, 2 warm reset): what the reset reaches takes its reset value, and
RGEN is drawn (R471, R474, R478, R517, R530). Before a warm reset every accepted write is completed. -/
def State.beginStart (s : State) (kind : Nat) (inp : StartIn) : State :=
  let s := if kind = 2 then s.abandonAll.flushAll else s
  let s := s.saveShelf.tornGroup
  let warm := decide (kind = 2)
  let base := State.reset
  let st := s.sys.start
  let start_ : Start :=
    if warm then { st with kind := kind, inp := some inp }
    else { st with powered := true, kind := kind, shelfId := inp.shelfId, hoopLow := !inp.hoopN, inp := some inp }
  let csr_ : CsrSt := { base.sys.csr with resets := s.sys.csr.resets + 1 }
  let power_ : Power := { s.sys.power with toStby := false, backAt := none, resuming := false }
  let ptp_ : Ptp := if warm then { s.sys.ptp with good := 0, mayStep := false } else base.sys.ptp
  let now_ := if warm then s.now else 0
  let bare (e : Nat × Cage) : Nat × Cage := (e.1, ⟨e.2.info, 0, now_, false⟩)
  let fwu_ : Fwu := { s.sys.fwu with op := 0, warm := false, newCfg := false, failed := false, peer := none, packet := [] }
  let t := s.resetRegs kind
  let t : State := { t with
    now := now_
    ntq := base.ntq
    samples := []
    link := { base.link with tx := s.link.tx, opens := s.link.opens }
    home := { base.home with rgen := nonZero inp.rgen }
    mem := if warm then s.warmMem else if kind = 1 then s.moduleMem inp.lgen else { base.mem with lgen := nonZero inp.lgen }
    meter := if warm then s.meter else if kind = 1 then s.moduleMeter else base.meter
    sys := { s.sys with
      power := power_, start := start_, bank := base.sys.bank, fwu := fwu_, csr := csr_, recov := [], test := none, ptp := ptp_
      cages := s.sys.cages.map bare } }
  let t := ((t.setPst pSTARTING).setFld F.FWU_BOOT_PHASE 1).clearNtq
  if kind = 1 then t.recordGaps else t

/-- The key of the order in which a slot is booted; none for one that is never considered (R484). -/
def Slot.bootRank (c : Slot) : Option Nat :=
  if c.once then some 0 else if c.state = 3 then some 1 else if c.state = 1 ∨ c.state = 2 then some 2 else none

/-- The slots in the order in which the module considers them (R484). -/
def State.bootOrder (s : State) : List Bool :=
  let a := s.nvSlot false
  let b := s.nvSlot true
  match a.bootRank, b.bootRank with
  | some x, some y => if y < x ∨ (x = y ∧ a.seq < b.seq) then [true, false] else [false, true]
  | some _, none => [false]
  | none, some _ => [true]
  | none, none => []

/-- Speed of a channel that holds `dpc` DIMMs (R25, R334). -/
def speedOf (dpc : Nat) : Nat := if dpc = 1 then 6400 else 5600

/-- The part of a DIMM that R333 compares, with the DIMMs of the channel. -/
def popPart (p : ChanPop) : Nat × Nat × Nat × Nat := (p.dpc, p.ranks, p.stack, p.capGib)

/-- The SPD of every socket of the channel was read. -/
def popRead (p : ChanPop) : Bool := !p.missing && !p.spdBad

/-- The reference part: what the most channels share, on the lowest channel (R339). -/
def refPart (pop : List ChanPop) : Option (Nat × Nat × Nat × Nat) :=
  let cand := (pop.filter popRead).map popPart
  cand.foldl (fun best p =>
    match best with
    | some q => if countIf cand (· == q) < countIf cand (· == p) then some p else some q
    | none => some p) none

/-- Why a channel is left out (MEM_STS.REASON); 0 where it is in service (R333, R334, R338, R339). -/
def leftOut (pop : List ChanPop) (p : ChanPop) : Nat :=
  if p.missing then 1
  else if p.spdBad then 2
  else if p.unsupported ∨ !([32, 64, 96, 128, 256].contains p.capGib) ∨ !within 1 2 p.dpc ∨ !within 1 2 p.ranks ∨ 2 < p.stack
      ∨ refPart pop ≠ some (popPart p) ∨ p.speed < speedOf p.dpc then 3
  else if p.trainFail then 4
  else 0

/-- A channel that start finds empty. -/
def noPop : ChanPop := ⟨0, 0, 0, 0, 0, true, false, false, false⟩

/-- MEM_CFG of every channel, as the SPDs give it (R335). SPEED is 6400 where each of the group's four channels holds one
DIMM, 5600 otherwise: R25 names no rate for a group in which a channel holds none and none holds two (log 172, DESIGN
CHOICE). -/
def State.readPop (s : State) (pop : List ChanPop) : State :=
  (upto 24).foldl (fun s c =>
    let p := pop.getD c noPop
    let q := if p.spdBad then noPop else p
    let g := (upto 4).all fun i => decide ((pop.getD (c / 4 * 4 + i) noPop).dpc = 1)
    s.setReg (F.MEM_CFG c).key (BitVec.ofNat 64
      (p.dpc % 4 + 4 * (q.ranks % 4) + 16 * (q.stack % 4) + 64 * (q.capGib % 1024) + 2 ^ 16 * (if g then 6400 else 5600)))) s

/-- A load: every register takes its NVM value; the port mode takes effect at every start, the size of the translation region
where the region is filled anew (R77, R488, R544). -/
def State.loadConfig (s : State) (t : Table (BitVec 64)) : State :=
  let s := s.overlayRegs t
  let s := s.setFld F.ETH_MODE_APPLIED (s.fld F.ETH_MODE_MODE)
  if s.sys.start.kind = 2 then s else s.setFld F.TRN_CFG_ETR_APPLIED (s.fld F.TRN_CFG_ETR_SIZE)

/-- RESULT of a slot at start (R486); 0 where it may boot. -/
def State.verifySlot (s : State) (b : Bool) (inp : StartIn) : Nat :=
  let c := s.nvSlot b
  if c.state = 0 then 1
  else
    let r := c.imageResult s.sys.fwu.floor
    if r ≠ 0 then r
    else
      match c.config with
      | none => 8
      | some t =>
        let v := s.loadConfig t
        let v := if s.sys.start.kind = 2 then v else v.readPop inp.pop
        if (loadChecks v t).isSome then 8 else 0

/-- Step 2: the slots in order, up to the first that passes (R484). -/
def State.tryBoot (inp : StartIn) : List Bool → State → State × Option (Bool × Bool)
  | [], s => (s, none)
  | b :: l, s =>
    let once := (s.nvSlot b).once
    let s := if once then s.modSlot b fun c => c.withOnce false else s
    let r := s.verifySlot b inp
    let s := s.setResult b r
    if r = 0 then (s, some (b, once)) else State.tryBoot inp l (s.record { occ bFWU Cause.fwu_SLOT_BAD with txid := r })

/-- The floor is 64, and an image with a greater SVN verifies (R503). -/
def State.fusesOut (s : State) (svn : Nat) : State :=
  if s.sys.fwu.floor = 64 ∧ 64 < svn ∧ !s.sys.fwu.fusesSaid then
    { s with sys.fwu.fusesSaid := true }.record (occ bFWU Cause.fwu_FUSES_OUT)
  else s

/-- Blows fuses until the floor equals the lesser of the SVN and 64; a fuse that does not blow ends it (R503). -/
def State.raiseFloor (s : State) (svn : Nat) (fail : Bool) : State :=
  if min svn 64 ≤ s.sys.fwu.floor then s
  else if fail then s.record (occ bFWU Cause.fwu_FUSE_FAIL)
  else { s with sys.fwu.floor := min svn 64 }

/-- The module enters Hoop mode (R504): class K is zeroised with the keys (R390). -/
def State.enterHoop (s : State) : State :=
  let s := ({ s with mem.keys := [], mem.kek := none } : State).zeroDues
  (((s.setFld F.XTS_STS_KEKV 0).setFld F.XTS_STS_KEKID 0).setPst pHOOP).record (occ bFWU Cause.fwu_HOOP)

/-- Boots a slot: its configuration is applied (R488); a slot booted by an update's ONCE runs on trial (R500). -/
def State.bootSlot (s : State) (b once fallback : Bool) : State :=
  let c := s.nvSlot b
  let s := s.loadConfig (c.config.getD [])
  let s := ((s.setFld F.FWU_BOOT_SLOT (b2n b)).setFld F.FWU_BOOT_FALLBACK (b2n fallback)).setFld F.FWU_STS_TARGET (b2n !b)
  let s := if !c.named then s
    else (upto c.skipped).foldl (fun s _ => s.record (occ bCFG Cause.cfg_GROUP_SKIPPED)) s
  if !once then s
  else
    let s := ((s.modSlot b fun c => c.withState 2).setFld F.FWU_STS_STATE 4).setFld F.FWU_STS_TARGET (b2n b)
    s.record (occ bFWU Cause.fwu_TRIAL)

/-- One cause for every set bit of a number below `n`. -/
def State.recordBits (s : State) (v n : Nat) (o : Occ) : State := (setBits v n).foldl (fun s _ => s.record o) s

/-- The known-answer tests of step 3 (R329, R369). -/
def State.selfTests (s : State) (inp : StartIn) : State :=
  let c := inp.compFail.toNat
  let d := inp.decFail.toNat
  let p := inp.pipeFail.toNat
  let s := (((s.setFld F.CMP_ENGSTS_COMP0 (15 - c % 16)).setFld F.CMP_ENGSTS_COMP1 (15 - c / 16 % 16)).setFld
    F.CMP_ENGSTS_DEC0 (255 - d % 256)).setFld F.CMP_ENGSTS_DEC1 (255 - d / 256 % 256)
  let s := s.setFld F.XTS_PIPES_INSERV (2 ^ 32 - 1 - p)
  let s := (s.recordBits c 8 (occ bCMP Cause.cmp_BIST_FAIL)).recordBits d 16 (occ bCMP Cause.cmp_BIST_FAIL)
  let s := [0, 1].foldl (fun s die => if s.decUp die = 0 then s.record (occ bCMP Cause.cmp_NO_DECOMP) else s) s
  let s := [0, 1].foldl (fun s die => if s.compUp die = 0 then s.record (occ bCMP Cause.cmp_NO_COMP) else s) s
  let s := s.recordBits p 32 (occ bXTS Cause.xts_PIPE_BIST)
  [0, 1].foldl (fun s die => if s.pipesUp die = 0 then s.record (occ bXTS Cause.xts_NO_PIPE) else s) s

/-- Steps 3 and 4: tests, keys, and cages powered (R371, R373, R478). -/
def State.afterBoot (s : State) (inp : StartIn) : State :=
  let s := (s.setFld F.FWU_BOOT_PHASE 3).selfTests inp
  let s := if s.sys.start.kind = 2 then s.setFld F.XTS_STS_PVSET (b2n s.provSet) else s.deriveSlot0.deriveKek
  ((upto 8).foldl (fun s n => s.cageStart n) (s.setFld F.FWU_BOOT_PHASE 4)).setFld F.FWU_BOOT_PHASE 5

/-- Steps 2 to 4 of a start (R478, R484, R504). -/
def State.bootSteps (s : State) (inp : StartIn) : State :=
  let low := s.sys.start.hoopLow
  let s := (s.setFld F.FWU_BOOT_PHASE 2).setFld F.FWU_BOOT_HOOPSTRAP (b2n low)
  if low then s.enterHoop
  else
    let s := [false, true].foldl (fun s b => if (s.nvSlot b).state = 0 then s.setResult b 1 else s) s
    let order := s.bootOrder
    let (s, r) := s.tryBoot inp order
    match r with
    | none => s.enterHoop
    | some (b, once) => ((s.bootSlot b once (order.head? != some b)).fusesOut (s.nvSlot b).svn).afterBoot inp

/-- A start up to the end of step 4; one that has a step 1 is held at its end while RST_N is low (R529). -/
def State.startUp (s : State) (kind : Nat) (inp : StartIn) : State :=
  let s := s.beginStart kind inp
  if s.sys.start.rstHeld ∧ kind ≠ 2 then s else s.bootSteps inp

/-- A cold start: a feed can carry it (R45, R452, R479). -/
def State.coldStart (s : State) (inp : StartIn) : State :=
  if s.sys.start.powered ∨ (s.fld F.PMU_STATE_FEEDA = 0 ∧ s.fld F.PMU_STATE_FEEDB = 0) then s else s.startUp 0 inp

def execColdStart (inp : StartIn) (s : State) : Host.Outcome State Fault Refusal := .next (s.coldStart inp)

/-- Step 5 at a cold start or module reset: the population is checked and the channels are trained (R338, R339). -/
def State.train (s : State) (pop : List ChanPop) : State :=
  let s := s.readPop pop
  (upto 24).foldl (fun s c =>
    let r := leftOut pop (pop.getD c noPop)
    if r = 0 then s.setFld (F.MEM_STS_READY c) 1
    else
      ((s.setFld (F.MEM_STS_LEFTOUT c) 1).setFld (F.MEM_STS_REASON c) r).record
        (occ (bMEM c) (if r = 4 then Cause.mem_TRAIN_FAIL else Cause.mem_POPULATION))) s

/-- Each die has a channel in service (R340). -/
def State.diesUp (s : State) : Bool := [0, 1].all fun d => (upto 24).any fun c => decide (chanDie c = d) && s.chReady c

/-- Every port whose link is up becomes READY (R480). -/
def State.portsReady (s : State) : State :=
  let up (p : PortSt) : PortSt := { p with ready := p.link }
  { s with link.ports := s.link.ports.map fun e => (e.1, up e.2) }

/-- Step 8: POOL_READY (R480). -/
def State.serve (s : State) : State :=
  let s := ((s.setFld F.GBL_STATUS_POOL_READY 1).setPst pACTIVE).portsReady
  let s := { s with sys.ptp.mayStep := false, meter.running := true }.syncChans
  match s.sys.fwu.raise with
  | some svn => ({ s with sys.fwu.raise := none }.raiseFloor svn false).fusesOut svn
  | none => s

/-- Steps 5 to 8 of a start (R478, R480). -/
def State.poolReady (s : State) : State :=
  match s.sys.start.inp with
  | none => s
  | some inp =>
    if s.pst ≠ pSTARTING ∨ s.fld F.FWU_BOOT_PHASE ≠ 5 ∨ !s.inputGood then s
    else
      let s := if s.sys.start.kind = 2 then s else (s.train inp.pop).fillRegions
      let s := (s.setFld F.TRN_CFG_SLOTS s.slotCount).setFld F.FWU_BOOT_PHASE 8
      if !s.diesUp then s.record (occ bECC Cause.ecc_DIE_EMPTY)
      else
        let s := if s.sys.start.kind ≠ 2 ∧ s.chem ≠ 0 then s.setPack 1 else s
        s.serve

def execPoolReady (s : State) : Host.Outcome State Fault Refusal := .next s.poolReady

/-- The management core restarts (R23, R517). -/
def State.mcRestart (s : State) (reason : Nat) : State :=
  if reason = 0 ∨ !s.csrUp ∨ s.sys.csr.mcDown then s
  else
    let csr_ : CsrSt := { s.sys.csr with kept := [], mcDown := true, mcAt := s.now, reason := reason }
    ({ s with sys.csr := csr_ }.incFld F.GBL_MCSTS_RESTARTS).setFld F.GBL_MCSTS_REASON reason

def execMcRestart (reason : BitVec 2) (s : State) : Host.Outcome State Fault Refusal := .next (s.mcRestart reason.toNat)

/-- Sends an answer that a restart held back (R517). -/
def State.sendOwed (s : State) (e : CsrSrc × Msg) : State :=
  match e.1 with
  | .inband k _ => if s.runs k.toNat then s.queueMsg k.toNat ⟨e.2, none, false⟩ else s
  | .mgmt _ _ _ => s

/-- The management core is back (R23, R434, R517). -/
def State.mcBack (s : State) : State :=
  let c := s.sys.csr
  if !c.mcDown then s
  else
    let esc := match c.lastMc with
      | some t => decide (c.mcAt < t + 60000000000)
      | none => false
    let csr_ : CsrSt := { c with mcDown := false, lastMc := some c.mcAt, owed := [], owedMgt := [] }
    let s := { s with sys.csr := csr_ }.record { occ bGBL Cause.gbl_MC_RESTART with esc := esc }
    let s := c.owed.foldl (fun s e => s.sendOwed e) s
    if s.mgtUp then c.owedMgt.foldl (fun s o => s.sendMgt o) s else s

def execMcRestartDone (s : State) : Host.Outcome State Fault Refusal := .next s.mcBack

/-- What a reset draws where its command does not say: the population and the straps are as at the last start. -/
def State.redraw (s : State) : StartIn :=
  let i := s.sys.start.inp.getD ⟨0, true, [], 0, 0, 0, 0, 0⟩
  { i with rgen := Config.random s.free, lgen := Config.random (s.free + 1) }

/-- A write of PMU_RESET (R472). -/
def State.wrPmuReset (s : State) (w : Word) (inp : StartIn) : State :=
  let kind := wbits w 0 2
  if wbits w 16 16 ≠ 0x5E7A then s.refusePmu 4
  else if kind = 0 then s.refusePmu 5
  else if s.pst ≠ pACTIVE ∧ s.pst ≠ pSTANDBY then s.refusePmu 1
  else if kind = 3 then s.mcRestart 3
  else s.startUp kind inp

/-- A write of PMU_RESET whose command carries no input. -/
def State.wrPmuResetRaw (s : State) (w : Word) : State := ({ s with free := s.free + 2 }).wrPmuReset w s.redraw

def execModuleReset (src : CsrSrc) (wdata : Word) (inp : StartIn) (s : State) : Host.Outcome State Fault Refusal :=
  .next (s.csrTrig src F.PMU_RESET.key wdata (decide (wbits wdata 0 2 = 1)) fun s => s.wrPmuReset wdata inp)

def execWarmReset (src : CsrSrc) (wdata : Word) (inp : StartIn) (s : State) : Host.Outcome State Fault Refusal :=
  .next (s.csrTrig src F.PMU_RESET.key wdata (decide (wbits wdata 0 2 = 2)) fun s => s.wrPmuReset wdata inp)

/-- RST_N falls and has been low for `width` ns (R445, R472, R528, R529). `rstHeld` holds that it is low. -/
def State.rstN (s : State) (width : Nat) (inp : StartIn) : State :=
  if width < 2000 then s
  else
    let (n, s) := s.fresh
    if width < 10000 ∧ !Config.rstActs n then s
    else
    let s := { s with sys.start.rstHeld := true }
    if s.locked ∨ !s.sys.start.powered then s
    else if [pRIDE, pDRAIN, pRETENTION].contains s.pst then
      (s.incFld F.PMU_CNT_RSTIGN).record (occ bPMU Cause.pmu_RST_IGNORED)
    else if s.pst = pACTIVE ∨ s.pst = pSTANDBY then s.startUp 1 inp
    else s

def execRstN (widthNs : Nat) (inp : StartIn) (s : State) : Host.Outcome State Fault Refusal := .next (s.rstN widthNs inp)

/-- RST_N rises: a start held at the end of step 1 goes on (R529). -/
def State.rstRelease (s : State) : State :=
  if !s.sys.start.rstHeld then s
  else
    let s := { s with sys.start.rstHeld := false }
    match s.sys.start.inp with
    | some inp => if s.pst = pSTARTING ∧ s.sys.start.powered ∧ s.fld F.FWU_BOOT_PHASE = 1 then s.bootSteps inp else s
    | none => s

def execRstNRelease (s : State) : Host.Outcome State Fault Refusal := .next s.rstRelease

/-- The outcome of a lost part of the save area (R467). -/
def State.saveLoss (s : State) : SaveLoss → State
  | .dirEntry k =>
    let w := s.way k
    if w.ent.st = .free then s else s.putWay k { w with eBad := 0x3F8, mBad := 0 }
  | .homeRecord line =>
    let poison (s : State) (l : Nat) : State := match s.slotHolding (64 * l) with
      | some slot => s.poisonAt slot (64 * l)
      | none => s
    let s := poison s line
    let s := match s.tx line with
      | some t =>
        let s := match t.rcl with
          | some r => poison s r.line
          | none => s
        let w := s.way t.way
        s.putWay t.way (if w.ent.st = DSt.trans then { w with ent := freeEnt } else { w with ent := { w.ent with opn := false } })
      | none => s
    { s with
      home.txs := tdel s.home.txs line
      home.parked := s.home.parked.filter fun h => decide (h.line ≠ line)
      home.results := s.home.results.filter fun e => decide (e.resp.pa.toNat / 64 ≠ line) }
  | .connection k => s.closeBroken k.toNat
  | .channel id => s.startChan id
  | .metering => { s with meter.tens := s.moduleMeter.tens }.recordGaps
  | .counters => s.clearCounters
  | .config => s

/-- The save area's losses (R467). -/
def State.saveLosses (s : State) (l : List SaveLoss) : State :=
  l.foldl (fun s x => (s.saveLoss x).record (occ bPMU Cause.pmu_RESUME_LOSS)) s

/-- Every Picot channel resumes from COUNT (R162, R466). -/
def State.resumeChans (s : State) : State :=
  (s.home.chans.map (·.id)).foldl (fun s id => (s.modChan id fun c => { c with lastGood := s.now }).resendChan id) s

/-- A resume completes (R465 to R467, R475, R502); in LOCK none does (R445). -/
def State.resume (s : State) (lost : List SaveLoss) (inp : StartIn) : State :=
  if !s.sys.power.resuming ∨ s.locked then s
  else
    let toStby := s.sys.power.toStby && decide (s.pst = pRETENTION)
    let s := { s with sys.power.resuming := false, sys.power.toStby := false }.setPst (if toStby then pSTANDBY else pACTIVE)
    let st := s.fld F.FWU_STS_STATE
    if lost.contains .config then
      (s.startUp 2 inp).record (occ bPMU Cause.pmu_RESUME_LOSS)
    else if st = 3 ∨ st = 5 then (s.startUp 2 inp).record (occ bFWU Cause.fwu_STEP_FAIL)
    else
      let s := (s.saveLosses lost).clearNtq
      let s := if toStby then s else s.resumeChans
      if s.inputGood then s else s.inputLost

def execResumeComplete (lost : List SaveLoss) (inp : StartIn) (s : State) : Host.Outcome State Fault Refusal :=
  .next (let t := s.resume lost inp; if t.dataUp then s.after t else t)

end Sys2Proof.Machine
end

