-- ==== Sys2Proof/Machine/Commit.lean ====
section
/-! DEFINITION. Basting: checks, commits, their groups and what they change (R8, R12, R33, R70, R97, R140, R160, R241, R373,
R383, R386, R387, R470, R476, R489 to R496, R508, R540). -/

namespace Sys2Proof.Machine

/-- Every class N bit that a write can reach through a commit. -/
def nMask (k : Nat) : Word := BitVec.ofNat 64 (((regAt (k % 2 ^ 32)).map (·.keep.n)).getD 0) &&& rwsMask k

/-- The registers of the tables whose parity ECC_PFLIP class 4 tests (R359). -/
def trnTable (name : String) : Bool :=
  ["TRN_TENANT", "TRN_WIN_A", "TRN_WIN_B", "TRN_CONN_BIND", "TRN_BSET_DATA", "POOL_MAPDATA"].contains name

/-- The registers of the tables whose parity ECC_PFLIP class 5 tests (R359). -/
def poolTable (name : String) : Bool := ["POOL_MEM_A", "POOL_MEM_P", "POOL_MEM_Q", "POOL_ROLES", "POOL_AGENT"].contains name

/-- A commit writes an entry of a table anew; a flip armed for its class gives it wrong parity (R74, R271, R359). -/
def State.rewriteEntry (s : State) (k : Nat) : State :=
  let name := ((regAt (k % 2 ^ 32)).map (·.name)).getD ""
  let s := { s with mem.tblBad := s.mem.tblBad.filter (· ≠ k) }
  if trnTable name ∨ poolTable name then
    let (bad, s) := s.takePflip (if trnTable name then 4 else 5) (s.fld F.ECC_PFLIP_DIE) 0
    if bad then { s with mem.tblBad := k :: s.mem.tblBad } else s
  else s

/-- Cached translations of a changed window, and of a tenant disabled, are invalid (R70). -/
def State.dropWindows (s0 s : State) (keys : List Nat) : State :=
  let wins := (keys.filter fun k => decide (s0.reg k ≠ s.reg k)
    && (match regAt (k % 2 ^ 32) with
      | some d => decide (d.name = "TRN_WIN_A") || decide (d.name = "TRN_WIN_B")
      | none => false)).map (· / 2 ^ 32)
  let covered (v : State) (i t ext : Nat) : Bool :=
    decide (i / 16 = t) && v.bit (F.TRN_WIN_A_EN i) && decide (v.fld (F.TRN_WIN_A_BASE i) ≤ ext)
      && decide (ext < v.fld (F.TRN_WIN_A_BASE i) + v.fld (F.TRN_WIN_B_SIZE i))
  let off := (s0.enabledTenants).filter fun t => !s.bit (F.TRN_TENANT_EN t)
  if wins.isEmpty ∧ off.isEmpty then s
  else s.dropCached fun t ext => off.contains t || wins.any fun i => covered s0 i t ext || covered s i t ext

/-- An open connection whose paths a commit changed takes the records of its new ones; a record that no connection used
before is BROKEN, as at open (R92, R140). -/
def State.movePaths (s0 s : State) (k : Nat) : State :=
  match s.conn k with
  | none => s
  | some c =>
    let moved (alt : Bool) : Bool := decide (s0.connPath k alt ≠ s.connPath k alt)
    if !moved false ∧ !moved true then s
    else
      let add (s : State) (alt : Bool) : State :=
        if moved alt ∧ (!alt ∨ s.hasAlt k) then s.openPath ((s.connPath k alt).key c.engine) false else s
      let s := add (add s false) true
      let s := s.modConn k fun c =>
        { c with viewP := if moved false then none else c.viewP, viewQ := if moved true then none else c.viewQ }
      ((s.pathLost k).pathGained k).sweepPaths

/-- Open connections after a commit (R97). -/
def State.commitConns (s0 s : State) : State :=
  (s.link.conns.map (·.1)).foldl (fun s k =>
    if s.bit (F.CDL_CONN_A_EN k) then s0.movePaths s k else s.closeConn k 7) s

/-- The bobbin has been declared dead: SeqReq outstanding with it go to the new one after the record has changed (R218). -/
def State.bobbinLost (s : State) : Bool := s.bit (F.POOL_ROLES_BOBV 0) && s.nodeDead false (s.bobbinNode false)

/-- The pool record after a commit: channels and roles follow it, and declarations end (R160, R241, R243, R256). -/
def State.commitPool (s0 s : State) (t : Table (BitVec 64)) : State :=
  let banks := [false, true].filter fun b => stagesPool t b
  if banks.isEmpty then s
  else
    let s := { s with
      home.dead := s.home.dead.filter fun d => !banks.contains d.1
      home.chans := s.home.chans.filter fun c => !(c.dead && banks.contains c.id.bank) }
    let s := (s.cutover s0.holders).syncChans
    if s0.bobbinLost then s.resendAllSeq else s

/-- A rekey that a commit starts: replicas of the tenant's pages are dropped, and its scan passes begin (R382, R386). -/
def State.startRekey (s : State) (t : Nat) : State :=
  let s := (s.mem.replicas.filter fun r => decide (r.owner = t)).foldl (fun s r => s.dropReplica r.pa) s
  { s with
    mem.rekeyPass := s.mem.rekeyPass.filter (· ≠ t)
    mem.rekeyClean := s.mem.rekeyClean.filter (· ≠ t) }.setFld (F.XTS_TSTATE_DUE t) 0

/-- Cages after a commit (R540). -/
def State.commitCages (s0 s : State) : State :=
  if !s.cagesLive then s
  else
    (upto 8).foldl (fun s n =>
      let was := s0.bit (F.CAGE_CTL_EN n)
      let is_ := s.bit (F.CAGE_CTL_EN n)
      if was ∧ !is_ then (s.cageDrop n).setCageSt n cOFF else if !was ∧ is_ then s.cageStart n else s) s

/-- PTP that a commit turns off leaves the servo in FREERUN (R397; log 193, DEDUCED). -/
def State.freeRun (s : State) : State :=
  if s.fld F.CDL_PTP_ROLE = 0 ∧ s.fld F.MTR_PTPSTS_STATE ≠ 0 then
    { s with sys.ptp := { s.sys.ptp with good := 0 } }.setFld F.MTR_PTPSTS_STATE 0
  else s

/-- A commit may move the LOW level of a die past its free frames (R293). -/
def State.watchLevels (s : State) : State := (s.watchFree 0).watchFree 1

/-- The commits that the requests at work and parked had seen when they entered translation (R33). -/
def State.confsLive (s : State) : List Nat := s.home.parked.map (·.conf) ++ s.home.txs.filterMap fun e => e.2.req.map (·.conf)

/-- The blocks whose settings govern a transaction; the pool record has rules of its own for what is under way (R218, R256;
log 173, DEDUCED). -/
def confBlocks : List Nat := [bDIR, bTRN, bTIER, bCMP, bXTS]

/-- A commit is counted, and what it replaces is kept for the requests that entered translation before it (R33). -/
def State.keepConf (s0 s : State) (keys : List Nat) : State :=
  let g := s0.home.confGen
  let live := s0.confsLive
  let old : List (Nat × Word × Word) := (keys.filter fun k => confBlocks.contains (k / 0x10000 % 0x10000)).filterMap fun k =>
    let m := rwsMask k
    if s0.reg k &&& m = s.reg k &&& m then none else some (k, m, s0.reg k &&& m)
  let kept := (s0.home.confOld ++ [(g, old)]).filter fun e => live.any fun x => decide (x ≤ e.1)
  { s with home.confGen := g + 1, home.confOld := kept }

/-- Applies values to the registers, with everything that follows from their change at that instant. -/
def State.applyValues (s0 : State) (t : Table (BitVec 64)) : State :=
  let s := s0.keepConf (s0.overlayRegs t) (t.map (·.1))
  let s := t.foldl (fun s e => s.rewriteEntry e.1) s
  let s := s0.dropWindows s (t.map (·.1))
  let s := if (upto 12).any fun j => (tget t (F.XTS_PROV j).key).isSome then s.deriveKek else s
  let s := if s0.reg F.PMU_PACK_CFG.key ≠ s.reg F.PMU_PACK_CFG.key then s.setPack 1 else s
  let s := (s.rekeys.filter fun x => !s0.rekeying x).foldl State.startRekey s
  let s := (s0.commitCages s).freeRun
  if s.dataUp then (s0.commitPool (s0.commitConns s) t).watchLevels else s

/-- The bank is applied at an instant (R33, R491, R493). -/
def State.applyBank (s : State) (instant : Nat) : State :=
  let b := s.sys.bank
  let s := s.applyValues b.staged
  let keys := b.staged.map (·.1)
  let bank : Bank := { s.sys.bank with staged := [], vol := s.sys.bank.vol ++ keys.filter fun k => !s.sys.bank.vol.contains k }
  let s := ({ s with sys.bank := bank }.setFld F.CFG_STS_STAGED 0).setReg F.CFG_LAST.key (BitVec.ofNat 64 instant)
  let s := (((s.setFld F.CFG_STS_LASTOK 1).setFld F.CFG_STS_CHECKONLY 0).setFld F.CFG_STS_REFCODE 0).setReg F.CFG_REFADDR.key 0
  s.setFld F.CFG_STS_STATE (if wbit b.ctl 4 then 5 else 0)

/-- A commit that has passed its checks, and whose group stands if it is persist, is applied or scheduled (R490, R491). -/
def State.applyOrSchedule (s : State) : State :=
  if !wbit s.sys.bank.ctl 5 then s.applyBank s.now
  else
    let when_ := (s.reg F.CFG_WHEN.key).toNat
    if when_ < s.now then s.endRefused 14 0 else { s with sys.bank.instant := when_ }.setFld F.CFG_STS_STATE 4

/-- What a persist commit writes: the staged values, or for an empty commit the applied values of every N field that behaves
as class V (R493, R494). -/
def State.groupValues (s : State) : Table (BitVec 64) :=
  let b := s.sys.bank
  if !b.wasEmpty then b.staged
  else
    (b.vol.filter fun k => decide (nMask k ≠ 0)).foldl (fun t k => tput t k (s.reg k &&& rwsMask k)) []

/-- Starts a check or commit (R490). -/
def State.startCheck (s : State) (w : Word) : State :=
  { s with sys.bank := { s.sys.bank with ctl := w, wasEmpty := s.sys.bank.staged.isEmpty } }.setFld F.CFG_STS_STATE 2

/-- BADCTL. -/
def State.badCtl (s : State) : State := s.setFld F.CFG_STS_BADCTL 1

/-- A write of CFG_CTL (R490). A second COMMIT or CHECK during MARKING sets BADCTL (log 192, DEDUCED). -/
def State.wrCfgCtl (s : State) (w : Word) : State :=
  let st := s.fld F.CFG_STS_STATE
  let n := countIf [0, 1, 2, 3] fun i => wbit w i
  if n = 0 then s
  else if 1 < n then s.badCtl
  else if wbit w 2 then
    if st = 4 then s.setFld F.CFG_STS_STATE (if s.sys.bank.wasEmpty then 0 else 1) else s.badCtl
  else if st = 2 ∨ st = 3 ∨ st = 4 then s.badCtl
  else if wbit w 3 then
    let s := { s with sys.bank := { s.sys.bank with staged := [], lost := false } }.setFld F.CFG_STS_STAGED 0
    if st = 5 then s else s.setFld F.CFG_STS_STATE 0
  else if st = 5 then
    if s.sys.bank.next.isSome then s.badCtl else { s with sys.bank.next := some w }
  else s.startCheck w

def execCommit (src : CsrSrc) (wdata : Word) (s : State) : Host.Outcome State Fault Refusal :=
  .next (s.csrTrig src F.CFG_CTL.key wdata (wbit wdata 0) fun s => s.wrCfgCtl wdata)

def execCheck (src : CsrSrc) (wdata : Word) (s : State) : Host.Outcome State Fault Refusal :=
  .next (s.csrTrig src F.CFG_CTL.key wdata (wbit wdata 1) fun s => s.wrCfgCtl wdata)

def execCancel (src : CsrSrc) (wdata : Word) (s : State) : Host.Outcome State Fault Refusal :=
  .next (s.csrTrig src F.CFG_CTL.key wdata (wbit wdata 2) fun s => s.wrCfgCtl wdata)

def execDiscard (src : CsrSrc) (wdata : Word) (s : State) : Host.Outcome State Fault Refusal :=
  .next (s.csrTrig src F.CFG_CTL.key wdata (wbit wdata 3) fun s => s.wrCfgCtl wdata)

/-- Some slot's group needs a compaction (R495). -/
def State.compactDue (s : State) (l : Table (BitVec 64)) : Bool :=
  s.persistSlots.any fun b => (s.nvSlot b).compactDue (s.groupFor b l)

/-- A check ends (R490 to R492). -/
def State.checkDone (s : State) : State :=
  if s.fld F.CFG_STS_STATE ≠ 2 ∨ !s.csrUp then s
  else
    let w := s.sys.bank.ctl
    let only := wbit w 1
    match s.checkBank (wbit w 4) with
    | some (code, ref) => s.endRefused code ref
    | none =>
      if only then
        let s := ((s.setFld F.CFG_STS_LASTOK 1).setFld F.CFG_STS_CHECKONLY 1).setFld F.CFG_STS_REFCODE 0
        (s.setReg F.CFG_REFADDR.key 0).setFld F.CFG_STS_STATE (if s.sys.bank.wasEmpty then 0 else 1)
      else if !wbit w 4 then s.applyOrSchedule
      else
        let l := s.groupValues
        if s.compactDue l ∧ s.bit F.CFG_NVM_ERASING then s.endRefused 15 0
        else { s with sys.bank.marking := l }.setFld F.CFG_STS_STATE 3

def execCheckDone (s : State) : Host.Outcome State Fault Refusal :=
  .next (let t := s.checkDone; if s.dataUp && t.dataUp then s.after t else t)

/-- The group goes into every slot that takes it (R493, R495, R501). -/
def State.writeGroup (s : State) : State :=
  let l := s.sys.bank.marking
  let compact := s.compactDue l
  let lossy := s.persistSlots.any fun b => decide ((s.groupFor b l).length ≠ l.length)
  let s := s.persistSlots.foldl (fun s b => s.setSlotRec b ((s.nvSlot b).addGroup (s.groupFor b l))) s
  let s := if lossy then s.setFld F.FWU_STS_NOFALL 1 else s
  if compact then
    ((s.setFld F.CFG_NVM_ERASING 1).incFld F.CFG_NVM_COMPACTIONS).record (occ bCFG Cause.cfg_COMPACTED)
  else s

/-- The states in which a commit that is not yet applied is refused with STATE (R445, R470, R496). -/
def State.notNow (s : State) : Bool := [pDRAIN, pRETENTION, pSTANDBY, pLOCK].contains s.pst

/-- A group has been programmed, or could not be (R492, R495, R496, R508). -/
def State.groupProgrammed (s : State) (failed : Bool) : State :=
  if s.fld F.CFG_STS_STATE ≠ 3 ∨ !s.csrUp then s
  else if failed then (s.tornGroup.record (occ bCFG Cause.cfg_NVM_PROGRAM)).endRefused 15 0
  else if s.notNow then s.writeGroup.endRefused 1 0
  else s.writeGroup.applyOrSchedule

def execGroupProgrammed (failed : Bool) (s : State) : Host.Outcome State Fault Refusal :=
  .next (let t := s.groupProgrammed failed; if s.dataUp && t.dataUp then s.after t else t)

/-- CFG_WHEN is reached (R33, R470, R491). -/
def State.commitInstant (s : State) : State :=
  if s.fld F.CFG_STS_STATE ≠ 4 ∨ s.now < s.sys.bank.instant then s
  else if s.notNow then s.endRefused 1 0
  else s.applyBank s.sys.bank.instant

def execCommitInstant (s : State) : Host.Outcome State Fault Refusal :=
  .next (let t := s.commitInstant; if s.dataUp && t.dataUp then s.after t else t)

/-- The APPLIED record stands in a slot: the group's values are its NVM values (R488, R493). -/
def Slot.markGroup (c : Slot) (l : Table (BitVec 64)) : Slot :=
  { c with nvm := applyRecords c.nvm l, skipped := c.skipped - 1 }

/-- The APPLIED record has been programmed, or could not be: MARKING ends, and a write of CFG_CTL that waited acts (R490, R493,
R508). -/
def State.appliedRecord (s : State) (failed : Bool) : State :=
  if s.fld F.CFG_STS_STATE ≠ 5 ∨ !s.csrUp then s
  else
    let b := s.sys.bank
    let s := if failed then s.record (occ bCFG Cause.cfg_NVM_PROGRAM)
      else
        let s := s.persistSlots.foldl (fun s x => s.setSlotRec x ((s.nvSlot x).markGroup (s.groupFor x b.marking))) s
        { s with sys.bank.vol := b.vol.filter fun k => (tget b.marking k).isNone }
    let s := { s with sys.bank := { s.sys.bank with marking := [], next := none } }
    let s := s.setFld F.CFG_STS_STATE (if b.staged.isEmpty then 0 else 1)
    match b.next with
    | some w => s.wrCfgCtl w
    | none => s

def execAppliedRecord (failed : Bool) (s : State) : Host.Outcome State Fault Refusal := .next (s.appliedRecord failed)

/-- The other half has been erased (R495). -/
def execEraseDone (s : State) : Host.Outcome State Fault Refusal := .next (s.setFld F.CFG_NVM_ERASING 0)

/-- The rekey of a tenant is complete at this module, and its commit may be made (R387, R496; log 191, DEDUCED). -/
def State.rekeyReady (s : State) (t : Nat) : Bool :=
  s.rekeying t && s.mem.rekeyClean.contains t && !(s.mem.migs.any fun m => decide (dOwner (s.desc m.page) = t))
    && !([2, 3, 4, 5] : List Nat).contains (s.fld F.CFG_STS_STATE) && !s.bit F.CFG_NVM_ERASING

/-- The module's own persist commit at the end of a rekey (R387, R496). -/
def State.rekeyDone (s : State) (t : Nat) : State :=
  if !s.rekeyReady t then s
  else
    let cur := s.curOf t
    let old := s.keySlotOf t (!cur)
    let f := if cur then F.TRN_TENANT_KSLOT0 t else F.TRN_TENANT_KSLOT1 t
    let slot := s.keySlotOf t cur
    let nvm := (s.nvSlot (s.persistSlots.headD s.booted)).config.getD []
    let l : Table (BitVec 64) := [(f.key, f.into ((tget nvm f.key).getD (regReset f.key &&& rwsMask f.key)) slot)]
    let s := ({ s with sys.bank := { s.sys.bank with marking := l } } : State).writeGroup
    let s := s.persistSlots.foldl (fun s b => s.setSlotRec b ((s.nvSlot b).markGroup (s.groupFor b l))) s
    let s := ({ s with sys.bank := { s.sys.bank with marking := [] } } : State).setFld f slot
    let s := s.setReg F.CFG_LAST.key (BitVec.ofNat 64 s.now)
    let s := { s with mem.rekeyClean := s.mem.rekeyClean.filter (· ≠ t) }.wipeSlot old
    s.record { occ bXTS Cause.xts_REKEY_DONE with tenant := some t }

def execRekeyDone (tenant : TenantId) (s : State) : Host.Outcome State Fault Refusal :=
  .next (s.act fun s => s.rekeyDone tenant.toNat)

end Sys2Proof.Machine
end

