-- ==== Sys2Proof/Machine/Fwu.lean ====
section
/-! DEFINITION. Firmware update and Hoop mode (R484 to R486, R497 to R507, R509). -/

namespace Sys2Proof.Machine

/-- FWU_STS.STATE values. -/
def uIDLE : Nat := 0
def uLOADED : Nat := 1
def uVERIFIED : Nat := 2
def uUPDATING : Nat := 3
def uTRIAL : Nat := 4
def uREVERTING : Nat := 5
def uFAILED : Nat := 6

/-- FWU_STS.STATE. -/
def State.fwuSt (s : State) : Nat := s.fld F.FWU_STS_STATE

/-- Sets FWU_STS.STATE. -/
def State.setFwu (s : State) (n : Nat) : State := s.setFld F.FWU_STS_STATE n

/-- The slot whose image runs: the target during TRIAL, otherwise the booted slot. -/
def State.running (s : State) : Bool := if s.fwuSt = uTRIAL then s.target else s.booted

/-- The components that run while an update or a revert is at STEP `n`: those of the steps below `n` are the target's
(R498, R502); `e` is the engine whose port microcode is asked for. -/
def State.runLevels (s : State) (e : Nat) : Levels :=
  let t := (s.nvSlot s.target).levels
  if s.fwuSt = uUPDATING ∨ s.fwuSt = uREVERTING then
    let n := s.fld F.FWU_STS_STEP
    mixLevels (s.nvSlot s.booted).levels t (decide (1 < n)) (decide (2 + e < n)) (decide (10 < n)) (decide (11 < n))
  else (s.nvSlot s.running).levels

/-- An ERASE, PROGRAM or VERIFY begins (R497). -/
def State.fwuOp (s : State) (op : Nat) : State :=
  let off := s.fld F.FWU_ADDR_OFFSET
  if s.fwuSt = uUPDATING ∨ s.fwuSt = uTRIAL ∨ s.fwuSt = uREVERTING ∨ s.bit F.FWU_STS_BUSY
      ∨ (op = 2 ∧ (off % 256 ≠ 0 ∨ imageSize ≤ off)) then s.setFld F.FWU_STS_REFUSED 1
  else
    let s := { s with sys.fwu.op := op }.setFld F.FWU_STS_BUSY 1
    if op = 1 then s.modSlot s.target fun c => c.putBoot { c.boot with state := 0, once := false } else s

/-- RESULT of VERIFY (R486, R497, R499): an image that may be applied by one warm reset passes although the sequence fails. -/
def State.verifyTarget (s : State) : Nat :=
  let c := s.nvSlot s.target
  let r := c.imageResult s.sys.fwu.floor
  if r ≠ 0 then r else if c.warmOk ∨ sequenceOk (s.nvSlot s.booted) c then 0 else 7

/-- The page in FWU_BUF (R497). -/
def State.fwuPage (s : State) : BitVec 2048 :=
  BitVec.ofNat 2048 (leNat ((upto 32).flatMap fun i => leBytes 8 (s.reg (F.FWU_BUF i).key).toNat))

/-- An ERASE, PROGRAM or VERIFY completes (R497, R509). -/
def State.fwuOpDone (s : State) (failed : Bool) : State :=
  let op := s.sys.fwu.op
  if op = 0 ∨ !s.bit F.FWU_STS_BUSY ∨ !s.csrUp then s
  else
    let s := { s with sys.fwu.op := 0 }.setFld F.FWU_STS_BUSY 0
    if failed ∧ op ≠ 3 then (s.setFwu uFAILED).record (occ bFWU Cause.fwu_NVM_FAIL)
    else if op = 1 then
      let c := s.nvSlot s.target
      ((s.setSlotRec s.target (emptySlot.putBoot ⟨0, c.seq, false, false, 0⟩)).setFwu uIDLE).setFld F.FWU_STS_RESULT 0
    else if op = 2 then
      ((s.modSlot s.target fun c => c.putPage (s.fld F.FWU_ADDR_OFFSET / 256) s.fwuPage).setFwu uLOADED).setFld F.FWU_STS_RESULT 0
    else
      let r := s.verifyTarget
      let s := s.setFld F.FWU_STS_RESULT r
      if r ≠ 0 then s
      else
        let n := (s.nvSlot s.booted).seq + 1
        ((s.modSlot s.target fun c => c.putBoot { c.boot with state := 1, seq := n }).setFwu uVERIFIED).fusesOut (s.nvSlot s.target).svn

def execFwuOperationDone (failed : Bool) (s : State) : Host.Outcome State Fault Refusal := .next (s.fwuOpDone failed)

/-- The last step of an engine, and the step after one (R498): in 800G mode two engines share a step. -/
def State.stepAfter (s : State) (n : Nat) : Nat := if s.portMode = 1 ∧ 2 ≤ n ∧ n ≤ 9 then n + 2 else n + 1

/-- The step before one, in a revert (R502). -/
def State.stepBefore (s : State) (n : Nat) : Nat :=
  if s.portMode = 1 ∧ 4 ≤ n ∧ n ≤ 10 then n / 2 * 2 - 2 else n - 1

/-- A step of an update or a revert begins: the processor it names loads its image and restarts (R498, R502). -/
def State.beginStep (s : State) (n : Nat) : State :=
  let s := { s with sys.fwu.stepAt := s.now }.setFld F.FWU_STS_STEP n
  if 2 ≤ n ∧ n ≤ 9 then (enginePorts s.portMode (n - 2)).foldl (fun s p => s.portReset p) s
  else if n = 10 then s.abandonAll
  else if n = 11 then s.mcRestart 2
  else s

/-- A step is done (R498): each port of the engine that is in service is READY, and its path records are UP or 10 s have
passed; the management core serves CSRs again. -/
def State.stepDone (s : State) (n : Nat) : Bool :=
  if 2 ≤ n ∧ n ≤ 9 then
    let ports := (enginePorts s.portMode (n - 2)).filter fun p => decide (s.cageSt (cageOf s.portMode p) = cREADY)
    let engines := if s.portMode = 1 then [n - 2, n - 1] else [n - 2]
    ports.all (fun p => (s.port p).ready)
      && (decide (s.sys.fwu.stepAt + 10000000000 ≤ s.now)
        || s.link.paths.all fun e => !engines.contains e.2.key.engine || decide (e.2.state = .up))
  else if n = 11 then !s.sys.csr.mcDown
  else true

/-- The NVM values of the booted slot stand in half 0 of the target, in its format (R498, step 12). -/
def State.convert (s : State) : State :=
  let t := (s.nvSlot s.booted).config.getD []
  s.modSlot s.target fun c =>
    { c.withHalf false with
      named := true, nvm := t, bytes := 16 + groupBytes t, groups := 1
      level := provided (c.comp 5), skipped := 0 }

/-- A revert is complete (R502): the old slot's values are the module's NVM values again, so those that stand in the new slot
only (NOFALL) are dropped. No configuration is applied outside a start and a commit (R34): the running values stay until the
next load (log 171, DEDUCED). -/
def State.endRevert (s : State) : State :=
  let s := ((s.setFld F.FWU_STS_NOFALL 0).setFld F.FWU_STS_STEP 0).setFld F.FWU_BOOT_SLOT (b2n !s.target)
  s.setFwu (if s.sys.fwu.failed then uFAILED else uIDLE)

/-- A step of an update or a revert completes (R498, R502). -/
def State.updateStep (s : State) : State :=
  let n := s.fld F.FWU_STS_STEP
  if !s.dataUp ∨ n = 0 ∨ !s.stepDone n then s
  else if s.fwuSt = uREVERTING then
    if n = 1 then s.endRevert else s.beginStep (s.stepBefore n)
  else if s.fwuSt ≠ uUPDATING then s
  else if n < 12 then s.beginStep (s.stepAfter n)
  else
    let s := s.convert.modSlot s.target fun c => c.withState 2
    ((s.setFwu uTRIAL).setFld F.FWU_STS_STEP 0).record (occ bFWU Cause.fwu_TRIAL)

def execUpdateStep (s : State) : Host.Outcome State Fault Refusal := .next (s.act State.updateStep)

/-- The bound of a step in ns (R498). -/
def stepBound (n : Nat) : Nat :=
  if n = 1 ∨ n = 10 then 50000000 else if n ≤ 9 then 12000000000 else if n = 11 then 5000000000 else 10000000000

/-- An update step overruns its bound (R498, R509). -/
def State.stepFail (s : State) : State :=
  let n := s.fld F.FWU_STS_STEP
  if s.fwuSt ≠ uUPDATING ∨ !s.dataUp ∨ s.now < s.sys.fwu.stepAt + stepBound n then s
  else
    let s := { s with sys.fwu.failed := true }.setFwu uREVERTING
    ((s.setFld F.FWU_STS_RESULT 11).record (occ bFWU Cause.fwu_STEP_FAIL)).beginStep (min n 11)

def execStepFail (s : State) : Host.Outcome State Fault Refusal := .next (s.act State.stepFail)

/-- START is refused with RESULT 10. -/
def State.refuseStart (s : State) : State := s.setFld F.FWU_STS_RESULT 10

/-- START by one warm reset (R500). -/
def State.startWarm (s : State) (newCfg : Bool) (inp : StartIn) : State :=
  if s.fwuSt ≠ uVERIFIED ∨ !(s.nvSlot s.target).warmOk ∨ (s.pst ≠ pACTIVE ∧ s.pst ≠ pSTANDBY) then s.refuseStart
  else
    let s := if newCfg then s.modSlot s.target fun c => { c with named := false } else s.convert
    (s.modSlot s.target fun c => c.withOnce true).startUp 2 inp

/-- START (R498 to R500). -/
def State.fwuStart (s : State) (w : Word) (inp : StartIn) : State :=
  if s.bit F.FWU_STS_BUSY then s.setFld F.FWU_STS_REFUSED 1
  else if wbit w 5 then s.startWarm (wbit w 6) inp
  else if wbit w 6 ∨ s.fwuSt ≠ uVERIFIED ∨ s.pst ≠ pACTIVE ∨ s.home.hoff.phase ≠ .idle ∨ 1 < s.fld F.CFG_STS_STATE then
    s.refuseStart
  else if !sequenceOk (s.nvSlot s.booted) (s.nvSlot s.target) then s.setFld F.FWU_STS_RESULT 7
  else ({ s with sys.fwu.failed := false }.setFwu uUPDATING |>.setFld F.FWU_STS_RESULT 0).beginStep 1

/-- REVERT (R502). -/
def State.fwuRevert (s : State) : State :=
  if s.fwuSt ≠ uTRIAL ∨ !s.dataUp then s.setFld F.FWU_STS_REFUSED 1
  else ({ s with sys.fwu.failed := false }.setFwu uREVERTING).beginStep 11

/-- A write of FWU_CTL; an OP that names no operation starts none. -/
def State.wrFwuCtl (s : State) (w : Word) (inp : StartIn) : State :=
  let op := wbits w 0 4
  if !wbit w 4 then s
  else if 1 ≤ op ∧ op ≤ 3 then s.fwuOp op
  else if op = 4 then s.fwuStart w inp
  else if op = 5 then s.fwuRevert
  else s

/-- A write of FWU_CTL whose command carries no input. -/
def State.wrFwuCtlRaw (s : State) (w : Word) : State := ({ s with free := s.free + 2 }).wrFwuCtl w s.redraw

/-- A write of FWU_CTL that starts operation `op`. -/
def State.fwuCmd (s : State) (src : CsrSrc) (w : Word) (op : Nat) : State :=
  s.csrTrig src F.FWU_CTL.key w (wbit w 4 && decide (wbits w 0 4 = op)) fun s => s.wrFwuCtlRaw w

def execErase (src : CsrSrc) (wdata : Word) (s : State) : Host.Outcome State Fault Refusal := .next (s.fwuCmd src wdata 1)

def execProgram (src : CsrSrc) (wdata : Word) (s : State) : Host.Outcome State Fault Refusal := .next (s.fwuCmd src wdata 2)

def execVerify (src : CsrSrc) (wdata : Word) (s : State) : Host.Outcome State Fault Refusal := .next (s.fwuCmd src wdata 3)

def execStart (src : CsrSrc) (wdata : Word) (inp : StartIn) (s : State) : Host.Outcome State Fault Refusal :=
  .next (s.csrTrig src F.FWU_CTL.key wdata (wbit wdata 4 && decide (wbits wdata 0 4 = 4)) fun s => s.wrFwuCtl wdata inp)

def execRevert (src : CsrSrc) (wdata : Word) (s : State) : Host.Outcome State Fault Refusal := .next (s.fwuCmd src wdata 5)

/-- A write of FWU_CONFIRM: the trial image is confirmed, the floor rises, and the old slot is the next target (R501, R503). -/
def State.confirm (s : State) (w : Word) (fusesFail : Bool) : State :=
  if !wbit w 0 ∨ wbits w 16 16 ≠ 0xF1C0 ∨ s.fwuSt ≠ uTRIAL then s
  else
    let t := s.target
    let svn := (s.nvSlot t).svn
    let s := s.modSlot t fun c => c.withState 3
    let s := ((s.raiseFloor svn fusesFail).fusesOut svn).record (occ bFWU Cause.fwu_CONFIRMED)
    (((s.setFwu uIDLE).setFld F.FWU_STS_NOFALL 0).setFld F.FWU_BOOT_SLOT (b2n t)).setFld F.FWU_STS_TARGET (b2n !t)

def execFwuConfirm (src : CsrSrc) (wdata : Word) (fusesFail : Bool) (s : State) : Host.Outcome State Fault Refusal :=
  .next (s.csrPut src F.FWU_CONFIRM.key wdata fun s => s.confirm wdata fusesFail)

/-- FWU_BOOT as read: RELEASE is that of the image that runs. -/
def State.fwuBoot (s : State) : Word :=
  F.FWU_BOOT_RELEASE.into (s.reg F.FWU_BOOT.key) (if s.pst = pHOOP then 0 else (s.nvSlot s.running).release)

/-- FWU_ARB as read. -/
def State.fwuArb (s : State) : Word :=
  BitVec.ofNat 64 (s.sys.fwu.floor + 2 ^ 7 * b2n s.sys.fwu.fusesSaid
    + 2 ^ 8 * (if s.pst = pHOOP then 0 else (s.nvSlot s.running).svn))

/-- The bundle that Hoop mode receives, as a slot's image. -/
def bundleSlot (l : List Byte) : Slot := { emptySlot with pages := pagesOf l }

/-- A TFTP packet of opcode, number and rest (RFC 1350: the opcode and the number most significant first). -/
def tftp (op n : Nat) (rest : List Byte) : List Byte := beBytes 2 op ++ beBytes 2 n ++ rest

/-- A TFTP ERROR packet with an empty message. -/
def tftpError (code : Nat) : List Byte := tftp 5 code [0]

/-- The module is in Hoop mode. -/
def State.inHoop (s : State) : Bool := s.sys.start.powered && decide (s.pst = pHOOP)

/-- The mode of a request is octet, in any case (RFC 1350). -/
def octet (mode : String) : Bool := decide (mode.toLower = "octet")

/-- A TFTP WRQ, with all that the transfer brings (R505, R506): every block is acknowledged. -/
def State.wrq (s : State) (ip : BitVec 32) (port : BitVec 16) (filename mode : String) (bundle : List Byte) : State :=
  let send (s : State) (p : List Byte) : State := s.sendMgt ⟨ip, port, p⟩
  if !s.inHoop then s
  else if filename ≠ "recovery" then send s (tftpError 2)
  else if !octet mode then send s (tftpError 4)
  else
    let blocks := min (bundle.length / 512 + 1) (imageSize / 512)
    let s := (upto (blocks + 1)).foldl (fun s n => send s (tftp 4 n [])) s
    if imageSize < bundle.length then send s (tftpError 3)
    else
      let s := if bundle.length < imageSize then s else send s (tftp 4 (imageSize / 512 + 1) [])
      let r := (bundleSlot bundle).imageResult s.sys.fwu.floor
      { s with
        sys.fwu := { s.sys.fwu with outcome := if r = 0 then 1 else r, bundle := if r = 0 then bundle else [], peer := none } }

def execWrq (srcIp : BitVec 32) (srcPort : BitVec 16) (filename mode : String) (bundle : List Byte) (s : State) :
    Host.Outcome State Fault Refusal :=
  .next (s.wrq srcIp srcPort filename mode bundle)

/-- A TFTP RRQ (R505). -/
def State.rrq (s : State) (ip : BitVec 32) (port : BitVec 16) (filename mode : String) : State :=
  let send (s : State) (p : List Byte) : State := s.sendMgt ⟨ip, port, p⟩
  if !s.inHoop then s
  else if filename ≠ "status" then send s (tftpError 2)
  else if !octet mode then send s (tftpError 4)
  else
    let f := s.sys.fwu
    let p := tftp 3 1 ((Config.statusText f.result0 f.result1 s.fwuBoot s.fwuArb f.outcome).take 512)
    send { s with sys.fwu := { f with peer := some (ip, port), packet := p, sentAt := s.now, tries := 0 } } p

def execRrq (srcIp : BitVec 32) (srcPort : BitVec 16) (filename mode : String) (s : State) :
    Host.Outcome State Fault Refusal :=
  .next (s.rrq srcIp srcPort filename mode)

/-- 1 s without a reply: the last packet goes out again, five times (R505). -/
def State.tftpAgain (s : State) : State :=
  let f := s.sys.fwu
  match f.peer with
  | none => s
  | some (ip, port) =>
    if !s.inHoop ∨ s.now < f.sentAt + 1000000000 then s
    else if 5 ≤ f.tries then { s with sys.fwu := { f with peer := none, packet := [] } }
    else { s with sys.fwu := { f with sentAt := s.now, tries := f.tries + 1 } }.sendMgt ⟨ip, port, f.packet⟩

def execTftpRetransmit (s : State) : Host.Outcome State Fault Refusal := .next s.tftpAgain

/-- The bundle stands in both slots: a module reset ends Hoop mode (R506). -/
def State.recover (s : State) (inp : StartIn) : State :=
  let f := s.sys.fwu
  if !s.inHoop ∨ f.bundle.isEmpty then s
  else
    let c := bundleSlot f.bundle
    let c := { c.putBoot ⟨3, max f.a.seq f.b.seq + 1, false, false, 0⟩ with level := provided (c.comp 5) }
    let c := match c.cfgComponent with
      | some t => { c with named := true, nvm := t, bytes := 16 + groupBytes t, groups := 1 }
      | none => c
    let s := { s with sys.fwu := { f with a := c, b := c, bundle := [], raise := some c.svn } }
    s.startUp 1 inp

def execRecoveryWritten (inp : StartIn) (s : State) : Host.Outcome State Fault Refusal := .next (s.recover inp)

end Sys2Proof.Machine
end

