-- ==== Sys2Proof/Machine/Shelf.lean ====
section
/-! DEFINITION. The shelf: pins, the shelf SMBus, temperatures and the management port's link (R431, R531, R532, R534,
R535, R542). -/

namespace Sys2Proof.Machine

/-- What a LED shows: off, on, or a blink with its half periods' frequency in tenths of a Hz and its duty in percent. -/
inductive Led where
  | off
  | on
  | blink (tenthHz duty : Nat)
  deriving DecidableEq, Repr

/-- The pins that the module drives towards the shelf (R431, R531). -/
structure Pins where
  pwrGood : Bool
  act : Led
  fault : Led
  alert : Bool
  deriving DecidableEq, Repr

/-- PWR_GOOD and LED_ACT_N (R531). -/
def State.actPins (s : State) : Bool × Led :=
  let p := s.pst
  if !s.sys.start.powered then (false, .off)
  else if p = pSTARTING then if 2 ≤ s.fld F.FWU_BOOT_PHASE then (true, .blink 20 50) else (false, .off)
  else if p = pACTIVE then (true, .on)
  else if p = pRIDE then (true, .blink 40 50)
  else if p = pSTANDBY then (false, .blink 5 10)
  else if p = pHOOP then (false, .blink 10 50)
  else (false, .off)

/-- The pins as a function of the state: ALERT_N and LED_FLT_N are given as asserted (R431). -/
def State.pins (s : State) : Pins where
  pwrGood := s.actPins.1
  act := s.actPins.2
  fault :=
    if s.locked then .blink 10 50
    else if faultBlocks.any fun b => decide (3 ≤ s.fld (F.BLK_FLTOVF_MAXSEV (b * 0x10000))) then .on
    else .off
  alert := s.locked || faultBlocks.any s.alert

/-- The sensors that the PMU reads, as the shelf sees them from now on. -/
def State.setTemps (s : State) (t : Thermal) : State := { s with sys.shelf.temps := t }

/-- The greatest inlet temperature of the grade (R533). -/
def inletMax : Int := if Config.grade = 0 then 35 else 45

/-- Both junctions below 95 °C end the hold on STBY_EXIT (R534). -/
def State.cool (s : State) (t : Thermal) : State :=
  if t.die0 < 95 ∧ t.die1 < 95 then { s with sys.power.hot := false } else s

/-- The inlet above the grade's maximum, or a junction at 100 °C (R535). -/
def State.thermalWarn (s : State) (t : Thermal) : State :=
  if !s.sys.start.powered then s
  else
    let s := (s.setTemps t).cool t
    if inletMax < t.inlet ∨ 100 ≤ t.die0 ∨ 100 ≤ t.die1 then s.record (occ bGBL Cause.gbl_THERMAL_WARN) else s

def execThermalWarn (t : Thermal) (s : State) : Host.Outcome State Fault Refusal := .next (s.thermalWarn t)

/-- A junction at 115 °C for 1 s: STANDBY through DRAIN (R534, R535). -/
def State.thermalTrip (s : State) (t : Thermal) : State :=
  if !s.sys.start.powered then s
  else
    let s := (s.setTemps t).cool t
    if t.die0 < 115 ∧ t.die1 < 115 then s
    else
      let s := { s with sys.power.hot := true }
      if s.pst = pACTIVE ∨ s.pst = pRIDE then
        ((s.record (occ bGBL Cause.gbl_THERMAL_TRIP)).refusePending).drain true
      else s

def execThermalTrip (t : Thermal) (s : State) : Host.Outcome State Fault Refusal := .next (s.thermalTrip t)

/-- GBL_ID as read: the factory's grade and board revision. -/
def State.gblId (s : State) : Word :=
  F.GBL_ID_BOARDREV.into (F.GBL_ID_GRADE.into (s.reg F.GBL_ID.key) Config.grade.toNat) Config.boardRev.toNat

/-- PMU_STATE as read. -/
def State.pmuState (s : State) : Word := F.PMU_STATE_STATE.into (s.reg F.PMU_STATE.key) s.pst

/-- PMU_FEED as read: the input current and power are what the PMU measures, free values. -/
def State.pmuFeed (s : State) : State × Word :=
  let (n, s) := s.fresh
  let (m, s) := s.fresh
  (s, F.PMU_FEED_PIN.into (F.PMU_FEED_IIN.into (s.reg F.PMU_FEED.key) (Config.random n).toNat) (Config.random m).toNat)

/-- The eight THERMAL bytes (R532). -/
def State.thermalBytes (s : State) : List Byte :=
  let h := s.sys.shelf
  let live := s.copiesLive
  let l := [h.temps.die0, h.temps.die1, h.temps.inlet, h.temps.outlet, if live then s.dimmTop else h.dimm,
    if live then s.cageTop else h.cage, h.temps.pmu]
  (l.map fun t => BitVec.ofNat 8 (satSigned 8 t)) ++ [BitVec.ofNat 8 (b2n !live)]

/-- The data of a Block Read; none for a command byte that the table does not list (R532). -/
def State.smbusData (s : State) (c : Nat) : State × Option (List Byte) :=
  let word (w : Word) : Option (List Byte) := some (leBytes 8 w.toNat)
  if c = 0 then (s, word s.gblId)
  else if c = 1 then (s, word Config.serial)
  else if c = 2 then (s, word (if s.copiesLive then s.gblStatus else s.sys.shelf.status))
  else if c = 3 then (s, word s.pmuState)
  else if c = 4 then
    let (s, w) := s.pmuFeed
    (s, word w)
  else if c = 5 then (s, word (s.reg F.PMU_PACK_STS.key))
  else if c = 6 then (s, word (if s.copiesLive then s.alertMap else s.sys.shelf.alerts))
  else if c = 7 then (s, some s.thermalBytes)
  else if c = 8 then (s, word (s.reg F.PMU_LASTOFF.key))
  else (s, none)

/-- A Block Read of the shelf: a count of 8 and the data, or a NACK, given as an empty answer (R532). -/
def State.smbusRead (s : State) (c : SmbusCmd) : State :=
  if !s.sys.start.powered then s
  else
    let say (s : State) (l : List Byte) : State := { s with sys.smbusOut := s.sys.smbusOut ++ [l] }
    if c.wroteData then say s []
    else
      match s.smbusData c.command.toNat with
      | (s, some l) => say s (8 :: l)
      | (s, none) => say s []

def execSmbusBlockRead (cmd : SmbusCmd) (s : State) : Host.Outcome State Fault Refusal := .next (s.smbusRead cmd)

/-- The management port loses its link (R542). -/
def State.mgtLink (s : State) : State := if s.mgtUp then s.record (occ bGBL Cause.gbl_MGT_LINK) else s

def execMgtLink (s : State) : Host.Outcome State Fault Refusal := .next s.mgtLink

end Sys2Proof.Machine
end

