-- ==== Sys2Proof/Machine/CsrRead.lean ====
section
/-! DEFINITION. What a CSR read returns: stored fields, and the fields that show live state (R8, R73, R120, R164, R270,
R439, and the register tables of each block). -/

namespace Sys2Proof.Machine

/-- `min` for a field that saturates at all ones. -/
def satTo (w v : Nat) : Nat := min v (2 ^ w - 1)

/-- The level of a component of what runs. -/
def State.levels0 (s : State) : Word :=
  let l := s.runLevels 0
  let port := ((upto 8).map fun e => provided (s.runLevels e).port).foldl min 65535
  BitVec.ofNat 64 (provided l.mc + 2 ^ 16 * provided l.pmu + 2 ^ 32 * port + 2 ^ 48 * provided l.tier)

/-- FWU_LEVELS1. -/
def State.levels1 (s : State) : Word :=
  let n := s.fld F.FWU_STS_STEP
  let mix := (decide (s.fwuSt = uUPDATING) || decide (s.fwuSt = uREVERTING)) && decide (3 ≤ n) && decide (n ≤ 9)
  BitVec.ofNat 64 ((s.nvSlot s.running).cfgLevel + 2 ^ 16 * Config.hwLevel.toNat + 2 ^ 32 * b2n mix)

/-- CFG_NVM: HALF, USED and GROUPS are those of the running slot. -/
def State.cfgNvm (s : State) (w : Word) : Word :=
  let c := s.nvSlot s.running
  F.CFG_NVM_GROUPS.into (F.CFG_NVM_USED.into (F.CFG_NVM_HALF.into w (b2n c.half)) ((c.bytes + 1023) / 1024)) c.groups

/-- CFG_PEEK_DATA: the staged fields of the register at CFG_PEEK_ADDR, or its applied ones. -/
def State.peek (s : State) : Word :=
  let a := s.fld F.CFG_PEEK_ADDR_ADDR
  match regAt a with
  | some d =>
    let k := s.regKey d a
    (tget s.sys.bank.staged k).getD (s.reg k &&& rwsMask k)
  | none => 0

/-- ETH_STS of a port block (R76, R538). -/
def State.ethSts (s : State) (n : Nat) : Word :=
  let m := s.portMode
  let show_ (p : PortSt) : Nat := b2n p.link + 2 * b2n p.fec + 4 * b2n p.ready
  let a := s.port (if m = 1 then n / 2 else if m = 2 then 2 * n else n)
  let b : PortSt := if m = 2 then s.port (2 * n + 1) else ⟨false, false, false⟩
  let c := s.cage n
  BitVec.ofNat 64 (show_ a + 16 * show_ b + 256 * b2n c.info.isSome + 512 * b2n c.out)

/-- The connection that CDL_CONN_SEL names. -/
def State.selConn (s : State) : Nat := s.fld F.CDL_CONN_SEL_CONN

/-- CDL_CONN_STS (R89, R95). -/
def State.connSts (s : State) : Word :=
  let k := s.selConn
  let i := (tget s.link.closed k).getD ⟨0, 0, none⟩
  BitVec.ofNat 64 <|
    match s.conn k with
    | some c => 1 + 2 * b2n c.onAlt + 4 * b2n c.snoop + 16 * (i.reason % 16) + 256 * c.rcid.toNat
    | none => 16 * (i.reason % 16) + 256 * i.rcid.toNat

/-- PSTATE. -/
def PathState.code : PathState → Nat
  | .up => 0
  | .broken => 1
  | .returning => 2

/-- CDL_CONN_RSTS (R140, R148, R158). -/
def State.connRsts (s : State) : Word :=
  let k := s.selConn
  let det := s.link.detached.any fun e => decide (e.2 = k)
  BitVec.ofNat 64 <|
    match s.conn k with
    | some c =>
      (s.pathView k c false).code + 4 * (s.pathView k c true).code + 16 * (1 + b2n c.holding.isSome) + 64 * b2n det
        + 2 ^ 8 * satTo 16 c.repUnits + 2 ^ 24 * c.sndUna.toNat
    | none => 5 + 64 * b2n det

/-- Directory ways that `f` accepts. -/
def State.waysWith (s : State) (f : DirEnt → Bool) : Nat := countIf s.home.dir fun e => f e.2.ent

/-- POOL_STS (R239, R244, R248). -/
def State.poolSts (s : State) : Word :=
  BitVec.ofNat 64 ((s.selfEntry false).getD 0 + 2 ^ 6 * b2n (s.selfEntry false).isSome + 2 ^ 7 * (s.homesOf false).length
    + 2 ^ 14 * b2n s.isBobbin + 2 ^ 15 * b2n s.isFace + 2 ^ 32 * s.home.rgen.toNat)

/-- POOL_CHANSTS of the entry that a bank's POOL_MEMSEL names (R115, R249). -/
def State.chanSts (s : State) (b : Bool) : Word :=
  let i := s.fld (F.POOL_MEMSEL_INDEX (bankNo b))
  BitVec.ofNat 64 <|
    match (if s.isNodeEntry b i then s.chan ⟨b, s.memNode b i⟩ else none) with
    | none => 3
    | some c =>
      (match c.state with
      | .start => 0
      | .up => 1
      | .down => 2) + 4 * b2n c.alt + 16 * ((c.base + c.units.length) % 2 ^ 15) + 2 ^ 20 * (c.expect % 2 ^ 15)

/-- POOL_HOFF_STS.PHASE. -/
def HoffPhase.code : HoffPhase → Nat
  | .idle => 0
  | .copy => 1
  | .ready => 2
  | .window => 3
  | .residual => 4
  | .receiving => 5

/-- XTS_SLOT and XTS_SLOTCNT of the slot that XTS_SLOTSEL names (R378, R379, R382). -/
def State.xtsSlot (s : State) : Word :=
  let i := s.fld F.XTS_SLOTSEL_SLOT
  let k := s.key i
  BitVec.ofNat 64 (b2n k.valid + 2 * b2n k.failed + 4 * b2n (s.slotNamed i) + 8 * b2n k.due + 2 ^ 32 * k.kid.toNat)

/-- Pages of a tenant at this home under the old selector. -/
def State.pagesLeft (s : State) (t : Nat) : Nat :=
  countIf s.mem.tmap fun e =>
    (s.slotEntry (e.1 / 512)).getLsbD 0 && decide (dOwner e.2 = t) && s.oldKey e.2

/-- Re-encryption pauses while a die's free frames are below LOW (R385). -/
def State.rekeyPaused (s : State) (t : Nat) : Bool :=
  s.rekeying t && (decide (s.freeFrames 0 < s.lowLevel 0) || decide (s.freeFrames 1 < s.lowLevel 1))

/-- XTS_TSTATE of a tenant. -/
def State.tstate (s : State) (t : Nat) (w : Word) : Word :=
  (F.XTS_TSTATE_LEFT t).into ((F.XTS_TSTATE_PAUSED t).into ((F.XTS_TSTATE_RUNNING t).into w (b2n (s.rekeying t)))
    (b2n (s.rekeyPaused t))) (satTo 32 (s.pagesLeft t))

/-- Eight octets of Q, x then y, most significant first (XTS_DEVPUB). -/
def devPub (i : Nat) : Word :=
  BitVec.ofNat 64 (bytesAt (beBytes 48 Config.devicePub.1 ++ beBytes 48 Config.devicePub.2) (8 * i) 8)

/-- The MiB that COPY has sent: its lines but those of messages that still wait on the channel (R270). -/
def State.copiedMiB (s : State) : Nat :=
  let waiting := (((s.chan ⟨false, s.home.hoff.peer⟩).map (·.txq)).getD []).map fun m => match m with
    | .roleState 0 _ _ l => l.length
    | _ => 0
  64 * (s.home.hoff.total - waiting.sum) / 2 ^ 20

/-- POOL_HOFF_STS. -/
def State.hoffSts (s : State) (w : Word) : Word :=
  F.POOL_HOFF_STS_COPIED.into (F.POOL_HOFF_STS_RESID.into (F.POOL_HOFF_STS_PHASE.into w s.home.hoff.phase.code)
    (satTo 12 s.home.hoff.residual.length)) s.copiedMiB

/-- The correctable counts of the rank and subchannel that MEM_DEVSEL names (R355). -/
def State.devCounts (s : State) (c : Nat) : Word :=
  let k := 2 * s.fld (F.MEM_DEVSEL_RANK c) + s.fld (F.MEM_DEVSEL_SUBCH c)
  BitVec.ofNat 64 (((upto 10).map fun d => ((tget s.mem.devCnt (devKey c k d)).getD 0) % 64 * 2 ^ (6 * d)).sum)

/-- How much of the current patrol pass is done, in percent. -/
def State.patrolPercent (s : State) : Nat :=
  let low := (upto (24 * s.reservedTop)).filter s.patrolled
  let high := (s.mem.ftab.map (·.1)).filter fun f => decide (s.reservedTop ≤ f / 24) && s.patrolled f
  let all := low.length + high.length
  let done := countIf (low ++ high) fun f => decide (f < s.mem.patrolAt / 64)
  if all = 0 then 0 else 100 * done / all

/-- NTQ_COUNT (R439). -/
def State.ntqCount (s : State) : Word :=
  let p := countIf s.ntq.entries fun e => e.dseq.isNone
  BitVec.ofNat 64 (p + 2 ^ 16 * (s.ntq.entries.length - p))

/-- A register of one instance `i` and element `j`, where the live state decides fields of it; `w` holds the stored ones. -/
def State.liveReg (s : State) (name : String) (i j : Nat) (w : Word) : Word :=
  match name with
  | "GBL_ID" => s.gblId
  | "GBL_SERIAL" => Config.serial
  | "GBL_STATUS" => s.gblStatus
  | "GBL_MGTMAC" => Config.mgtMac.zeroExtend 64
  | "CFG_NVM" => s.cfgNvm w
  | "CFG_PEEK_DATA" => s.peek
  | "FWU_BOOT" => s.fwuBoot
  | "FWU_ARB" => s.fwuArb
  | "FWU_LEVELS0" => s.levels0
  | "FWU_LEVELS1" => s.levels1
  | "PMU_STATE" => s.pmuState
  | "ETH_STS" => s.ethSts i
  | "CDL_MACADDR" => (Config.portMac i).zeroExtend 64
  | "CDL_CONN_STS" => s.connSts
  | "CDL_CONN_RSTS" => s.connRsts
  | "CDL_RB_STS" => (F.CDL_RB_STS_USED i).into w (satTo 16 (s.rbUsed i))
  | "CAGE_STS" => (F.CAGE_STS_BUDGET i).into w (s.cageBudget i)
  | "DIR_OCC0" => BitVec.ofNat 64 (s.waysWith (fun e => decide (e.st ≠ .free)) + 2 ^ 22 * s.waysWith (fun e => decide (e.st ≠ .free) && e.fmt))
  | "DIR_OCC1" => BitVec.ofNat 64 (s.waysWith (fun e => decide (e.st = .em)) + 2 ^ 22 * s.waysWith (fun e => decide (e.st = .o)))
  | "DIR_RECOV" => F.DIR_RECOV_INFLIGHT.into w (satTo 16 (countIf s.home.txs fun e => decide (e.2.phase = .recovery)))
  | "DIR_PARKSTS" => F.DIR_PARKSTS_PARKED.into w s.home.parked.length
  | "DIR_SEQSTS" =>
    BitVec.ofNat 64 (s.home.seqLast % 2 ^ 48 + 2 ^ 48 * b2n s.isBobbin + 2 ^ 49 * satTo 12 s.home.seqHeld.length)
  | "POOL_STS" => s.poolSts
  | "POOL_CHANSTS" => s.chanSts (decide (i = 1))
  | "POOL_HOFF_STS" => s.hoffSts w
  | "POOL_RELAY" => F.POOL_RELAY_USED.into w s.home.relays.length
  | "TRN_ASSIGN_STS" => F.TRN_ASSIGN_STS_USED.into w s.slotsUsed
  | "TIER_CAP" => BitVec.ofNat 64 s.effCapacity
  | "TIER_DIE" => BitVec.ofNat 64 (s.freeFrames j + 2 ^ 32 * s.binFrames j)
  | "TIER_LENDSTS" => BitVec.ofNat 64 (s.lent + 2 ^ 32 * s.borrowed)
  | "XTS_STS" => F.XTS_STS_REKEYS.into w s.rekeys.length
  | "XTS_DEVPUB" => devPub j
  | "XTS_KEYIN" => 0
  | "XTS_SLOT" => s.xtsSlot
  | "XTS_SLOTCNT" => BitVec.ofNat 64 ((s.key (s.fld F.XTS_SLOTSEL_SLOT)).count % 2 ^ 48)
  | "XTS_TSTATE" => s.tstate j w
  | "MEM_STS" => (F.MEM_STS_SELFREF i).into w (b2n (s.chReady i && (decide (s.pst = pSTANDBY) || decide (s.pst = pRETENTION))))
  | "MEM_DEVCNT" => s.devCounts i
  | "ECC_SCRUBSTS" => F.ECC_SCRUBSTS_PROGRESS.into w s.patrolPercent
  | "MTR_TIME" => BitVec.ofNat 64 s.now
  | "NTQ_COUNT" => s.ntqCount
  | "NTQ_STS" => F.NTQ_STS_MARKV.into w (b2n s.ntq.mark.isSome)
  | "NTQ_FLTMAP" => BitVec.ofNat 64 (mapBits fun b => decide (s.reg (b * 0x10000 + 0xf00) ≠ 0))
  | "NTQ_ALERTMAP" => s.alertMap
  | _ => w

/-- A read whose value, answer or effect is not that of stored state: a read of a FIFO, of a latch, of the extent table or
of a measured value. -/
def State.readAct (s : State) (name : String) (i j : Nat) (w : Word) : Option (State × CsrAns) :=
  let ok (r : State × Word) : Option (State × CsrAns) := some (r.1, ⟨0, 0, r.2⟩)
  match name with
  | "NTQ_POP" => ok s.ntqPop
  | "MTR_LRD" => ok (s.rdLrd j)
  | "MTR_TACC" => ok (s.rdTacc j)
  | "PRF_DRD" => ok (s.rdDrd j)
  | "TRN_ET_DATA" => some s.rdEtData
  | "PMU_FEED" => ok s.pmuFeed
  | "ETH_FEC_CNT" =>
    if ((upto 16).filter fun p => s.hasPort p && (portBlocks s.portMode p).contains i).all fun p => !(s.port p).link then
      ok (s, w)
    else
      let (n, s) := s.fresh
      let s := s.setFld (F.ETH_FEC_CNT_CORR i) (Config.random n).toNat
      ok (s, s.reg (F.ETH_FEC_CNT_CORR i).key)
  | "XTS_ALARM" => let s := s.rollAlarm; ok (s, s.reg F.XTS_ALARM_WINDOW.key)
  | _ => none

/-- A read of the register `d` at address `a`. -/
def State.readReg (s : State) (d : RegDef) (a : Nat) : State × CsrAns :=
  let (i, j) := (d.place a).getD (0, 0)
  let w := s.reg (s.regKey d a)
  match s.readAct d.name i j w with
  | some r => r
  | none => (s, ⟨0, 0, s.liveReg d.name i j w⟩)

/-- A CSR read as the crossbar performs it. -/
def State.csrReadAt (s : State) (a : Nat) : State × CsrAns :=
  match regAt a with
  | some d => s.readReg d a
  | none => (s, ⟨5, 0, 0⟩)

end Sys2Proof.Machine
end

