-- ==== Sys2Proof/Machine/CsrExec.lean ====
section
/-! DEFINITION. CSR requests: reads, writes with their actions, time-outs and the management port's datagrams (R10, R108,
R160, R252, R254, R489, R510 to R518). -/

namespace Sys2Proof.Machine

/-- A write of POOL_HOFF: with GO it starts a handoff or is ignored whole, otherwise ABORT acts (R252, R254). -/
def State.wrHoff (s : State) (w : Word) : State := if F.POOL_HOFF_GO.of w = 1 then s.hoffGo w else s.hoffAbort w

/-- A write of one of the registers of compression, encryption, memory, metering, counters or notices. -/
def State.writeData (s st : State) (name : String) (i j a : Nat) (w : Word) : Option State :=
  let idle (x : State) : Option State := some (if s.bit F.CMP_TCTL_BUSY then s else x)
  match name with
  | "CMP_TCTL" => some (s.wrTctl w)
  | "CMP_TDESC" => idle st
  | "CMP_TIN" => idle st
  | "CMP_TOUT" => idle st
  | "XTS_KEYIN" => some (s.setReg a w)
  | "XTS_KEYCTL" => some (st.wrKeyctl w)
  | "XTS_ZEROISE" => some (st.wrZeroise w)
  | "DIR_BLIND" => some (st.wrBlind w)
  | "TRN_INV" => some (st.wrInv w)
  | "TRN_ASSIGN" => some (st.wrAssign w)
  | "TRN_ET_DATA" => some (s.wrEtData w)
  | "MTR_CONS" => some (s.wrCons w)
  | "PRF_CTL" => some (st.wrPrfCtl i j)
  | "PRF_GCTL" => some (st.wrGctl w)
  | "NTQ_RELEASE" => some (st.ntqRelease w)
  | "NTQ_CTL" => some (st.ntqCtl w)
  | "FLTSTS" => some (st.wrFltsts (a / 0x10000))
  | "FLTFIRST" => some (st.wrFltfirst (a / 0x10000) w)
  | "FLTOVF" => some (st.wrFltovf (a / 0x10000) w)
  | _ => none

/-- A write of one of the registers of configuration, update, power, ports, cages or the pool. -/
def State.writeCtl (s st : State) (name : String) (i : Nat) (w : Word) : Option State :=
  match name with
  | "CFG_CTL" => some (st.wrCfgCtl w)
  | "FWU_CTL" => some (st.wrFwuCtlRaw w)
  | "FWU_CONFIRM" => some (st.confirm w false)
  | "PMU_CTL" => some (st.wrPmuCtl w)
  | "PMU_RESET" => some (st.wrPmuResetRaw w)
  | "ETH_CTL" => some (st.wrEthCtl i w)
  | "CAGE_CTL" => some (s.putCageCtl i w)
  | "CAGE_CMIS_CTL" => some (s.putCmis i w)
  | "POOL_DECLARE_DEAD" => some (st.declareDead w loseHoff)
  | "POOL_HOFF" => some (st.wrHoff w)
  | _ => none

/-- A write of the register `d` at address `a`: what it stores, and what it starts. -/
def State.writeReg (s : State) (d : RegDef) (a : Nat) (w : Word) : State :=
  let (i, j) := (d.place a).getD (0, 0)
  let st := s.storeReg d a w
  ((s.writeData st d.name i j a w).or (s.writeCtl st d.name i w)).getD st

/-- A CSR write as the crossbar performs it. -/
def State.csrWriteAt (s : State) (a : Nat) (w : Word) : State × CsrAns :=
  match regAt a with
  | some d => (s.writeReg d a w, ⟨0, 0, 0⟩)
  | none => (s, ⟨5, 0, 0⟩)

/-- A CsrRead (R108). -/
def execCsrRead (src : CsrSrc) (addr : BitVec 32) (s : State) : Host.Outcome State Fault Refusal :=
  .next (s.csrDo ⟨src, false, addr, none⟩ fun s => s.csrReadAt addr.toNat)

/-- A CsrWrite (R10, R108). -/
def execCsrWrite (src : CsrSrc) (addr : BitVec 32) (wdata : Word) (s : State) : Host.Outcome State Fault Refusal :=
  .next (s.csrDo ⟨src, true, addr, some wdata⟩ fun s => s.csrWriteAt addr.toNat wdata)

/-- The register at an address has an RWS field. -/
def hasRws (a : Nat) : Bool :=
  match regAt a with
  | some d => decide (d.rws ≠ 0)
  | none => false

/-- A CsrWrite of a register with an RWS field (R489). -/
def execRwsWrite (src : CsrSrc) (addr : BitVec 32) (wdata : Word) (s : State) : Host.Outcome State Fault Refusal :=
  .next (if hasRws addr.toNat then s.csrDo ⟨src, true, addr, some wdata⟩ fun s => s.csrWriteAt addr.toNat wdata else s)

/-- A request whose target domain has not accepted it within 1 ms (R516). -/
def execCsrTimeout (src : CsrSrc) (addr : BitVec 32) (write : Bool) (s : State) : Host.Outcome State Fault Refusal :=
  .next (s.csrDo ⟨src, write, addr, none⟩ fun s => (s.record (occ bGBL Cause.gbl_CSR_TIMEOUT), ⟨15, 0, 0⟩))

/-- DECLARE_DEAD (R160). -/
def execDeclareDead (src : CsrSrc) (wdata : Word) (s : State) : Host.Outcome State Fault Refusal :=
  .next (s.csrTrig src F.POOL_DECLARE_DEAD.key wdata (F.POOL_DECLARE_DEAD_GO.of wdata = 1) fun s =>
    s.declareDead wdata loseHoff)

/-- POOL_HOFF.GO (R252). -/
def execHoffGo (src : CsrSrc) (wdata : Word) (s : State) : Host.Outcome State Fault Refusal :=
  .next (s.csrTrig src F.POOL_HOFF.key wdata (F.POOL_HOFF_GO.of wdata = 1) fun s => s.wrHoff wdata)

/-- POOL_HOFF.ABORT (R254). -/
def execHoffAbort (src : CsrSrc) (wdata : Word) (s : State) : Host.Outcome State Fault Refusal :=
  .next (s.csrTrig src F.POOL_HOFF.key wdata (F.POOL_HOFF_ABORT.of wdata = 1) fun s => s.wrHoff wdata)

/-- The CSR requests of a management datagram; none where it holds another message or is malformed (R512). -/
def parseCsr : Nat → List Byte → Option (List Msg)
  | 0, l => if l = [] then some [] else none
  | n + 1, l =>
    match parseMsg l with
    | some m => if Msg.isCsr m then (parseCsr n (l.drop (opcSize (bytesAt l 0 1)))).map (m :: ·) else none
    | none => none

/-- The requests of a management datagram whose VER, COUNT and length are right (R512). -/
def parseMgt (l : List Byte) : Option (List Msg) :=
  let n := bytesAt l 1 1 % 128
  if l.length < 8 ∨ bytesAt l 0 1 % 16 ≠ 1 ∨ n = 0 ∨ 64 < n then none else parseCsr n (l.drop 8)

/-- One request of a management source by its message. -/
def State.mgmtMsg (s : State) (ip : BitVec 32) (port : BitVec 16) : Msg → State × Msg
  | .csrRead t a => s.mgmtOne ip port t ⟨.mgmt ip port t, false, a, none⟩ fun s => s.csrReadAt a.toNat
  | .csrWrite t a w => s.mgmtOne ip port t ⟨.mgmt ip port t, true, a, some w⟩ fun s => s.csrWriteAt a.toNat w
  | m => (s, m)

/-- The requests of a datagram in order, with their answers; nothing after a reset (R517). -/
def State.mgmtAll (s : State) (ip : BitVec 32) (port : BitVec 16) : List Msg → State × List Msg
  | [] => (s, [])
  | m :: l =>
    let (s', r) := s.mgmtMsg ip port m
    if s'.sys.csr.resets ≠ s.sys.csr.resets ∨ !s'.csrUp then (s', [r])
    else
      let (s'', rs) := s'.mgmtAll ip port l
      (s'', r :: rs)

/-- A UDP datagram at port 30124 of the management port (R512 to R514). -/
def State.mgtDatagram (s : State) (ip : BitVec 32) (port : BitVec 16) (payload : List Byte) : State :=
  if !s.csrUp then s
  else
    match parseMgt payload with
    | none => s
    | some l =>
      let (s', rs) := s.mgmtAll ip port l
      s.answerLater s' ⟨ip, port, mgtBytes rs⟩

def execMgtDatagram (ip : BitVec 32) (port : BitVec 16) (payload : List Byte) (s : State) :
    Host.Outcome State Fault Refusal :=
  .next (s.mgtDatagram ip port payload)

/-- The ARP reply of RFC 826 to a sender. -/
def arpReply (mac : BitVec 48) (ip target : BitVec 32) : List Byte :=
  beBytes 2 1 ++ beBytes 2 0x0800 ++ [6, 4] ++ beBytes 2 2 ++ beBytes 6 Config.mgtMac.toNat ++ beBytes 4 target.toNat
    ++ beBytes 6 mac.toNat ++ beBytes 4 ip.toNat

/-- An ARP request for the management port's address (R512). -/
def State.arp (s : State) (mac : BitVec 48) (ip target : BitVec 32) : State :=
  if s.mgtUp ∧ target = s.mgtAddr then s.sendMgt ⟨ip, 0, arpReply mac ip target⟩ else s

def execArp (senderMac : BitVec 48) (senderIp targetIp : BitVec 32) (s : State) : Host.Outcome State Fault Refusal :=
  .next (s.arp senderMac senderIp targetIp)

/-- The sum of a packet's 16-bit words, most significant byte first; a last odd byte is padded with 0. -/
def wordSum : List Byte → Nat
  | a :: b :: l => a.toNat * 256 + b.toNat + wordSum l
  | [a] => a.toNat * 256
  | [] => 0

/-- The checksum of RFC 792: the complement of the ones' complement sum. -/
def icmpSum (l : List Byte) : Nat := 65535 - (if wordSum l = 0 then 0 else (wordSum l - 1) % 65535 + 1)

/-- The echo reply of RFC 792. -/
def echoReply (ident seqNo : BitVec 16) (payload : List Byte) : List Byte :=
  let rest := beBytes 2 ident.toNat ++ beBytes 2 seqNo.toNat ++ payload
  [0, 0] ++ beBytes 2 (icmpSum rest) ++ rest

/-- An ICMP echo request to the management port's address (R512). -/
def State.icmpEcho (s : State) (src dst : BitVec 32) (ident seqNo : BitVec 16) (payload : List Byte) : State :=
  if s.mgtUp ∧ dst = s.mgtAddr then s.sendMgt ⟨src, 0, echoReply ident seqNo payload⟩ else s

def execIcmpEcho (srcIp dstIp : BitVec 32) (ident seqNo : BitVec 16) (payload : List Byte) (s : State) :
    Host.Outcome State Fault Refusal :=
  .next (s.icmpEcho srcIp dstIp ident seqNo payload)

end Sys2Proof.Machine
end

