-- ==== Sys2Proof/Machine/Dispatch.lean ====
section
/-! DEFINITION. The dispatch: one arm per command, each one direct call of that command's meaning. -/

namespace Sys2Proof.Machine

/-- The effect of a command on everything but the queue. -/
def exec (i : Instr) (s : State) : Host.Outcome State Fault Refusal :=
  match i with
  | .data f => Sys2Proof.Machine.execData f s
  | .ack f => Sys2Proof.Machine.execAck f s
  | .nak f => Sys2Proof.Machine.execNak f s
  | .heartbeat f => Sys2Proof.Machine.execHeartbeat f s
  | .connect f isn => Sys2Proof.Machine.execConnect f isn s
  | .close f => Sys2Proof.Machine.execClose f s
  | .audit f => Sys2Proof.Machine.execAudit f s
  | .pause f => Sys2Proof.Machine.execPause f s
  | .sync f offset => Sys2Proof.Machine.execSync f offset s
  | .holdover => Sys2Proof.Machine.execHoldover s
  | .standaloneAck conn => Sys2Proof.Machine.execStandaloneAck conn s
  | .sendData conn tc => Sys2Proof.Machine.execSendData conn tc s
  | .replayTimerExpiry conn => Sys2Proof.Machine.execReplayTimerExpiry conn s
  | .heartbeatSend path => Sys2Proof.Machine.execHeartbeatSend path s
  | .pathBroken path => Sys2Proof.Machine.execPathBroken path s
  | .pathUp path => Sys2Proof.Machine.execPathUp path s
  | .creditTimeout conn tc => Sys2Proof.Machine.execCreditTimeout conn tc s
  | .auditSend conn => Sys2Proof.Machine.execAuditSend conn s
  | .holdFlush conn => Sys2Proof.Machine.execHoldFlush conn s
  | .csrRead src addr => Sys2Proof.Machine.execCsrRead src addr s
  | .csrWrite src addr wdata => Sys2Proof.Machine.execCsrWrite src addr wdata s
  | .rwsWrite src addr wdata => Sys2Proof.Machine.execRwsWrite src addr wdata s
  | .csrTimeout src addr write => Sys2Proof.Machine.execCsrTimeout src addr write s
  | .mgtDatagram ip port payload => Sys2Proof.Machine.execMgtDatagram ip port payload s
  | .arp senderMac senderIp targetIp => Sys2Proof.Machine.execArp senderMac senderIp targetIp s
  | .icmpEcho srcIp dstIp ident seqNo payload => Sys2Proof.Machine.execIcmpEcho srcIp dstIp ident seqNo payload s
  | .mgtLink => Sys2Proof.Machine.execMgtLink s
  | .readShared conn hdr => Sys2Proof.Machine.execReadShared conn hdr s
  | .readOwn conn hdr => Sys2Proof.Machine.execReadOwn conn hdr s
  | .upgrade conn hdr => Sys2Proof.Machine.execUpgrade conn hdr s
  | .readNoCache conn hdr => Sys2Proof.Machine.execReadNoCache conn hdr s
  | .writeNoCache conn hdr mask line => Sys2Proof.Machine.execWriteNoCache conn hdr mask line s
  | .writeBack conn hdr line => Sys2Proof.Machine.execWriteBack conn hdr line s
  | .evictClean conn hdr => Sys2Proof.Machine.execEvictClean conn hdr s
  | .fetchAdd conn hdr opa => Sys2Proof.Machine.execFetchAdd conn hdr opa s
  | .swap conn hdr opa => Sys2Proof.Machine.execSwap conn hdr opa s
  | .compareSwap conn hdr opa opb => Sys2Proof.Machine.execCompareSwap conn hdr opa opb s
  | .fence conn hdr => Sys2Proof.Machine.execFence conn hdr s
  | .snpRsp conn newState wbif tenant snptx agent pa => Sys2Proof.Machine.execSnpRsp conn newState wbif tenant snptx agent pa s
  | .snpRspData conn newState dirty tenant snptx agent pa line => Sys2Proof.Machine.execSnpRspData conn newState dirty tenant snptx agent pa line s
  | .fwdToHome chan env inner => Sys2Proof.Machine.execFwdToHome chan env inner s
  | .fwdToOrigin chan env inner => Sys2Proof.Machine.execFwdToOrigin chan env inner s
  | .resultRelease chan origin oconn txid => Sys2Proof.Machine.execResultRelease chan origin oconn txid s
  | .declareDead src wdata => Sys2Proof.Machine.execDeclareDead src wdata s
  | .deadNotice chan done node declarer dseq => Sys2Proof.Machine.execDeadNotice chan done node declarer dseq s
  | .picotFrame f => Sys2Proof.Machine.execPicotFrame f s
  | .picotReplayTimer chan => Sys2Proof.Machine.execPicotReplayTimer chan s
  | .picotIdleUnit chan => Sys2Proof.Machine.execPicotIdleUnit chan s
  | .picotPathBroken chan => Sys2Proof.Machine.execPicotPathBroken chan s
  | .chanStart chan echov src dst bank rgen rgenEcho poolver => Sys2Proof.Machine.execChanStart chan echov src dst bank rgen rgenEcho poolver s
  | .chanstartResend chan => Sys2Proof.Machine.execChanstartResend chan s
  | .seqReq chan kind node rtag epoch pa mask line => Sys2Proof.Machine.execSeqReq chan kind node rtag epoch pa mask line s
  | .seqGrant chan status node rtag epoch seqno => Sys2Proof.Machine.execSeqGrant chan status node rtag epoch seqno s
  | .seqBusyResend rtag => Sys2Proof.Machine.execSeqBusyResend rtag s
  | .replApply chan kind node rtag epoch pa seqno line => Sys2Proof.Machine.execReplApply chan kind node rtag epoch pa seqno line s
  | .replDone chan status node rtag seqno => Sys2Proof.Machine.execReplDone chan status node rtag seqno s
  | .lendReq chan kind node rtag frame count => Sys2Proof.Machine.execLendReq chan kind node rtag frame count s
  | .lendGrant chan status node rtag frame count lgen => Sys2Proof.Machine.execLendGrant chan status node rtag frame count lgen s
  | .remAccess chan kind node rtag line frame lgen pa owner gen ksel poison data => Sys2Proof.Machine.execRemAccess chan kind node rtag line frame lgen pa owner gen ksel poison data s
  | .remAnswer chan status node rtag line frame lgen data => Sys2Proof.Machine.execRemAnswer chan status node rtag line frame lgen data s
  | .roleState chan kind node epoch entries => Sys2Proof.Machine.execRoleState chan kind node epoch entries s
  | .roleResend chan node oconn txid => Sys2Proof.Machine.execRoleResend chan node oconn txid s
  | .hoffGo src wdata => Sys2Proof.Machine.execHoffGo src wdata s
  | .hoffAbort src wdata => Sys2Proof.Machine.execHoffAbort src wdata s
  | .hoffCopyDone => Sys2Proof.Machine.execHoffCopyDone s
  | .hoffLost => Sys2Proof.Machine.execHoffLost s
  | .handoffWindowClose => Sys2Proof.Machine.execHandoffWindowClose s
  | .trnAssignAssign src wdata => Sys2Proof.Machine.execTrnAssignAssign src wdata s
  | .trnAssignReassign src wdata => Sys2Proof.Machine.execTrnAssignReassign src wdata s
  | .trnAssignRelease src wdata => Sys2Proof.Machine.execTrnAssignRelease src wdata s
  | .assignDone => Sys2Proof.Machine.execAssignDone s
  | .trnInvTenantRange src wdata => Sys2Proof.Machine.execTrnInvTenantRange src wdata s
  | .trnInvTenant src wdata => Sys2Proof.Machine.execTrnInvTenant src wdata s
  | .trnInvAll src wdata => Sys2Proof.Machine.execTrnInvAll src wdata s
  | .trnInvDone => Sys2Proof.Machine.execTrnInvDone s
  | .trnEtDataWrite src wdata => Sys2Proof.Machine.execTrnEtDataWrite src wdata s
  | .trnEtDataRead src => Sys2Proof.Machine.execTrnEtDataRead src s
  | .lineReadReturn frame line source err => Sys2Proof.Machine.execLineReadReturn frame line source err s
  | .mergeEntryClose group line => Sys2Proof.Machine.execMergeEntryClose group line s
  | .patrolRead => Sys2Proof.Machine.execPatrolRead s
  | .dimmTempRead channel temp => Sys2Proof.Machine.execDimmTempRead channel temp s
  | .chanHalt channel => Sys2Proof.Machine.execChanHalt channel s
  | .memRetireClear src channel wdata => Sys2Proof.Machine.execMemRetireClear src channel wdata s
  | .memFlipctl src channel wdata => Sys2Proof.Machine.execMemFlipctl src channel wdata s
  | .eccPflip src wdata => Sys2Proof.Machine.execEccPflip src wdata s
  | .dirPflip src wdata => Sys2Proof.Machine.execDirPflip src wdata s
  | .dirBlindClr src wdata => Sys2Proof.Machine.execDirBlindClr src wdata s
  | .scan => Sys2Proof.Machine.execScan s
  | .heatEpoch => Sys2Proof.Machine.execHeatEpoch s
  | .migrationComplete page => Sys2Proof.Machine.execMigrationComplete page s
  | .migAbandon page => Sys2Proof.Machine.execMigAbandon page s
  | .segmentStore page seg => Sys2Proof.Machine.execSegmentStore page seg s
  | .segmentFill page seg => Sys2Proof.Machine.execSegmentFill page seg s
  | .cmpTestDecode src wdata => Sys2Proof.Machine.execCmpTestDecode src wdata s
  | .cmpTestCompress src wdata => Sys2Proof.Machine.execCmpTestCompress src wdata s
  | .cmpTestDone => Sys2Proof.Machine.execCmpTestDone s
  | .cmpPflip src wdata => Sys2Proof.Machine.execCmpPflip src wdata s
  | .load src wdata => Sys2Proof.Machine.execLoad src wdata s
  | .clearSlot src wdata => Sys2Proof.Machine.execClearSlot src wdata s
  | .keySlotReload die slot uncorrectable => Sys2Proof.Machine.execKeySlotReload die slot uncorrectable s
  | .xtsZeroise src wdata => Sys2Proof.Machine.execXtsZeroise src wdata s
  | .alarmWindow => Sys2Proof.Machine.execAlarmWindow s
  | .rekeyDone tenant => Sys2Proof.Machine.execRekeyDone tenant s
  | .tick => Sys2Proof.Machine.execTick s
  | .snapshot => Sys2Proof.Machine.execSnapshot s
  | .mtrCons src wdata => Sys2Proof.Machine.execMtrCons src wdata s
  | .mtrLrdRead src => Sys2Proof.Machine.execMtrLrdRead src s
  | .mtrTaccRead src => Sys2Proof.Machine.execMtrTaccRead src s
  | .ppsIn width => Sys2Proof.Machine.execPpsIn width s
  | .ppsOut => Sys2Proof.Machine.execPpsOut s
  | .counterOverflow bank ctr txid tenant tv => Sys2Proof.Machine.execCounterOverflow bank ctr txid tenant tv s
  | .prfCtl src bank ctr wdata => Sys2Proof.Machine.execPrfCtl src bank ctr wdata s
  | .freeze src wdata => Sys2Proof.Machine.execFreeze src wdata s
  | .clear src wdata => Sys2Proof.Machine.execClear src wdata s
  | .dump => Sys2Proof.Machine.execDump s
  | .prfDrdRead src => Sys2Proof.Machine.execPrfDrdRead src s
  | .causeClear src block wdata => Sys2Proof.Machine.execCauseClear src block wdata s
  | .fltfirstClear src block wdata => Sys2Proof.Machine.execFltfirstClear src block wdata s
  | .fltovfClear src block wdata => Sys2Proof.Machine.execFltovfClear src block wdata s
  | .holdoffExpiry block code => Sys2Proof.Machine.execHoldoffExpiry block code s
  | .ntqPop src => Sys2Proof.Machine.execNtqPop src s
  | .ntqRelease src wdata => Sys2Proof.Machine.execNtqRelease src wdata s
  | .mark src wdata => Sys2Proof.Machine.execMark src wdata s
  | .rewind src wdata => Sys2Proof.Machine.execRewind src wdata s
  | .feedGood feed mv => Sys2Proof.Machine.execFeedGood feed mv s
  | .feedLow feed mv => Sys2Proof.Machine.execFeedLow feed mv s
  | .feedAbsent feed mv => Sys2Proof.Machine.execFeedAbsent feed mv s
  | .feedOvercurrent feed => Sys2Proof.Machine.execFeedOvercurrent feed s
  | .rtavailUpdate loadW soc vpackMv ipack10ma edlcFcc => Sys2Proof.Machine.execRtavailUpdate loadW soc vpackMv ipack10ma edlcFcc s
  | .rideExpiry energyShort => Sys2Proof.Machine.execRideExpiry energyShort s
  | .drainComplete => Sys2Proof.Machine.execDrainComplete s
  | .returnMs feed => Sys2Proof.Machine.execReturnMs feed s
  | .resumeComplete lost inp => Sys2Proof.Machine.execResumeComplete lost inp s
  | .retentionExhausted => Sys2Proof.Machine.execRetentionExhausted s
  | .stbyEnter src wdata => Sys2Proof.Machine.execStbyEnter src wdata s
  | .stbyExit src wdata => Sys2Proof.Machine.execStbyExit src wdata s
  | .captest src wdata => Sys2Proof.Machine.execCaptest src wdata s
  | .capabort src wdata => Sys2Proof.Machine.execCapabort src wdata s
  | .captestDone energyTenthWh => Sys2Proof.Machine.execCaptestDone energyTenthWh s
  | .packTempRead temp sensorOk => Sys2Proof.Machine.execPackTempRead temp sensorOk s
  | .gaugePoll answered overTemp overCharge => Sys2Proof.Machine.execGaugePoll answered overTemp overCharge s
  | .chargeTermination => Sys2Proof.Machine.execChargeTermination s
  | .packCheck present voltageOk thermistorOk gaugeOk reversed full => Sys2Proof.Machine.execPackCheck present voltageOk thermistorOk gaugeOk reversed full s
  | .moduleReset src wdata inp => Sys2Proof.Machine.execModuleReset src wdata inp s
  | .warmReset src wdata inp => Sys2Proof.Machine.execWarmReset src wdata inp s
  | .mcRestart reason => Sys2Proof.Machine.execMcRestart reason s
  | .rstN widthNs inp => Sys2Proof.Machine.execRstN widthNs inp s
  | .coldStart inp => Sys2Proof.Machine.execColdStart inp s
  | .poolReady => Sys2Proof.Machine.execPoolReady s
  | .pmuRestart => Sys2Proof.Machine.execPmuRestart s
  | .sequencer engine => Sys2Proof.Machine.execSequencer engine s
  | .tierSequencer => Sys2Proof.Machine.execTierSequencer s
  | .resetA src block wdata => Sys2Proof.Machine.execResetA src block wdata s
  | .resetB src block wdata => Sys2Proof.Machine.execResetB src block wdata s
  | .linkDown port => Sys2Proof.Machine.execLinkDown port s
  | .linkUp port => Sys2Proof.Machine.execLinkUp port s
  | .fecDegrade port uncorrectable => Sys2Proof.Machine.execFecDegrade port uncorrectable s
  | .presence cage info => Sys2Proof.Machine.execPresence cage info s
  | .moduleReady cage => Sys2Proof.Machine.execModuleReady cage s
  | .dpActivated cage => Sys2Proof.Machine.execDpActivated cage s
  | .cageTimeout cage => Sys2Proof.Machine.execCageTimeout cage s
  | .cmisPoll cage temp intFlag highTemp losOrLol => Sys2Proof.Machine.execCmisPoll cage temp intFlag highTemp losOrLol s
  | .presenceLost cage => Sys2Proof.Machine.execPresenceLost cage s
  | .cageOvercurrent cage => Sys2Proof.Machine.execCageOvercurrent cage s
  | .cageReset src cage wdata => Sys2Proof.Machine.execCageReset src cage wdata s
  | .hostown src cage wdata => Sys2Proof.Machine.execHostown src cage wdata s
  | .cmisTransfer src cage wdata => Sys2Proof.Machine.execCmisTransfer src cage wdata s
  | .thermalWarn t => Sys2Proof.Machine.execThermalWarn t s
  | .thermalTrip t => Sys2Proof.Machine.execThermalTrip t s
  | .smbusBlockRead cmd => Sys2Proof.Machine.execSmbusBlockRead cmd s
  | .commit src wdata => Sys2Proof.Machine.execCommit src wdata s
  | .check src wdata => Sys2Proof.Machine.execCheck src wdata s
  | .cancel src wdata => Sys2Proof.Machine.execCancel src wdata s
  | .discard src wdata => Sys2Proof.Machine.execDiscard src wdata s
  | .checkDone => Sys2Proof.Machine.execCheckDone s
  | .groupProgrammed failed => Sys2Proof.Machine.execGroupProgrammed failed s
  | .commitInstant => Sys2Proof.Machine.execCommitInstant s
  | .appliedRecord failed => Sys2Proof.Machine.execAppliedRecord failed s
  | .eraseDone => Sys2Proof.Machine.execEraseDone s
  | .erase src wdata => Sys2Proof.Machine.execErase src wdata s
  | .program src wdata => Sys2Proof.Machine.execProgram src wdata s
  | .verify src wdata => Sys2Proof.Machine.execVerify src wdata s
  | .start src wdata inp => Sys2Proof.Machine.execStart src wdata inp s
  | .revert src wdata => Sys2Proof.Machine.execRevert src wdata s
  | .updateStep => Sys2Proof.Machine.execUpdateStep s
  | .stepFail => Sys2Proof.Machine.execStepFail s
  | .fwuConfirm src wdata fusesFail => Sys2Proof.Machine.execFwuConfirm src wdata fusesFail s
  | .wrq srcIp srcPort filename mode bundle => Sys2Proof.Machine.execWrq srcIp srcPort filename mode bundle s
  | .rrq srcIp srcPort filename mode => Sys2Proof.Machine.execRrq srcIp srcPort filename mode s
  | .tftpRetransmit => Sys2Proof.Machine.execTftpRetransmit s
  | .recoveryWritten inp => Sys2Proof.Machine.execRecoveryWritten inp s
  | .islandFault => Sys2Proof.Machine.execIslandFault s
  | .powerCycleOutOfLock => Sys2Proof.Machine.execPowerCycleOutOfLock s
  | .mcRestartDone => Sys2Proof.Machine.execMcRestartDone s
  | .rstNRelease => Sys2Proof.Machine.execRstNRelease s
  | .picotGraceExpiry chan => Sys2Proof.Machine.execPicotGraceExpiry chan s
  | .chargeRestart => Sys2Proof.Machine.execChargeRestart s
  | .cutBackRelease feed => Sys2Proof.Machine.execCutBackRelease feed s
  | .fwuOperationDone failed => Sys2Proof.Machine.execFwuOperationDone failed s
  | .cmisTransferDone cage noAck rdata => Sys2Proof.Machine.execCmisTransferDone cage noAck rdata s

end Sys2Proof.Machine
end

