-- ==== Sys2Proof/Safety.lean ====
section
/-! DEFINITION. The terms in which claims speak: canonical forms, and when a CSR request is served and what its service
is. -/

namespace Sys2Proof.Machine

/-- The registers are in canonical form: rising keys, and no entry that equals its reset value. -/
def State.regsOk (s : State) : Bool := swf regReset s.regs

/-- The DRAM lines, and their error patterns, are in canonical form: rising keys, and no entry that reads as unlisted. -/
def Memory.wf (m : Mem) : Bool := swf (fun _ => 0) m.dram && swf (fun _ => 0) m.dramErr

/-- No answer for this request is held in the management cache (R514). -/
def State.uncached (s : State) : CsrSrc → Bool
  | .inband _ _ => true
  | .mgmt ip port t => (s.cached ip port t).isNone

/-- The state in which an admitted request acts: SERVED has counted it (R515). -/
def State.counted (s : State) : State := s.incFld F.GBL_CSRCNT_SERVED

/-- A CSR request is served: it reaches the crossbar, the management core runs, no parity error hits the crossbar, the access
lists admit it, the register exists and is reached there, and LOCK does not bar it (R445, R511 to R521). -/
def State.admits (s : State) (r : CsrReq) : Bool :=
  let k := r.addr.toNat
  s.reaches r && s.uncached r.src && !s.sys.csr.mcDown && !s.overLimit r && !s.sys.csr.xbarBad && s.csrAllowed r
    && !mirrorsZero k && !s.counted.bankAway k
    && (match regAt k with
      | some d => !(s.locked && r.write && !lockWritable d)
      | none => false)

/-- A write of the register at `k` is served. -/
def State.admitsWrite (s : State) (src : CsrSrc) (k : Nat) (w : Word) : Bool := decide (k < 2 ^ 32) && s.admits (writeReq src k w)

/-- A read of the register at `k` is served. -/
def State.admitsRead (s : State) (src : CsrSrc) (k : Nat) : Bool := decide (k < 2 ^ 32) && s.admits (readReq src k)

/-- The state after the stored part of an admitted write. -/
def State.stored (s : State) (k : Nat) (w : Word) : State :=
  match regAt k with
  | some d => s.counted.storeReg d k w
  | none => s.counted

/-- The end of an admitted request whose access left `t` and answers `a`: what follows every step of the datapath, then the
CsrRsp on the connection or in a management datagram (R108, R512, R514, R517). -/
def State.answered (s : State) (r : CsrReq) (t : State) (a : CsrAns) : State :=
  let t := if s.counted.dataUp && t.dataUp then s.counted.after t else t
  match r.src with
  | .inband k x => s.answerBand (t.takeMsg k.toNat 0 (r.is x)) k.toNat x (a.msg x)
  | .mgmt ip port x =>
    let t := if a.status = 9 ∨ t.sys.csr.mcDown ∨ t.sys.csr.resets ≠ s.sys.csr.resets then t
      else t.keepAnswer ip port x (a.msg x)
    s.answerLater t ⟨ip, port, mgtBytes [a.msg x]⟩

/-- The answer of a write that is served: STATUS 0. -/
def wrote : CsrAns := ⟨0, 0, 0⟩

/-- `i`, a write of `w` to the register at `k`, completes with `t` as what its access leaves, wherever it is admitted. -/
def State.Writes (s : State) (i : Instr) (src : CsrSrc) (k : Nat) (w : Word) (t : State) : Prop :=
  s.admitsWrite src k w = true → exec i s = .next (s.answered (writeReq src k w) t wrote)

/-- `i`, a read of the register at `k`, completes with `v` as its value and `t` as what its access leaves, wherever it is
admitted. -/
def State.Reads (s : State) (i : Instr) (src : CsrSrc) (k : Nat) (t : State) (v : Word) : Prop :=
  s.admitsRead src k = true → exec i s = .next (s.answered (readReq src k) t ⟨0, 0, v⟩)

/-- `i`, a step of the datapath, completes with `t` as what it does itself, while the datapath runs; then everything that can
go on by itself does (R185, R253, R281). -/
def State.Moves (s : State) (i : Instr) (t : State) : Prop := s.dataUp = true → exec i s = .next (s.after t)

/-- `i`, the arrival of the message `m` on a channel, completes with `t` as what it does itself, wherever `m` is the next of its
channel (R117, R118). -/
def State.Hears (s : State) (chan : ChanId) (m : PMsg) (i : Instr) (t : State) : Prop :=
  s.chanNext chan (fun x => decide (x = m)) = true → s.Moves i t

/-- What follows a step that leaves `t`: where the datapath runs before and after it, everything that can go on by itself. -/
def State.goesOn (s t : State) : State := if s.dataUp && t.dataUp then s.after t else t

/-- The frame `f` reaches the handler of its Coldel type as `h` and `payload`: its port is ready, its destination is the
module's, and it passes checks 1 to 9 (R111). -/
def State.takesFrame (s : State) (f : RxFrame) (h : CHdr) (payload : List Byte) : Bool :=
  s.hasPort f.port && (s.port f.port).ready && s.dstAccepted f && decide (s.rxChecks f = (s, some (h, payload)))

/-- The path on which a frame arrived. -/
def pathTaken (f : RxFrame) : Path := ⟨f.port, vidOfTag f.tag, f.src⟩

/-- The path of a frame is one of the connection's (check 11 of R111). -/
def State.pathOfConn (s : State) (k : Nat) (f : RxFrame) : Bool :=
  decide (pathTaken f = s.connPath k false) || (s.hasAlt k && decide (pathTaken f = s.connPath k true))

/-- A request that is turned away with `a`: nothing has been accessed, and `t` is what the crossbar has counted (R511 to R517). A
STATUS 9 is not kept in the management cache (R514). -/
def State.turnedAway (s : State) (r : CsrReq) (t : State) (a : CsrAns) : State :=
  match r.src with
  | .inband k x => s.answerBand (t.takeMsg k.toNat 0 (r.is x)) k.toNat x (a.msg x)
  | .mgmt ip port x =>
    s.answerLater (if a.status = 9 then t else t.keepAnswer ip port x (a.msg x)) ⟨ip, port, mgtBytes [a.msg x]⟩

end Sys2Proof.Machine

namespace Sys2Proof

open Sys2Proof.Machine

/-- A request uses only the operand fields that its opcode has (R104). -/
def Req.canon (r : Req) : Bool :=
  (decide (r.op = .writeNoCache) || decide (r.mask = 0))
    && (decide (r.op = .writeNoCache) || decide (r.op = .writeBack) || decide (r.data = 0))
    && (r.op.isAtomic || (decide (r.opa = 0) && decide (r.opb = 0)))

/-- A response uses only the fields that its opcode has (R106). -/
def Resp.canon (r : Resp) : Bool :=
  (if r.op = .nak then decide (r.pa = 0) else decide (r.hint = 0) && decide (r.epoch = 0) && decide (r.redirect = 0))
    && (decide (r.op = .data) || decide (r.op = .dataOwned) || decide (r.line = 0))
    && (decide (r.op = .atomicData) || decide (r.old = 0))

/-- A message whose unused fields are 0. -/
def Msg.canon : Msg → Bool
  | .req r => r.canon
  | .resp r => r.canon
  | _ => true

/-- A RoleState entry of a KIND (R263). -/
def RoleEntry.ofKind (kind : Nat) : RoleEntry → Bool
  | .copy _ _ => decide (kind = 0)
  | .dirent _ _ => decide (kind = 1)
  | .residual _ => decide (kind = 2)
  | .movedTx _ _ _ _ _ => decide (kind = 3)
  | .result _ _ _ _ => decide (kind = 4)
  | .lineDone _ _ => decide (kind = 5)
  | .bobbin _ => decide (kind = 6)
  | .endMark => decide (kind = 7)
  | .abort => decide (kind = 8)

/-- A Picot message whose unused fields are 0 and whose entries are those of its KIND (R119, R236, R249, R263, R300). -/
def PMsg.canon : PMsg → Bool
  | .fwdToHome _ m => m.canon
  | .fwdToOrigin _ m => m.canon
  | .seqReq k _ _ _ _ m d => decide (k = 0) || (decide (m = 0) && decide (d = 0))
  | .replApply k _ _ _ _ _ d => decide (k = 0) || decide (d = 0)
  | .remAccess k _ _ _ f g pa o gen ks ps d =>
    if k.toNat < 2 then
      decide (pa = 0) && decide (o = 0) && decide (gen = 0) && !ks && decide (ps = 0) && (decide (k = 1) || decide (d = 0))
    else
      decide (f = 0) && decide (g = 0)
        && (if k = 2 then decide (d = 0) else decide (o = 0) && decide (gen = 0) && !ks && decide (ps = 0))
  | .roleState k _ _ l =>
    (l.all fun e => e.ofKind k.toNat)
      && (if k.toNat < 7 then decide (l.length < 2 ^ 16) else decide (l.length = if k.toNat < 9 then 1 else 0))
  | _ => true

/-- A tag belongs to a KIND 0 read exactly where its REMANSWER carries data (R300). -/
def PMsg.tagRead (reads : Nat → Bool) : PMsg → Bool
  | .remAnswer st _ r _ _ _ d => decide ((decide (st.toNat % 4 = 0) && reads r.toNat) = d.isSome)
  | _ => true

/-- The fields of a Coldel header lie within their widths (R83). -/
def CHdr.inRange (h : CHdr) : Bool :=
  decide (h.ver < 16) && decide (h.type < 16) && decide (h.tc < 4) && decide (h.conn < 2 ^ 16) && decide (h.plen < 2 ^ 10)

/-- A directory entry lists at most three sharers under FMT 0 and only a vector under FMT 1 (R206). -/
def Machine.DirEnt.canon (e : DirEnt) : Bool :=
  if e.fmt then e.shr.isEmpty else decide (e.shr.length ≤ 3) && decide (e.gvec = 0)

end Sys2Proof
end

