-- ==== Sys2Proof/Certificates/Slice0/Obligations.lean ====
section
/-! DEFINITION. The statements about this block: what each command does where its conditions hold, and the rules of the spec
that bind the whole module. -/

open Sys2Proof Sys2Proof.Machine

/-- R67, R68, R71, R55, R73: a write of TRN_ASSIGN that finds the unit idle registers its operation and sets BUSY; one of
TRN_INV drops what its scope names and sets BUSY; TRN_ET_DATA writes and reads the entry at OFF, and AINC moves OFF on. -/
def Obligations.TranslationWritesComplete : Prop :=
  ∀ (s u v : State) (src : CsrSrc) (w : Word), u = s.stored F.TRN_ASSIGN.key w → v = s.stored F.TRN_INV.key w →
    (∀ op i, (op, i) ∈ [(0, Instr.trnAssignAssign src w), (1, .trnAssignReassign src w), (2, .trnAssignRelease src w)] →
      wbit w 0 = true → s.fld F.TRN_ASSIGN_ARG0_OP = op → u.fld F.TRN_ASSIGN_ARG0_OP = op →
      u.bit F.TRN_ASSIGN_STS_BUSY = false →
      s.Writes i src F.TRN_ASSIGN.key w ({ u with home.assign := some ⟨op, u.fld F.TRN_ASSIGN_ARG0_HSLOT,
        u.fld F.TRN_ASSIGN_ARG0_TENANT, u.fld F.TRN_ASSIGN_ARG1_PAEXT⟩ }.setFld F.TRN_ASSIGN_STS_BUSY 1)) ∧
    (v.bit F.TRN_INV_STS_BUSY = false →
      (wbits w 0 2 = 0 → s.Writes (.trnInvTenantRange src w) src F.TRN_INV.key w ((v.dropCached fun t e =>
        decide (t = wbits w 2 12) && (decide (v.fld F.TRN_INV_RANGE_START ≤ e) && (decide (v.fld F.TRN_INV_RANGE_COUNT = 0)
          || decide (e < v.fld F.TRN_INV_RANGE_START + v.fld F.TRN_INV_RANGE_COUNT)))).setFld F.TRN_INV_STS_BUSY 1)) ∧
      (wbits w 0 2 = 1 → s.Writes (.trnInvTenant src w) src F.TRN_INV.key w
        ((v.dropCached fun t _ => decide (t = wbits w 2 12)).setFld F.TRN_INV_STS_BUSY 1)) ∧
      (wbits w 0 2 = 2 → s.Writes (.trnInvAll src w) src F.TRN_INV.key w
        ((v.dropCached fun _ _ => true).setFld F.TRN_INV_STS_BUSY 1))) ∧
    (s.counted.slotCount ≤ s.counted.fld F.TRN_ET_ADDR_OFF → s.counted.fld F.TRN_ET_ADDR_OFF < s.counted.etrBytes / 8 →
      s.Writes (.trnEtDataWrite src w) src F.TRN_ET_DATA.key w (s.counted.setSlot (s.counted.fld F.TRN_ET_ADDR_OFF) w).etNext) ∧
    (s.counted.fld F.TRN_ET_ADDR_OFF < s.counted.etrBytes / 8 →
      s.mem.etrBad.contains (s.counted.fld F.TRN_ET_ADDR_OFF) = false →
      s.Reads (.trnEtDataRead src) src F.TRN_ET_DATA.key s.counted.etNext (s.slotEntry (s.counted.fld F.TRN_ET_ADDR_OFF)))

/-- R8, R426, R427: writing 1 to bits of FLTSTS clears them, and MAXSEV falls to 0 once no cause is left; writing V of FLTFIRST
clears that register, writing OVF of FLTOVF clears OVF and COUNT. -/
def Obligations.FaultRegisterWritesComplete : Prop :=
  ∀ (s : State) (src : CsrSrc) (block : BitVec 16) (w : Word) (base : Nat), block.toNat ∈ faultBlocks →
    base = block.toNat * 0x10000 →
    s.Writes (.causeClear src block w) src (base + 0xf00) w
      (if (s.stored (base + 0xf00) w).reg (base + 0xf00) = 0 then
        (s.stored (base + 0xf00) w).setFld (F.BLK_FLTOVF_MAXSEV base) 0 else s.stored (base + 0xf00) w) ∧
    (wbit w 0 = true →
      s.Writes (.fltfirstClear src block w) src (base + 0xf08) w ((s.stored (base + 0xf08) w).setReg (base + 0xf08) 0) ∧
      s.Writes (.fltovfClear src block w) src (base + 0xf10) w
        (((s.stored (base + 0xf10) w).setFld (F.BLK_FLTOVF_OVF base) 0).setFld (F.BLK_FLTOVF_COUNT base) 0))

/-- R438, R441, R442, R436: NTQ_POP of an empty queue reads 0, otherwise, where no entry has failed parity, it gives the first
pending notice the next delivery number; NTQ_RELEASE frees what was delivered up to DSEQ; MARK keeps the next delivery number;
REWIND makes what was delivered from the mark on pending again; a holdoff window that has counted occurrences posts one notice of
them when it ends. -/
def Obligations.NoticeQueueCommandsComplete : Prop :=
  ∀ (s u v : State) (src : CsrSrc) (w : Word), u = s.stored F.NTQ_RELEASE.key w → v = s.stored F.NTQ_CTL.key w →
    (s.ntq.bad = [] → firstPending s.ntq.entries = none → s.Reads (.ntqPop src) src F.NTQ_POP.key s.counted 0) ∧
    (∀ n, s.ntq.bad = [] → firstPending s.ntq.entries = some n → s.Reads (.ntqPop src) src F.NTQ_POP.key
      ((upto 4).foldl (fun t i => t.setReg (F.NTQ_NREC i).key (n.word i)) { s.counted with
        ntq.entries := deliverEntry n (s.ntq.dseq % 2 ^ 32) s.ntq.entries, ntq.dseq := s.ntq.dseq + 1 })
      (BitVec.ofNat 64 (2 ^ 32 + s.ntq.dseq % 2 ^ 32))) ∧
    (∀ d, d = wbits w 0 32 → wbit w 32 = true → s.ntq.delivered d = true → s.ntq.mark = none →
      s.Writes (.ntqRelease src w) src F.NTQ_RELEASE.key w
        ({ u with ntq.entries := u.ntq.entries.filter fun e => !(match e.dseq with
            | some k => dseqUpTo k d
            | none => false) }.postOverrun)) ∧
    (wbit w 0 = true → wbit w 1 = false → s.Writes (.mark src w) src F.NTQ_CTL.key w
      ({ v with ntq.mark := some (v.ntq.dseq % 2 ^ 32) }.setFld F.NTQ_STS_M v.ntq.dseq)) ∧
    (∀ m, wbit w 0 = false → wbit w 1 = true → s.ntq.mark = some m → s.Writes (.rewind src w) src F.NTQ_CTL.key w
      { v with ntq.entries := v.ntq.entries.map fun e => match e.dseq with
        | some k => if dseqUpTo m k then ⟨{ e.note with redeliv := true }, none⟩ else e
        | none => e }) ∧
    (∀ (block : BitVec 16) (code : BitVec 8) (h : Holdoff),
      tget s.ntq.holdoffs (pairKey block.toNat code.toNat) = some h → h.due ≤ s.now → h.count ≠ 0 →
      exec (.holdoffExpiry block code) s = .next ({ s with
        ntq.holdoffs := tdel s.ntq.holdoffs (pairKey block.toNat code.toNat) }.postNotice
          { h.last with count := min h.count 0xffff }))

/-- R409, R412, R419, R421, R423: MTR_CONS takes a value between CONS and PROD; MTR_LRD, MTR_TACC and PRF_DRD latch a record and
read its first 8 bytes; a write of PRF_CTL zeroes its counter and its OVF bit; FREEZE is stored; CLEAR zeroes every counter. -/
def Obligations.MeteringWritesComplete : Prop :=
  ∀ (s u : State) (src : CsrSrc) (w : Word), u = s.counted →
    (u.fld F.MTR_CONS ≤ w.toNat → w.toNat ≤ u.fld F.MTR_PROD →
      s.Writes (.mtrCons src w) src F.MTR_CONS.key w (u.setFld F.MTR_CONS w.toNat)) ∧
    (∀ r : BitVec 1024, s.locked = false → s.meter.bad.contains (4096 + u.fld F.MTR_LRD_SEL_INDEX) = false →
      r = sget (fun _ => 0) s.meter.ring (u.fld F.MTR_LRD_SEL_INDEX) →
      s.Reads (.mtrLrdRead src) src (F.MTR_LRD 0).key { u with meter.latch := r } (recWord r 0)) ∧
    (∀ (m : MtrTen) (r : BitVec 1024), tget s.meter.tens (u.fld F.MTR_TSEL_TENANT) = some m →
      r = BitVec.ofNat 1024 (recordBody u.node.toNat (u.fld F.MTR_TSEL_TENANT) m s.now 0) →
      s.Reads (.mtrTaccRead src) src (F.MTR_TACC 0).key { u with meter.tacc := r } (recWord r 0)) ∧
    (∀ l : List Byte, s.locked = false → tget s.meter.dumpRing (u.fld F.PRF_DRD_SEL_SLOT) = some l →
      s.Reads (.prfDrdRead src) src (F.PRF_DRD 0).key { u with meter.dumpLatch := l } (BitVec.ofNat 64 (bytesAt l 0 8))) ∧
    (∀ (bank ctr : Nat) (v : State), bank < 17 → ctr < 8 →
      v = (s.stored (F.PRF_CTL bank ctr).key w).setFld (F.PRF_CNT_COUNT bank ctr) 0 →
      s.Writes (.prfCtl src bank ctr w) src (F.PRF_CTL bank ctr).key w
        ({ v with samples := v.samples.erase (bank * 8 + ctr) }.setFld (F.PRF_OVF_OVF bank)
          (v.fld (F.PRF_OVF_OVF bank) - (if bitsOf (v.fld (F.PRF_OVF_OVF bank)) ctr 1 = 1 then 2 ^ ctr else 0)))) ∧
    (wbit w 1 = false → s.Writes (.freeze src w) src F.PRF_GCTL.key w (s.stored F.PRF_GCTL.key w)) ∧
    (wbit w 1 = true → s.Writes (.clear src w) src F.PRF_GCTL.key w
      ((upto 17).foldl (fun t b => (upto 8).foldl (fun t i => t.setFld (F.PRF_CNT_COUNT b i) 0)
        ((t.setFld (F.PRF_CYC b) 0).setFld (F.PRF_OVF_OVF b) 0)) (s.stored F.PRF_GCTL.key w)))

/-- R374, R375, R379, R381, R387, R392: LOAD puts a key that unwraps into its slot, and otherwise answers the RESULT that says why
not; CLEAR wipes a slot, unless a tenant names it; XTS_ZEROISE with CONFIRM enters LOCK; a die's bad copy of a slot is reloaded
from the key store; the alarm window rolls over with the minute; a rekey that is complete ends. -/
def Obligations.KeyCommandsComplete : Prop :=
  ∀ (s u : State) (src : CsrSrc) (w : Word) (slot : Nat), u = s.stored F.XTS_KEYCTL.key w → slot = wbits w 2 12 →
    (wbit w 0 = true → wbit w 1 = false → s.Writes (.load src w) src F.XTS_KEYCTL.key w (u.keyLoad slot)) ∧
    (wbit w 0 = true → wbit w 1 = true → slot ≠ 0 → s.Writes (.clearSlot src w) src F.XTS_KEYCTL.key w
      (if u.slotNamed slot = true then u.setFld F.XTS_KEYCTL_RESULT 7
        else (u.wipeSlot slot).setFld F.XTS_KEYCTL_RESULT 0)) ∧
    (wbit w 0 = true → wbits w 16 16 = 0xC1EA → s.locked = false →
      s.Writes (.xtsZeroise src w) src F.XTS_ZEROISE.key w
        ((s.stored F.XTS_ZEROISE.key w).record (occ bXTS Cause.xts_HOST_ZEROISE)).enterLock) ∧
    (∀ (die : Nat) (n : BitVec 12) (k : KeySlot) (key : BitVec 512), die < 2 → k = s.key n.toNat → k.valid = true →
      k.failed = false → (if die = 0 then k.bad0 = true ∧ k.bad1 = false else k.bad1 = true ∧ k.bad0 = false) →
      s.storedKey n.toNat = some key →
      exec (.keySlotReload die n false) s =
        .next ((s.setKey n.toNat { k with key := key, bad0 := false, bad1 := false }).record
          (occ bXTS Cause.xts_KT_PARITY))) ∧
    (s.mem.alarmWin ≠ s.minute → exec .alarmWindow s = .next
      (({ s with mem.alarmWin := s.minute }.setFld F.XTS_ALARM_LAST
        (if s.minute = s.mem.alarmWin + 1 then s.fld F.XTS_ALARM_WINDOW else 0)).setFld F.XTS_ALARM_WINDOW 0)) ∧
    (∀ t : TenantId, s.dataUp = true → s.rekeyReady t.toNat = true →
      exec (.rekeyDone t) s = .next (s.after (s.rekeyDone t.toNat)))

/-- R237, R328, R331, R357, R359, R360, R223: what a write of the injection and retirement registers stores; DIR_BLIND.CLR returns
every blinded way; CMP_TCTL with GO starts the test it names while none runs. -/
def Obligations.MemoryRegisterWritesComplete : Prop :=
  ∀ (s : State) (src : CsrSrc) (w : Word),
    (∀ c, c < 24 → w &&& 0x8421084210 ≠ 0 →
      s.Writes (.memRetireClear src c w) src (F.MEM_RETIRE c).key w (s.stored (F.MEM_RETIRE c).key w)) ∧
    (∀ c, c < 24 → s.Writes (.memFlipctl src c w) src (F.MEM_FLIPCTL c).key w (s.stored (F.MEM_FLIPCTL c).key w)) ∧
    s.Writes (.eccPflip src w) src F.ECC_PFLIP.key w (s.stored F.ECC_PFLIP.key w) ∧
    s.Writes (.dirPflip src w) src F.DIR_PFLIP.key w (s.stored F.DIR_PFLIP.key w) ∧
    s.Writes (.cmpPflip src w) src F.CMP_PFLIP.key w (s.stored F.CMP_PFLIP.key w) ∧
    (wbit w 8 = true → s.Writes (.dirBlindClr src w) src F.DIR_BLIND.key w
      ({ s.stored F.DIR_BLIND.key w with home.blind := [] }.setFld F.DIR_BLIND_COUNT 0)) ∧
    (∀ (i : Instr) (op : Nat) (r : Word),
      (i, op) ∈ [(Instr.cmpTestDecode src w, 0), (.cmpTestCompress src w, 1)] →
      wbit w 0 = true → wbits w 1 1 = op → s.counted.bit F.CMP_TCTL_BUSY = false →
      r = s.counted.reg F.CMP_TCTL.key →
      s.Writes i src F.CMP_TCTL.key w ({ s.counted with sys.test := some (op, wbits w 2 1) }.setReg F.CMP_TCTL.key
        (((w &&& 6) ||| 8) ||| (r &&& ~~~(w &&& 0x40000000) &&& 0x7FFFFFF0))))

/-- R458, R466, R468, R471, R472: where its conditions hold, STBY_ENTER starts the DRAIN into STANDBY, STBY_EXIT and the end of
it a resume, CAPTEST and CAPABORT a capacity test and its end, and PMU_RESET the reset it names. -/
def Obligations.PowerWritesComplete : Prop :=
  ∀ (s u v : State) (src : CsrSrc) (w : Word) (inp : StartIn), u = s.stored F.PMU_CTL.key w → v = s.stored F.PMU_RESET.key w →
    (wbits w 0 4 = 1 → u.pst = pACTIVE → u.fld F.FWU_STS_STATE ≠ 3 → u.fld F.FWU_STS_STATE ≠ 5 → s.home.hoff.phase = .idle →
      u.bit F.PMU_STATE_RTAVAIL = true ∨ 2 ≤ u.goodFeeds →
      s.Writes (.stbyEnter src w) src F.PMU_CTL.key w (u.drain true)) ∧
    (wbits w 0 4 = 2 → u.pst = pSTANDBY → u.sys.power.hot = false →
      s.Writes (.stbyExit src w) src F.PMU_CTL.key w { u with sys.power.resuming := true }) ∧
    (wbits w 0 4 = 4 → 2 ≤ u.goodFeeds → u.pack = 3 → u.fld F.PMU_PACK_STS_SOC = 10000 →
      s.Writes (.captest src w) src F.PMU_CTL.key w (u.setPack 6)) ∧
    (wbits w 0 4 = 8 → u.pack = 6 → s.Writes (.capabort src w) src F.PMU_CTL.key w
      ({ u with sys.power.charged := false }.setPack (if u.sys.power.noCharge then 4 else 2))) ∧
    (wbits w 16 16 = 0x5E7A → v.pst = pACTIVE ∨ v.pst = pSTANDBY →
      (wbits w 0 2 = 1 → s.Writes (.moduleReset src w inp) src F.PMU_RESET.key w (v.startUp 1 inp)) ∧
      (wbits w 0 2 = 2 → s.Writes (.warmReset src w inp) src F.PMU_RESET.key w (v.startUp 2 inp)))

/-- R120, R471, R540, R541: ETH_CTL resets the ports of its block; CAGE_CTL.RESET powers a cage off and runs its insertion again;
HOSTOWN gives a cage to the host and back; CAGE_CMIS_CTL with GO starts a transfer that may start. -/
def Obligations.PortAndCageWritesComplete : Prop :=
  ∀ (s u v x : State) (src : CsrSrc) (n : Nat) (w : Word), n < 8 → u = s.stored (F.ETH_CTL n).key w →
    v = s.stored (F.CAGE_CTL n).key w → x = s.stored (F.CAGE_CMIS_CTL n).key w →
    (wbit w 0 = true → wbit w 1 = false → s.Writes (.resetA src n w) src (F.ETH_CTL n).key w
      (u.portReset (if u.portMode = 1 then n / 2 else if u.portMode = 2 then 2 * n else n))) ∧
    (wbit w 0 = false → wbit w 1 = true → u.portMode = 2 →
      s.Writes (.resetB src n w) src (F.ETH_CTL n).key w (u.portReset (2 * n + 1))) ∧
    (wbit w 2 = true → s.counted.bit (F.CAGE_CTL_HOSTOWN n) = false → v.bit (F.CAGE_CTL_HOSTOWN n) = false →
      s.Writes (.cageReset src n w) src (F.CAGE_CTL n).key w ((v.cageDrop n).cageStart n)) ∧
    (s.counted.bit (F.CAGE_CTL_HOSTOWN n) = false → v.bit (F.CAGE_CTL_HOSTOWN n) = true → v.cageSt n ≠ cFAULT →
      v.cageSt n ≠ cOFF → ∀ y : State, y = (cagePorts v.portMode n).foldl (fun t p => (t.loseLink p).portReset p) v →
      s.Writes (.hostown src n w) src (F.CAGE_CTL n).key w ((y.setCage n { y.cage n with step := 0 }).setCageSt n cHOSTOWN)) ∧
    (∀ i, s.counted.bit (F.CAGE_CTL_HOSTOWN n) = true → v.bit (F.CAGE_CTL_HOSTOWN n) = false → wbit w 2 = false →
      v.cageSt n ≠ cFAULT → (v.cage n).info = some i → v.cageMay n = true →
      s.Writes (.hostown src n w) src (F.CAGE_CTL n).key w (v.cageProbe n i)) ∧
    (wbit w 0 = true → s.counted.bit (F.CAGE_CMIS_CTL_BUSY n) = false → x.cmisResult n = 0 →
      s.Writes (.cmisTransfer src n w) src (F.CAGE_CMIS_CTL n).key w (x.setFld (F.CAGE_CMIS_CTL_BUSY n) 1))

/-- R490: with no check, write or schedule under way COMMIT and CHECK start the check, DISCARD empties the bank, and CANCEL ends
a scheduled commit. -/
def Obligations.CommitWritesComplete : Prop :=
  ∀ (s u : State) (src : CsrSrc) (w : Word), u = s.stored F.CFG_CTL.key w →
    (u.fld F.CFG_STS_STATE = 0 ∨ u.fld F.CFG_STS_STATE = 1 →
      (wbits w 0 4 = 1 → s.Writes (.commit src w) src F.CFG_CTL.key w ({ u with
        sys.bank := { u.sys.bank with ctl := w, wasEmpty := u.sys.bank.staged.isEmpty } }.setFld F.CFG_STS_STATE 2)) ∧
      (wbits w 0 4 = 2 → s.Writes (.check src w) src F.CFG_CTL.key w ({ u with
        sys.bank := { u.sys.bank with ctl := w, wasEmpty := u.sys.bank.staged.isEmpty } }.setFld F.CFG_STS_STATE 2)) ∧
      (wbits w 0 4 = 8 → s.Writes (.discard src w) src F.CFG_CTL.key w (({ u with
        sys.bank := { u.sys.bank with staged := [], lost := false } }.setFld F.CFG_STS_STAGED 0).setFld F.CFG_STS_STATE 0))) ∧
    (u.fld F.CFG_STS_STATE = 4 → wbits w 0 4 = 4 → s.Writes (.cancel src w) src F.CFG_CTL.key w
      (u.setFld F.CFG_STS_STATE (if u.sys.bank.wasEmpty then 0 else 1)))

/-- R497, R498, R500 to R503: ERASE, PROGRAM and VERIFY begin while no operation and no update runs; START of a verified image
whose sequence is sound begins the update at step 1; REVERT of a trial begins at step 11; FWU_CONFIRM ends a trial. -/
def Obligations.UpdateWritesComplete : Prop :=
  ∀ (s u x : State) (src : CsrSrc) (w : Word) (inp : StartIn), u = s.stored F.FWU_CTL.key w → wbit w 4 = true →
    x = { u with free := u.free + 2 } →
    (u.fwuSt ≠ uUPDATING → u.fwuSt ≠ uTRIAL → u.fwuSt ≠ uREVERTING → u.bit F.FWU_STS_BUSY = false →
      (∀ y : State, wbits w 0 4 = 1 → y = { x with sys.fwu.op := 1 }.setFld F.FWU_STS_BUSY 1 →
        s.Writes (.erase src w) src F.FWU_CTL.key w (y.modSlot y.target fun c => c.putBoot { c.boot with state := 0, once := false })) ∧
      (wbits w 0 4 = 2 → u.fld F.FWU_ADDR_OFFSET % 256 = 0 → u.fld F.FWU_ADDR_OFFSET < imageSize →
        s.Writes (.program src w) src F.FWU_CTL.key w ({ x with sys.fwu.op := 2 }.setFld F.FWU_STS_BUSY 1)) ∧
      (wbits w 0 4 = 3 → s.Writes (.verify src w) src F.FWU_CTL.key w ({ x with sys.fwu.op := 3 }.setFld F.FWU_STS_BUSY 1))) ∧
    (wbits w 0 4 = 4 → wbit w 5 = false → wbit w 6 = false → u.bit F.FWU_STS_BUSY = false → u.fwuSt = uVERIFIED →
      u.pst = pACTIVE → s.home.hoff.phase = .idle → u.fld F.CFG_STS_STATE ≤ 1 →
      sequenceOk (u.nvSlot u.booted) (u.nvSlot u.target) = true →
      s.Writes (.start src w inp) src F.FWU_CTL.key w
        ((({ u with sys.fwu.failed := false }.setFwu uUPDATING).setFld F.FWU_STS_RESULT 0).beginStep 1)) ∧
    (wbits w 0 4 = 5 → u.fwuSt = uTRIAL → u.dataUp = true → s.Writes (.revert src w) src F.FWU_CTL.key w
      (({ x with sys.fwu.failed := false }.setFwu uREVERTING).beginStep 11)) ∧
    (∀ (f : Bool) (k : Word) (y z : State), wbit k 0 = true → wbits k 16 16 = 0xF1C0 → y = s.stored F.FWU_CONFIRM.key k →
      y.fwuSt = uTRIAL →
      z = (((y.modSlot y.target fun c => c.withState 3).raiseFloor (y.nvSlot y.target).svn f).fusesOut
        (y.nvSlot y.target).svn).record (occ bFWU Cause.fwu_CONFIRMED) →
      s.Writes (.fwuConfirm src k f) src F.FWU_CONFIRM.key k ((((z.setFwu uIDLE).setFld F.FWU_STS_NOFALL 0).setFld
        F.FWU_BOOT_SLOT (b2n y.target)).setFld F.FWU_STS_TARGET (b2n !y.target)))


/-- R111, R124, R127, R128, R133, R136, R138, R157: a frame of an open connection that passes the checks and comes on one of
its paths gives its grants and its ACK value, then DATA, NAK, HEARTBEAT and AUDIT are handled, an ACK is complete and a CLOSE
ends the connection; an ACCEPT, which no command carries of its own, does no more than its values whichever carries it. -/
def Obligations.FramesOfConnectionsComplete : Prop :=
  ∀ (s u : State) (f : RxFrame) (h : CHdr) (payload : List Byte) (c : Conn), s.takesFrame f h payload = true →
    s.conn h.conn = some c → s.pathOfConn h.conn f = true →
    u = (if carriesValues h.type payload = true then (s.rxGrants h.conn h).rxAck h.conn h.ack ((pathTaken f).key c.engine)
      else s) →
    (h.type = 0 → s.Moves (.data f) (u.rxData h.conn (engineOf s.portMode f.port h.conn) h payload)) ∧
    (h.type = 1 → s.Moves (.ack f) u) ∧
    (h.type = 2 → s.Moves (.nak f) (u.rxNak h.conn payload)) ∧
    (h.type = 3 → (u.conn h.conn).isSome = true → s.Moves (.heartbeat f) (u.rxHeartbeat ((pathTaken f).key c.engine) payload)) ∧
    (h.type = 6 → s.Moves (.close f) (u.rxClose h.conn payload)) ∧
    (h.type = 7 → s.Moves (.audit f) (u.rxAudit h.conn payload)) ∧
    (h.type = 5 → ∀ isn i, i ∈ [Instr.data f, .ack f, .nak f, .heartbeat f, .connect f isn, .close f, .audit f] → s.Moves i u)

/-- R88, R95: a CONNECT that the connection table allows opens the connection, after a close of the one that used the ID before;
one that only repeats the CONNECT of the open connection is answered with an ACCEPT. -/
def Obligations.ConnectCompletes : Prop :=
  ∀ (s u : State) (f : RxFrame) (h : CHdr) (payload : List Byte) (p : ConnPayload) (isn : Seq24) (alt : Bool),
    s.takesFrame f h payload = true → h.type = 4 → p = parseConnect payload → alt = decide (pathTaken f ≠ s.connPath h.conn false) →
    h.conn ≠ 0 → s.bit (F.CDL_CONN_A_EN h.conn) = true → s.pathOfConn h.conn f = true →
    p.srcNode.toNat = s.fld (F.CDL_CONN_A_PEER h.conn) → p.dstNode = s.node → s.node ≠ 0xfff →
    (p.agv = true → s.bit (F.CDL_CONN_A_AGV h.conn) = true ∧ p.agent.toNat = s.fld (F.CDL_CONN_A_AGENT h.conn)) →
    1 ≤ p.maxpay → p.maxpay ≤ 65 → (p.agv = true → 2 ≤ p.maxpay) → grantsShort p h = false → u = s.closeConn h.conn 8 →
    ((∀ c, s.conn h.conn = some c → c.rcid ≠ p.srcCid ∨ c.risn ≠ p.isn) →
      countIf u.link.conns (fun e => decide (e.2.engine = engineOf u.portMode (u.connPath h.conn false).port h.conn)) < 2048 →
      s.Moves (.connect f isn) (u.openConn h.conn p h alt isn)) ∧
    (∀ c, s.conn h.conn = some c → c.rcid = p.srcCid → c.risn = p.isn → s.Moves (.connect f isn) (s.sendAccept h.conn alt))

/-- R78, R79, R81, R111, R396, R397: a PAUSE or PFC frame that passes checks 1 and 2 on a port with a link is counted in the
blocks of its port, a frame with a bad FCS as that, and nothing else happens; a Sync of the PTP domain on the slave port is taken
by the servo: its offset is shown, 16 in a row within 50 ns lock, the first one is ACQUIRE, and the counter steps at the first
lock before POOL_READY only; a LOCKED servo that has heard none for 2 s enters HOLDOVER with cause 0x02, and any other servo does
nothing then. -/
def Obligations.PortFramesComplete : Prop :=
  (∀ (s : State) (f : RxFrame) (opc : Nat), s.hasPort f.port = true → (s.port f.port).link = true → s.locked = false →
    opc = bytesAt f.body 1 1 + 256 * bytesAt f.body 0 1 →
    (f.fcsGood = false → exec (.pause f) s =
      .next ((portBlocks s.portMode f.port).foldl (fun s b => s.incFld (F.ETH_RXERR_CNT_FCS b)) s)) ∧
    (f.fcsGood = true → s.dstAccepted f = true → f.tag ≠ .other → f.etherType = 0x8808 → exec (.pause f) s = .next
      (if opc = 0x0001 then (portBlocks s.portMode f.port).foldl (fun s b => s.incFld (F.ETH_RXERR_CNT_PAUSE b)) s
      else if opc = 0x0101 then (portBlocks s.portMode f.port).foldl (fun s b => s.incFld (F.ETH_RXERR_CNT_PFC b)) s else s))) ∧
  (∀ (s : State) (f : RxFrame) (offset : Int) (good st : Nat) (lock step : Bool), s.regsOk = true → s.hasPort f.port = true →
    (s.port f.port).link = true → f.fcsGood = true → s.dstAccepted f = true → f.tag ≠ .other → f.etherType = 0x88F7 →
    isSync (s.fld F.CDL_PTP_DOMAIN) f.body = true → s.fld F.CDL_PTP_ROLE ≠ 0 → bitsOf (s.fld F.CDL_PTP_PORTS) f.port 1 = 1 →
    good = (if -50 ≤ offset ∧ offset ≤ 50 then s.sys.ptp.good + 1 else 0) → st = s.fld F.MTR_PTPSTS_STATE →
    lock = (decide (16 ≤ good) && decide (st ≠ 2)) → step = (lock && s.sys.ptp.mayStep && !s.bit F.GBL_STATUS_POOL_READY) →
    ∃ t, exec (.sync f offset) s = .next t ∧ t.sys.ptp.offset = offset ∧ t.sys.ptp.good = good ∧
      t.fld F.MTR_PTPSTS_OFFSET = satSigned 32 offset ∧ t.fld F.MTR_PTPSTS_PORT = f.port ∧
      t.fld F.MTR_PTPSTS_STATE = (if lock = true then 2 else if st = 0 then 1 else st) ∧
      t.now = (if step = true then ((s.now : Int) - offset).toNat else s.now) ∧ t.sys.ptp.lastSync = t.now) ∧
  (∀ s : State, (s.fld F.MTR_PTPSTS_STATE = 2 → s.sys.ptp.lastSync + 2000000000 ≤ s.now →
      exec .holdover s = .next (({ s with sys.ptp := { s.sys.ptp with good := 0 } }.setFld F.MTR_PTPSTS_STATE 3).record
        (occ bMTR Cause.mtr_PTP_HOLDOVER))) ∧
    (s.fld F.MTR_PTPSTS_STATE ≠ 2 ∨ s.now < s.sys.ptp.lastSync + 2000000000 → exec .holdover s = .next s))

/-- R126, R129, R133 to R135, R138, R140, R141, R149, R152: each transport timer acts once its time has come: the ACK of a grant
that waited 1 µs, a new DATA packet of a class, the packet at SND_UNA again, a credit timeout, an AUDIT, and the flush of a
connection that was HOLDING for GRACE. -/
def Obligations.ConnectionTimersComplete : Prop :=
  ∀ (s : State) (conn : ConnId) (k : Nat) (c : Conn), k = conn.toNat → s.conn k = some c →
    (∀ t, c.grantAck = some t → t + 1000 ≤ s.now → s.Moves (.standaloneAck conn) (s.sendAck k)) ∧
    (∀ (tc : BitVec 2) (l : List OutMsg) (payload : List Byte) (u : State), l = c.nextPack tc.toNat → l ≠ [] →
      c.holding = none → s.pathView k c c.onAlt = .up → s.mayFly k c = true → payload = pad64 (l.flatMap fun m => m.msg.bytes) →
      u = l.foldl (fun s m => s.countSent c.engine m.msg) (((s.takePflip 7 0 c.engine).2.emitColdel
          ((s.takePflip 7 0 c.engine).2.connPath k c.onAlt)
          (c.hdr 0 tc.toNat false false c.onAlt c.sndNxt (payload.length / 8)) payload).count c.engine 2 1 none) →
      ∃ v, s.Moves (.sendData conn tc) v ∧ v.link.tx = u.link.tx ∧ v.conn k = some { c with
        sndNxt := c.sndNxt + 1
        sent := c.sent.set tc.toNat (c.sent.get tc.toNat + BitVec.ofNat 24 (unitsOf (payload.length / 8)))
        replay := c.replay ++ [⟨⟨c.engine, tc.toNat, c.sndNxt, payload.length / 8, payload⟩, c.onAlt, l.filterMap (·.rel),
          (s.takePflip 7 0 c.engine).1⟩]
        txq := c.txq.set tc.toNat ((c.txq.get tc.toNat).drop l.length)
        rto := if c.replay.isEmpty then s.now else c.rto
        grantAck := none, auditDue := true }) ∧
    (∀ e rest, c.replay = e :: rest → c.rto + 4000 ≤ s.now → c.holding = none → e.bad = false →
      s.Moves (.replayTimerExpiry conn) (((s.incFld (F.CDL_RELY0_RTO c.engine)).resend k c c.onAlt true e.pkt).modConn k
        fun x => { x with rto := s.now, replay := { e with alt := x.onAlt } :: rest, grantAck := none })) ∧
    (∀ (tc : BitVec 2) (x : Conn), c.starved tc.toNat = true → c.holding = none →
      c.gotAt.get tc.toNat + s.fld F.CDL_TIMERS_CREDIT_TO * 1000 ≤ s.now →
      x = (if c.onAlt then { c with viewQ := some ⟨s.now, false⟩ } else { c with viewP := some ⟨s.now, false⟩ }) →
      s.Moves (.creditTimeout conn tc)
        (((s.putConn k x).record (occObj (bPort c.engine) Cause.port_CREDIT_TIMEOUT 3 k)).pathLost k)) ∧
    (c.auditDue = true → c.lastAudit + 100000 ≤ s.now → s.Moves (.auditSend conn)
      ((s.sendCtl k 7 c.onAlt (auditPayload c)).modConn k fun x => { x with auditDue := false, lastAudit := s.now })) ∧
    (∀ t, c.holding = some t → c.flushed = false → t + s.graceNs ≤ s.now →
      ∃ v, s.Moves (.holdFlush conn) v ∧
        v.conn k = some { c with flushed := true, txq := c.txq.set 2 (c.txq.c2.filter (·.coh)) } ∧
        v.link.rels = s.link.rels ++ (c.txq.c2.filter fun m => !m.coh).filterMap (·.rel))

/-- R138 to R141, R148: a path record sends a HEARTBEAT when 1 µs has passed since the last and nothing is in flight on it; 6 µs
without a proof make it BROKEN and move its connections; a RETURNING path that has proofs for FAILBACK is UP again. -/
def Obligations.PathTimersComplete : Prop :=
  ∀ (s u v : State) (path : PathKey) (r : PathRec), s.dataUp = true → s.path path = some r →
    (∀ k alt l, s.onPath path = (k, alt) :: l → r.lastHb + 1000 ≤ s.now → s.inFlight path = 0 →
      exec (.heartbeatSend path) s = .next ((s.sendCtl k 3 alt (leBytes 8 s.now ++ leBytes 8 r.echo)).putPath
        { r with lastHb := s.now, txTimes := (r.txTimes.filter fun t => decide (s.now ≤ t + 6000)) ++ [s.now] })) ∧
    (r.state ≠ .broken → r.lastProof + 6000 ≤ s.now → u = s.putPath { r with state := .broken } →
      v = (if r.state = .up then u.record (occObj (bPort path.engine) Cause.port_PATH_BROKEN 7 path.port) else u) →
      exec (.pathBroken path) s = .next (((s.usersOf path).filter s.runs).foldl (fun s k => s.pathLost k)
        ((s.usersOf path).foldl (fun s k => s.followRecord path k) v))) ∧
    (r.state = .returning → s.now < r.lastProof + 6000 →
      r.retSince + s.failbackNs ((s.onPath path).any fun x => s.noUpPath x.1) ≤ s.now → r.key = path →
      exec (.pathUp path) s = .next ((s.onPath path).foldl (fun s x => (s.clearView x.1 x.2).pathGained x.1)
        (s.putPath { r with state := .up })))

/-- R57, R58, R153, R185, R195: a request on an open connection that is bound, not a duplicate and translated goes on to its
home with the PA in place of its address; a Fence waits for what came before it on its connection. -/
def Obligations.RequestsComplete : Prop :=
  ∀ (s u x y z : State) (conn : ConnId) (hdr : ReqHdr) (i : Instr) (r : Req) (c : Conn) (mask : BitVec 64) (line : Line)
    (opa opb : BitVec 128), s.conn conn.toNat = some c →
    (i, r) ∈ [(Instr.readShared conn hdr, mkReq .readShared hdr 0 0 0 0), (.readOwn conn hdr, mkReq .readOwn hdr 0 0 0 0),
      (.upgrade conn hdr, mkReq .upgrade hdr 0 0 0 0), (.readNoCache conn hdr, mkReq .readNoCache hdr 0 0 0 0),
      (.writeNoCache conn hdr mask line, mkReq .writeNoCache hdr mask line 0 0),
      (.writeBack conn hdr line, mkReq .writeBack hdr 0 line 0 0), (.evictClean conn hdr, mkReq .evictClean hdr 0 0 0 0),
      (.fetchAdd conn hdr opa, mkReq .fetchAdd hdr 0 0 opa 0), (.swap conn hdr opa, mkReq .swap hdr 0 0 opa 0),
      (.compareSwap conn hdr opa opb, mkReq .compareSwap hdr 0 0 opa opb), (.fence conn hdr, mkReq .fence hdr 0 0 0 0)] →
    s.inTurn conn.toNat 1 (fun m => m = .req r) = true → c.msgsOk 1 [.req r] = true →
    u = s.takeMsg conn.toNat 1 (fun m => m = .req r) →
    x = { u with home.nextId := u.home.nextId + 1 } → x.bound conn.toNat hdr.tenant.toNat = some true →
    x.isDetached c.agent = false →
    (r.op = .fence → s.Moves i { x with
      home.fences := x.home.fences ++ [(⟨u.home.nextId, conn.toNat, c.opened, r, none, [], 0⟩ : FenceRec)] }) ∧
    (∀ pa slot m, r.op ≠ .fence → (r.op ≠ .evictClean → ∀ o, o ∈ u.home.oreqs → o.conn = conn.toNat →
        o.req.hdr.txid = hdr.txid → o.req.op = .evictClean) →
      ({ x with home.oreqs := x.home.oreqs ++ [(⟨u.home.nextId, conn.toNat, c.opened, r, 0, none, none⟩ : OReq)] }.translate
        (engineDie c.engine) hdr.txid.toNat hdr.tenant.toNat r.op hdr.addr.toNat) = (y, .ok pa slot m) →
      y.serveReplica conn.toNat r pa = (z, false) →
      s.Moves i (z.sendHome u.home.nextId (s.rxEngine conn.toNat 1) conn.toNat slot m (withPa r pa)))

/-- R102, R176 to R178, R245: an answer to a snoop that this module has sent to the agent goes on to the home that asked. -/
def Obligations.SnoopAnswersComplete : Prop :=
  ∀ (s u : State) (conn : ConnId) (newState : BitVec 3) (flag : Bool) (tenant : TenantId) (snptx : BitVec 16) (agent : AgentId)
    (pa : Addr) (line : Line) (c : Conn) (i : Instr) (a : SnpResp) (f : FwdSnp), s.conn conn.toNat = some c →
    (i, a) ∈ [(Instr.snpRsp conn newState flag tenant snptx agent pa, ⟨newState, flag, false, tenant, snptx, agent, pa, none⟩),
      (.snpRspData conn newState flag tenant snptx agent pa line,
        ⟨newState, false, flag, tenant, snptx, agent, pa, some line⟩)] →
    s.inTurn conn.toNat 3 (fun m => m = .snpRsp a) = true → c.msgsOk 3 [.snpRsp a] = true →
    u = s.takeMsg conn.toNat 3 (fun m => m = .snpRsp a) →
    (u.home.fwdSnps.find? fun g => g.relay.isNone && g.sent && decide (g.snp.agent = agent) && decide (g.snp.snptx = snptx)
      && decide (g.snp.pa = pa)) = some f →
    s.Moves i ({ u with home.fwdSnps := u.home.fwdSnps.erase f }.snoopOnward f conn a)

/-- R245, R246, R264: a forwarded request that reaches the member its epoch names is served by this home; a response whose
connection ID is no relay's is delivered to its connection; a ResultRelease frees the entry of its key. -/
def Obligations.ForwardedMessagesComplete : Prop :=
  ∀ (s u : State) (chan : ChanId) (env : Envelope) (r : Req) (a : Resp) (h : HReq) (m : Nat) (k : TxKey),
    (h = ⟨⟨env.origin, env.oconn, r.hdr.txid⟩, false, s.chanRxEngine chan, env.hslot.toNat, r, r.hdr.agent, u.home.confGen⟩ →
      chan.bank = false → u = s.takeP chan → u.home.hoff.phase = .idle → u.home.hoff.newHolder = false →
      u.tblBad (mapKey false h.pa) = false → u.mapMember false h.pa = some m → u.poolOk false m r = true →
      u.memNode false m = u.node → env.epoch.toNat = u.memEpoch false m → u.memUplink false m = false →
      s.Hears chan (.fwdToHome env (.req r)) (.fwdToHome chan env (.req r)) (u.homeReq h)) ∧
    (u = s.takeP chan → tget u.home.relays env.oconn.toNat = none →
      s.Hears chan (.fwdToOrigin env (.resp a)) (.fwdToOrigin chan env (.resp a))
        (u.deliverResp env.oconn.toNat (respTaken a) chan.peer)) ∧
    (u = s.takeP chan → u.relayOf k.origin k.oconn k.txid = none → u.movedKey k = false →
      s.Hears chan (.resultRelease k.origin k.oconn k.txid) (.resultRelease chan k.origin k.oconn k.txid) (u.releaseKey k))

/-- R112, R115, R162, R249: a Picot frame on a channel's path gives its units in turn; the channel resends after 4 µs without
progress, UP or DOWN (which of two paths a DOWN channel tries is the model's choice, log entry 168), sends a unit of 0 after 1 µs
of silence, moves to its alternate path or goes DOWN after 6 µs without a good unit, sends its ChanStart again after 100 µs, and
GRACE after it went DOWN or began to start drops its non-coherent requests and the responses to such. -/
def Obligations.ChannelsComplete : Prop :=
  ∀ (s u : State) (chan : ChanId) (c : Chan), s.chan chan = some c →
    (∀ (f : RxFrame) (n : Nat), s.hasPort f.port = true → (s.port f.port).ready = true → f.fcsGood = true → s.dstAccepted f = true →
      f.tag ≠ .other → (s.takePflip 8 0 (engineOf s.portMode f.port 0)).1 = false → f.etherType.toNat = s.fld F.CDL_ETYPE_PICOT →
      n = bytesAt f.body 0 8 → bitsOf n 0 4 = 1 → bitsOf n 8 8 ≠ 0 → bitsOf n 8 8 ≤ 64 → f.body.length = 8 + 64 * bitsOf n 8 8 →
      bitsOf n 32 12 = s.node.toNat → chan = ⟨false, BitVec.ofNat 12 (bitsOf n 16 12)⟩ → pathTaken f = s.chanPath chan false →
      bitsOf n 48 15 ≠ 0 → c.state ≠ .start → c.dead = false →
      s.Moves (.picotFrame f) (s.rxUnits chan false (engineOf s.portMode f.port 0) (bitsOf n 48 15)
        (cutUnits (bitsOf n 8 8) (f.body.drop 8)))) ∧
    (c.state ≠ .start → c.dead = false → c.units ≠ [] → c.timer + 4000 ≤ s.now →
      s.Moves (.picotReplayTimer chan) ((s.modChan chan fun x =>
        { x with alt := if x.state = .down ∧ s.chanHasAlt chan then !x.alt else x.alt }).resendChan chan)) ∧
    (c.state ≠ .start → c.txq = [] ∨ c.state = .down → c.dead = false → c.units.length < 1024 → c.lastSent + 1000 ≤ s.now →
      s.Moves (.picotIdleUnit chan) ((s.emitPicot c (c.base + c.units.length) [List.replicate 60 0]).modChan chan fun x =>
        { x with units := x.units ++ [List.replicate 60 0], timer := if x.units.isEmpty then s.now else x.timer })) ∧
    (c.state = .up → c.lastGood + 6000 ≤ s.now →
      u = s.modChan chan (fun x => { x with brokenP := x.brokenP || !x.alt, brokenQ := x.brokenQ || x.alt }) →
      ((if c.alt then c.brokenP else c.brokenQ || !s.chanHasAlt chan) = false →
        s.Moves (.picotPathBroken chan)
          ((u.modChan chan fun x => { x with alt := !x.alt, lastGood := s.now }).resendChan chan)) ∧
      ((if c.alt then c.brokenP else c.brokenQ || !s.chanHasAlt chan) = true →
        s.Moves (.picotPathBroken chan)
          ((u.modChan chan fun x => { x with state := .down, downSince := some s.now, flushed := false }).record
            (occObj bPOOL Cause.pool_CHAN_DOWN 2 chan.peer.toNat)))) ∧
    (c.state = .start → c.dead = false → c.lastSent + 100000 ≤ s.now → s.Moves (.chanstartResend chan) (s.sendStart chan)) ∧
    (∀ t, c.downSince = some t → c.flushed = false → c.state ≠ .up → t + s.graceNs ≤ s.now →
      u = { s with
        home.oreqs := s.home.oreqs.filter fun o => !(decide (o.dest = some chan) && !coherent o.req.op)
        home.relays := s.home.relays.filter fun e =>
          !(decide (e.2.dest = chan.peer) && decide (e.2.bank ≠ chan.bank) && !coherent e.2.op) } →
      s.Moves (.picotGraceExpiry chan) ((c.loose.filterMap respKeyOf).foldl (fun s k => s.release k) (u.modChan chan fun x =>
        { x with flushed := true, loose := [], txq := x.txq.filter fun m => !x.loose.contains m && (match fwdReqOf m with
          | some r => coherent r.op
          | none => true) })))

/-- R249: a ChanStart of the channel's peer that echoes this module's RGEN under the same version of the pool record brings a
channel in START up; the peer's own RGEN, where it is new, is kept and answered with a ChanStart. -/
def Obligations.ChanStartCompletes : Prop :=
  ∀ (s u : State) (chan : ChanId) (bank : Bool) (c : Chan) (rgen poolver : BitVec 32), c.id = chan →
    u = s.takeP chan → u.chan chan = some c → c.state = .start → c.dead = false →
    poolver.toNat = u.fld (F.POOL_VER_VERSION (bankNo chan.bank)) →
    (c.rgen = some rgen → s.Hears chan (.chanStart true chan.peer s.node bank rgen s.home.rgen poolver)
      (.chanStart chan true chan.peer s.node bank rgen s.home.rgen poolver) (u.chanUp chan)) ∧
    (c.rgen ≠ some rgen → c.lastRgen = none →
      s.Hears chan (.chanStart true chan.peer s.node bank rgen s.home.rgen poolver)
        (.chanStart chan true chan.peer s.node bank rgen s.home.rgen poolver)
        (((u.modChan chan fun x => { x with rgen := some rgen, expect := 1 }).chanUp chan).sendStart chan))

/-- R226 to R236: what the sequencer's messages do: a SeqReq that the bobbin may number, a SeqGrant for a fence, a SeqReq sent
again after 10 µs, a new ReplApply of a line, and a ReplDone. -/
def Obligations.SequencingMessagesComplete : Prop :=
  ∀ (s u : State) (chan : ChanId) (node : NodeId) (rtag epoch : BitVec 16) (pa : Addr) (mask : BitVec 64) (line : Line)
    (seqno : BitVec 48),
    (∀ kind, u = s.takeP chan → u.isBobbin = true → epoch.toNat = u.fld (F.POOL_ROLES_BEPOCH 0) → u.gsnKnown = true →
      s.Hears chan (.seqReq kind node rtag epoch pa mask line) (.seqReq chan kind node rtag epoch pa mask line)
        (if kind = 1 then (u.seqFence node rtag).endMarks else u.seqWrite node rtag mask.toNat pa.toNat line)) ∧
    (u = s.takeP chan → s.Hears chan (.seqGrant 0 node rtag epoch seqno)
      (.seqGrant chan 0 node rtag epoch seqno) (u.fenceGranted rtag)) ∧
    (∀ l t, (l, t) ∈ s.home.txs → t.phase = .seq → t.tag = rtag → t.due ≠ 0 → t.due ≤ s.now →
      s.Moves (.seqBusyResend rtag)
        (s.resendSeq rtag (s.bobbinNode false) s.seqEpoch)) ∧
    (∀ v b, u = s.takeP chan → node ≠ u.node →
      (∀ q, u.appliedOf chan.peer = some q → follows48 seqno.toNat q = true) →
      (u.setApplied chan.peer seqno.toNat).applyReplica pa.toNat line = (v, b) →
      s.Hears chan (.replApply 0 node rtag epoch pa seqno line) (.replApply chan 0 node rtag epoch pa seqno line)
        (v.sendReplDone node (if b then 0 else 1) rtag seqno.toNat)) ∧
    (∀ status : BitVec 2, u = s.takeP chan →
      s.Hears chan (.replDone status node rtag seqno) (.replDone chan status node rtag seqno)
        (u.rxReplDone status.toNat node rtag))

/-- R296 to R300: the lending messages: a returned frame is freed and a LendReq answered with the run of frames lent; a LendGrant
gives its frames; a read of a frame lent to the asker is answered with its line; the answer to a transaction's read gives its
data. -/
def Obligations.LendingMessagesComplete : Prop :=
  ∀ (s u v : State) (chan : ChanId) (node : NodeId) (rtag : BitVec 16) (frame count lgen : BitVec 32) (line : BitVec 6)
    (data : Line),
    (u = s.takeP chan → s.Hears chan (.lendReq true node rtag frame count)
      (.lendReq chan true node rtag frame count) ((upto count.toNat).foldl (fun s i =>
        if s.lentTo (frame.toNat + i) node then s.freeFrame (frame.toNat + i) else s) u)) ∧
    (∀ i f n, u = s.takeP chan → u.entryOf false node = some i →
      u.isHomeEntry false i = true → u.pickFrame 0 = some f → u.mayLend f = true →
      u.lendRun node (min count.toNat 512) f = (v, n) → n ≠ 0 →
      s.Hears chan (.lendReq false node rtag frame count) (.lendReq chan false node rtag frame count)
        (v.sendNode false node (.lendGrant 0 v.node rtag (BitVec.ofNat 32 f) (BitVec.ofNat 32 n) v.mem.lgen))) ∧
    (u = s.takeP chan → u.mem.lendAsk = some rtag →
      s.Hears chan (.lendGrant 0 node rtag frame count lgen) (.lendGrant chan 0 node rtag frame count lgen) { u with
        mem.lendAsk := none, mem.lenderGens := tput u.mem.lenderGens node.toNat lgen
        mem.spareBorrowed := u.mem.spareBorrowed ++
          (upto count.toNat).map fun i => (⟨node.toNat, frame.toNat + i⟩ : Borrowed) }) ∧
    (∀ pa owner gen ksel poison d k, u = s.takeP chan → u.lentTo frame.toNat node = true → lgen = s.mem.lgen →
      u.readRaw nobody frame.toNat line.toNat srcLender = (v, .line d k) →
      s.Hears chan (.remAccess 0 node rtag line frame lgen pa owner gen ksel poison data)
        (.remAccess chan 0 node rtag line frame lgen pa owner gen ksel poison data)
        (v.sendNode false node (.remAnswer 0 v.node rtag line frame v.mem.lgen (some d)))) ∧
    (∀ r, u = s.takeP chan → s.chanNext chan (fun m => m = .remAnswer 0 node rtag line frame lgen (some data)
        || m = .remAnswer 0 node rtag line frame lgen none) = true →
      (u.home.rems.find? fun x => decide (x.tag = rtag) && decide (x.lender = node)) = some r → r.kind = 0 → r.mig = false →
      r.pa ≠ 2 ^ 52 → s.Moves (.remAnswer chan 0 node rtag line frame lgen data)
        ({ u with home.rems := u.home.rems.erase r }.lineAnswer r 0 (some data)))

/-- R252 to R263: what the messages and timers of a handoff do: a COPY that may be received is written, a RoleResend names the
holder to which a release must go, the copy is done when every message of it has left, a handoff whose other end is lost for
GRACE ends, and the window closes at the latest after 1 ms. -/
def Obligations.HandoffStepsComplete : Prop :=
  ∀ (s u : State) (chan : ChanId) (node : NodeId) (oconn : ConnId) (txid : Txid) (epoch : BitVec 16)
    (entries : List RoleEntry) (c : Chan),
    (u = s.takeP chan → u.mayReceive chan.peer = true → u.home.hoff.phase = .receiving →
      s.Hears chan (.roleState 0 node epoch entries) (.roleState chan 0 node epoch entries) (entries.foldl (fun s e => match e with
        | .copy off d => s.putCopy (off.toNat % 2 ^ 63) d
        | _ => s) u)) ∧
    (u = s.takeP chan → tget u.home.relays oconn.toNat = none →
      s.Hears chan (.roleResend node oconn txid) (.roleResend chan node oconn txid)
        (if u.relPending oconn.toNat txid then u.retarget oconn.toNat txid node
        else u.sendNode chan.bank node (.resultRelease u.node oconn txid))) ∧
    (s.chan ⟨false, s.home.hoff.peer⟩ = some c →
      (s.home.hoff.phase = .copy → c.txq = [] →
        s.Moves .hoffCopyDone { s with home.hoff := { s.home.hoff with phase := .ready } }) ∧
      (∀ t, s.home.hoff.phase = .copy ∨ s.home.hoff.phase = .ready ∨ s.home.hoff.phase = .receiving → c.downSince = some t →
        t + s.graceNs < s.now → c.state ≠ .up → s.Moves .hoffLost (s.hoffEnd true))) ∧
    (s.home.hoff.phase = .window → s.home.hoff.since + 1000000 ≤ s.now →
      (s.home.hoff.newHolder = false → s.Moves .handoffWindowClose { s with home.hoff := { s.home.hoff with
        phase := if s.home.hoff.residual.isEmpty = true ∧ s.residualElse = false then .idle else .residual } }) ∧
      (s.home.hoff.newHolder = true →
        u = ((s.home.hoff.moved.filter s.movedLive).foldl (fun s m => s.askRelease m.1) s).startGsn →
        s.Moves .handoffWindowClose { u with home.hoff := { u.home.hoff with phase := .idle } }))

/-- R160, R161, R252, R254: a declaration that finds no other under way counts DSEQ, sets BUSY and acts; a DeadNotice makes this
member act and answer, and its DONE answer takes the member out of those awaited; GO to a spare that is up is refused with
RESULT 3 where its raw capacity or translation region is the smaller, with 4 where it lacks a key slot that a page homed here
needs, and otherwise starts the copy (what the spare has is a free value of the model, log entry 77); ABORT before the cutover
ends it. -/
def Obligations.DeclarationsAndHandoffsComplete : Prop :=
  ∀ (s u v : State) (src : CsrSrc) (w : Word) (chan : ChanId) (node declarer : NodeId) (dseq : BitVec 16),
    (u = s.stored F.POOL_DECLARE_DEAD.key w → F.POOL_DECLARE_DEAD_GO.of w = 1 → u.bit F.POOL_DEAD_STS_BUSY = false →
      F.POOL_DECLARE_DEAD_BANK.of w = 0 → v = (u.incFld F.POOL_DEAD_STS_DSEQ).setFld F.POOL_DEAD_STS_BUSY 1 →
      s.Writes (.declareDead src w) src F.POOL_DECLARE_DEAD.key w (v.declare false
        (BitVec.ofNat 12 (F.POOL_DECLARE_DEAD_NODE.of w)) none (BitVec.ofNat 16 (v.fld F.POOL_DEAD_STS_DSEQ)) loseHoff)) ∧
    (u = s.takeP chan → s.Hears chan (.deadNotice false node declarer dseq) (.deadNotice chan false node declarer dseq)
      (u.declare chan.bank node (some (chan, declarer, dseq)) dseq loseHoff)) ∧
    (u = s.takeP chan → s.Hears chan (.deadNotice true node s.node dseq) (.deadNotice chan true node s.node dseq)
      { u with home.decls := u.home.decls.map fun (d : Decl) =>
          if d.node = node then { d with wait := d.wait.erase (dseq, chan.peer) } else d }.endDecls) ∧
    (∀ i x y peer, u = s.stored F.POOL_HOFF.key w → i = F.POOL_HOFF_TO.of w → F.POOL_HOFF_GO.of w = 1 →
      u.home.hoff.phase = .idle → u.spareUp i = true → peer = u.memNode false i → x = { u with free := u.free + 1 } →
      y = x.copyCheck → v = { y.setFld F.POOL_HOFF_STS_RESULT 0 with home.hoff := { idleHoff with
        phase := .copy, peer := y.memNode false i, toIdx := i, idx := (y.selfIdx false).getD 0, since := y.now, member := true
        total := y.copyOffs.length } } →
      s.Writes (.hoffGo src w) src F.POOL_HOFF.key w
        (if Config.spareRaw peer < u.rawBytes ∨ Config.spareRegion peer < u.etrBytes then u.setFld F.POOL_HOFF_STS_RESULT 3
        else if x.spareLacksKey peer u.free = true then x.setFld F.POOL_HOFF_STS_RESULT 4
        else v.sendRole (y.memNode false i) 0 v.hoffEpoch (v.copyEntries false y.copyOffs))) ∧
    (u = s.stored F.POOL_HOFF.key w → F.POOL_HOFF_GO.of w = 0 → F.POOL_HOFF_ABORT.of w = 1 →
      u.home.hoff.phase = .copy ∨ u.home.hoff.phase = .ready →
      s.Writes (.hoffAbort src w) src F.POOL_HOFF.key w (u.hoffEnd false))

/-- R67, R68, R73: an ASSIGN of an extent this module is home of, within its capacity and not in use, takes the lowest free slot;
REASSIGN and RELEASE complete once every line of the extent is recalled; an invalidation ends with BUSY 0. -/
def Obligations.TranslationOperationsComplete : Prop :=
  ∀ (s u : State) (a : Assign), s.home.assign = some a →
    (∀ m slot, a.op = 0 → s.mapMember false (a.paext * 2 ^ 21) = some m → s.memNode false m = s.node → s.isHomeEntry false m = true →
      s.slotsUsed + 1 ≤ s.effCapacity → s.extentInUse a.paext = false → s.lowestFree = some slot →
      u = (s.rewriteDescs slot (some a.tenant)).setSlot slot (usedEntry a.paext) →
      s.Moves .assignDone ((({ u with home.assign := none }.setFld F.TRN_ASSIGN_STS_BUSY 0).setFld F.TRN_ASSIGN_STS_RESULT
        0).setFld F.TRN_ASSIGN_STS_HSLOT slot)) ∧
    (∀ paext, a.op = 1 ∨ a.op = 2 → s.recalls a = some paext → s.recalled a.slot paext = true →
      u = (((upto 512).foldl (fun s p => s.freePage (512 * a.slot + p) (paext * 2 ^ 21 + p * 4096)) s).rewriteDescs a.slot
        (if a.op = 1 then some a.tenant else none)).setSlot a.slot (if a.op = 1 then usedEntry paext else 0) →
      s.Moves .assignDone ((({ u with home.assign := none }.setFld F.TRN_ASSIGN_STS_BUSY 0).setFld F.TRN_ASSIGN_STS_RESULT
        0).setFld F.TRN_ASSIGN_STS_HSLOT a.slot)) ∧
    exec .trnInvDone s = .next (s.setFld F.TRN_INV_STS_BUSY 0)

/-- R334, R342, R346, R349 to R351, R355, R357, R362: what the memory controllers do by themselves: a line is read with the error
it has acquired, a merge entry closes after 250 ns, the patrol reads its next line, a DIMM temperature gives TEMP, HOTREF and
THROTTLE, and a channel halts. -/
def Obligations.MemoryEventsComplete : Prop :=
  ∀ (s u : State) (frame line channel : Nat) (source : ReadSource) (err : BitVec 640),
    (∀ k v d n, line < 64 → frame / 24 < s.chanFrames (frameChan frame) → k = frame * 64 + line →
      u = { s with mem.dramErr := sput (fun _ => 0) s.mem.dramErr k (sget (fun _ => 0) s.mem.dramErr k ^^^ err) } →
      u.readRaw nobody frame line (sourceCode source) = (v, .line d n) →
      s.Moves (.lineReadReturn frame line source err) v) ∧
    (∀ e, s.mergeOf line = some e → e.since + 250 ≤ s.now → s.Moves (.mergeEntryClose e.group line) (s.closeLine line)) ∧
    (∀ f, s.bit F.ECC_SCRUB_EN = true → s.nextPatrol (s.mem.patrolAt / 64) = some f →
      line = (if f = s.mem.patrolAt / 64 then s.mem.patrolAt % 64 else 0) → u = (s.readRaw nobody f line srcPatrol).1 →
      s.Moves .patrolRead (if (u.nextPatrol ((f * 64 + line + 1) / 64)).isNone then u.endPatrol
        else { u with mem.patrolAt := f * 64 + line + 1 })) ∧
    (∀ (temp : Int) (hot thr : Bool) (v : State), channel < 24 → hot = decide (85 < temp) →
      thr = (if 95 < temp then true else if temp < 90 then false else s.bit (F.MEM_STS_THROTTLE channel)) →
      u = (s.setFld (F.MEM_STS_TEMP channel) (byteOf temp)).setFld (F.MEM_STS_HOTREF channel) (b2n hot) →
      v = (if hot = true ∧ s.bit (F.MEM_STS_HOTREF channel) = false then u.record (occ (bMEM channel) Cause.mem_HOT_REFRESH)
        else u).setFld (F.MEM_STS_THROTTLE channel) (b2n thr) →
      exec (.dimmTempRead channel temp) s = .next (if thr = true ∧ s.bit (F.MEM_STS_THROTTLE channel) = false
        then v.record (occ (bMEM channel) Cause.mem_THROTTLE) else v)) ∧
    (channel < 24 → s.chReady channel = true →
      u = (((s.setFld (F.MEM_STS_READY channel) 0).setFld (F.MEM_STS_LEFTOUT channel) 1).setFld (F.MEM_STS_REASON channel)
        5).record (occ (bMEM channel) Cause.mem_CHAN_HALT) →
      s.Moves (.chanHalt channel) ((u.closeMerges fun e => match u.mergeFrame e with
        | some f => decide (frameChan f = channel)
        | none => false).watchFree (chanDie channel)))

/-- R277, R279 to R282, R288, R290, R291, R318, R331: the scan reads its next descriptor, a heat epoch ends, a migration completes within its 4 µs or is
abandoned after them, a DIRTY segment that is due is stored, a warm segment is filled, and a test operation ends. -/
def Obligations.TierEventsComplete : Prop :=
  ∀ (s u : State) (page seg slot : Nat) (m : Mig), seg < 4 →
    (∀ pk, u = (if s.mem.scanAt = 0 then { s with mem.rekeyPass := s.rekeys } else s) →
      u.nextUsed (u.mem.scanAt / 512) = some slot → pk = (if slot = u.mem.scanAt / 512 then u.mem.scanAt else 512 * slot) →
      s.Moves .scan (if ({ u.scanPage pk with mem.scanAt := pk + 1 }.nextUsed ((pk + 1) / 512)).isNone
        then { u.scanPage pk with mem.scanAt := pk + 1 }.endPass.askLender
        else { u.scanPage pk with mem.scanAt := pk + 1 }.askLender)) ∧
    (s.mem.heatEpoch ≠ s.epoch → ∃ t, s.Moves .heatEpoch t ∧ t.mem.heatEpoch = s.epoch ∧ t.mem.sampled = [] ∧
      t.mem.sampledWarm = []) ∧
    (∀ f, s.migOf page = some m → s.now ≤ m.since + 4000 → m.waiting = [] → m.kind = .promote → m.dest = .frame f →
      dTier (s.desc page) = tierWARM → s.Moves (.migrationComplete page) (s.promoteWarm page m.pa f)) ∧
    (s.migOf page = some m → s.now ≤ m.since + 4000 → m.waiting = [] → m.kind = .demote → m.sent = false →
      dTier (s.desc page) = tierHOT → s.Moves (.migrationComplete page) (s.demoteHot page m.pa m.dest)) ∧
    (s.migOf page = some m → m.since + 4000 ≤ s.now → s.Moves (.migAbandon page)
      ((({ s with mem.migs := s.mem.migs.filter fun m => m.page ≠ page }.freeDest m.dest).incFld F.TIER_MIGCNT_ABANDON).recordPa
        (occObj bTIER Cause.tier_MIG_ABANDON 1 m.pa))) ∧
    (∀ w e, s.segEntry (pageDie page) ((s.pagePa page + 1024 * seg) / 1024) = some (w, e) → s.isWarm page = true →
      s.storeDue (pageDie page) ((s.pagePa page + 1024 * seg) / 1024) e = true →
      s.Moves (.segmentStore page seg) (s.storeSegment page seg)) ∧
    (s.segEntry (pageDie page) ((s.pagePa page + 1024 * seg) / 1024) = none → s.isWarm page = true →
      s.segLost page seg = false → s.Moves (.segmentFill page seg) (s.demandFill
        ⟨0, some (dOwner (s.desc page)), s.pagePa page + 1024 * seg⟩ page (s.pagePa page) seg).1) ∧
    (∀ op die, s.dataUp = true → s.sys.test = some (op, die) → (if op = 0 then s.decUp die else s.compUp die) ≠ 0 →
      exec .cmpTestDone s = .next (if op = 0 then s.testDecode die else s.testCompress die))

/-- R395, R399, R401, R405, R410, R420, R423: a tick moves the PTP counter to its next whole microsecond; a boundary and a dump are
taken at the tick edge they belong to; PPS_IN stamps and PPS_OUT rises once a second; a pending overflow sample is taken into
PRF_SAMPLE0 and posted. -/
def Obligations.MeteringEventsComplete : Prop :=
  ∀ (s u : State),
    (∃ t, exec .tick s = .next t ∧ t.now = (s.now / 1000 + 1) * 1000) ∧
    (s.boundaryDue = true → exec .snapshot s = .next (s.snapshotAt s.nextTick)) ∧
    (∀ b r : List Byte, s.dumpDue = true → b = s.dumpBody s.nextTick → r = b ++ leBytes 4 (crc32c b).toNat →
      u = { s with meter.dumpRing := tput s.meter.dumpRing (s.fld F.PRF_DUMPSTS % 32768) r, meter.dumpAt := s.nextTick } →
      exec .dump s = .next (u.incFld F.PRF_DUMPSTS)) ∧
    (∀ width, s.bit F.MTR_PTPCFG_PPSIN = true → 100 ≤ width → (∀ t, s.sys.ptp.ppsIn = some t → t + 500000000 ≤ s.now) →
      exec (.ppsIn width) s =
        .next ({ s with sys.ptp.ppsIn := some s.now }.setReg F.MTR_PPSIN.key (BitVec.ofNat 64 s.now))) ∧
    (s.bit F.MTR_PTPCFG_PPSOUT = true → s.sys.ptp.ppsOut < s.now / 1000000000 →
      exec .ppsOut s = .next { s with sys.ptp.ppsOut := s.now / 1000000000 }) ∧
    (∀ (bank ctr : Nat) (txid : Txid) (tenant : TenantId) (tv : Bool), bank < 17 → ctr < 8 →
      s.samples.contains (bank * 8 + ctr) = true →
      u = ((((({ s with samples := s.samples.erase (bank * 8 + ctr) }.setFld F.PRF_SAMPLE0_BANK bank).setFld F.PRF_SAMPLE0_CTR
        ctr).setFld F.PRF_SAMPLE0_TXID txid.toNat).setFld F.PRF_SAMPLE0_TENANT tenant.toNat).setFld F.PRF_SAMPLE0_TV
        (b2n tv)) →
      exec (.counterOverflow bank ctr txid tenant tv) s = .next (u.postOcc ((⟨bPRF, Cause.prf_SAMPLE, false, txid.toNat,
        if tv then some tenant.toNat else none, 0, 0⟩ : Occ).notice s.now false)))

/-- R449 to R451, R462, R465, R470, R472, R477: what the feeds and the power states do: a feed becomes GOOD, LOW or ABSENT, is cut
back and released; ride-through that has run out enters DRAIN, DRAIN that completes without input enters RETENTION, RETENTION
resumes or ends in OFF; the PMU restarts, its island fails, and a module in LOCK whose feeds are gone is OFF. -/
def Obligations.PowerEventsComplete : Prop :=
  ∀ (s u : State) (f : Feed) (mv : Nat),
    (s.fld (feedFld f) ≠ 2 → 11200 ≤ mv → u = (s.setFld (feedFld f) 2).setFld (feedVolt f) (min mv 65535) →
      exec (.feedGood f mv) s = .next (if u.pst ≠ 2 then u else if u.rideOver then u.drain false
        else { u with sys.power.backAt := some s.now }.setPst 1)) ∧
    (s.fld (feedFld f) = 2 → s.sys.start.powered = true → ∀ i st, (i, st) ∈ [(Instr.feedLow f mv, 1), (.feedAbsent f mv, 0)] →
      mv < 10800 → (st = 0 → mv < 6000) →
      u = ((((s.setFld (feedFld f) st).setFld (feedVolt f) (min mv 65535)).record (occ bPMU (feedCause f))).abortTest) →
      exec i s = .next (if u.inputGood then u else u.inputLost)) ∧
    (s.sys.start.powered = true →
      exec (.feedOvercurrent f) s = .next ((s.setCut f true).record (occ bPMU Cause.pmu_FEED_OVERCURRENT))) ∧
    exec (.cutBackRelease f) s = .next (s.setCut f false) ∧
    (∀ short, s.pst = 2 → short = true ∨ s.sys.power.windowAt + s.fld F.PMU_CFG_RIDE_MS * 1000000 ≤ s.now →
      exec (.rideExpiry short) s = .next (s.drain false)) ∧
    (s.pst = 3 → s.sys.power.resuming = false → s.inputGood = false →
      u = ((s.saveShelf.holdAll fun _ => true).breakAll.portsDown) →
      exec .drainComplete s = .next (({ u with sys.power.retAt := u.now }.setPst 4).incFld F.PMU_CNT_RETENTIONS)) ∧
    (s.pst = 3 → s.sys.power.resuming = false → s.inputGood = true → s.sys.power.toStby = true →
      exec .drainComplete s = .next (s.saveShelf.setPst 5)) ∧
    (s.pst = 4 → s.fld (feedFld f) = 2 → exec (.returnMs f) s = .next { s with sys.power.resuming := true }) ∧
    (s.pst = 4 → s.inputGood = false → exec .retentionExhausted s = .next (s.powerOff 2 s.retSeconds)) ∧
    (s.sys.start.powered = true → exec .pmuRestart s = .next (s.recordDom (pairKey bPMU Cause.pmu_PMU_RESTART) 50000000
      (occ bPMU Cause.pmu_PMU_RESTART))) ∧
    (s.sys.start.powered = true → s.locked = false →
      exec .islandFault s = .next (s.record (occ bPMU Cause.pmu_ISLAND_FAULT)).enterLock) ∧
    (s.locked = true → s.fld F.PMU_STATE_FEEDA = 0 → s.fld F.PMU_STATE_FEEDB = 0 →
      exec .powerCycleOutOfLock s = .next (s.powerOff 4 0))

/-- R454, R456 to R461: what the hold-up pack's events do: the estimate with RTAVAIL, the end of a capacity test, a temperature
read in the normal band, the gauge poll that a gauge answers or misses, the charger's termination and restart, and the pack
check. -/
def Obligations.PackEventsComplete : Prop :=
  ∀ (s u v : State),
    (∀ (loadW soc vmv fcc : Nat) (ip : Int) (x y : State), s.sys.start.powered = true →
      u = ((s.setFld F.PMU_PACK_STS_VPACK (min vmv 65535)).setFld F.PMU_PACK_STS_IPACK (satSigned 16 ip)).setFld
        F.PMU_PACK_STS_SOC (min soc 10000) →
      v = (if u.chem = 2 then u.setFld F.PMU_PACK_EST_FCC (min fcc 65535) else u) →
      x = (v.setFld F.PMU_PACK_EST_RTNEED (min 65535 (v.rtNeed loadW / 360000))).setFld F.PMU_PACK_EST_RETMIN
        (min 65535 (v.packEnergy / (max 1 v.dimms * 750000))) →
      y = x.setFld F.PMU_STATE_RTAVAIL (b2n (x.rtAvail loadW)) →
      exec (.rtavailUpdate loadW soc vmv ip fcc) s = .next (if x.bit F.PMU_STATE_RTAVAIL = true ∧ x.rtAvail loadW = false ∧
        y.pst = 1 then y.record (occ bPMU Cause.pmu_RT_UNAVAIL) else y)) ∧
    (∀ (e fcc soh : Nat), s.pack = 6 → fcc = min e 65535 → soh = min 1023 (fcc * 100 / max 1 (s.fld F.PMU_PACK_CFG_DESIGN_WH)) →
      u = (((s.setFld F.PMU_PACK_EST_FCC fcc).setFld F.PMU_PACK_EST_SOH soh).setFld F.PMU_PACK_STS_SOC 0).record
        { occ bPMU Cause.pmu_CAPTEST_DONE with txid := fcc / 10 } →
      exec (.captestDone e) s = .next (if soh < 10 * u.fld F.PMU_PACK_CFG_EOL_PCT
        then (u.record (occ bPMU Cause.pmu_PACK_EOL)).abortTest else u.abortTest)) ∧
    (∀ temp : Int, s.sys.start.powered = true → s.chem ≠ 0 → packBand s.chem temp = .normal →
      u = { s.setFld F.PMU_PACK_STS_TEMP (satSigned 8 temp) with sys.power.noCharge := false } →
      exec (.packTempRead temp true) s = .next (if u.pack = 4 then u.setPack (if s.sys.power.charged then 3 else 2) else u)) ∧
    (s.sys.start.powered = true → s.bit F.PMU_PACK_CFG_GAUGE = true → s.sys.power.gaugeOff = false →
      exec (.gaugePoll true false false) s = .next { s with sys.power.gaugeMiss := 0 } ∧
      (∀ a b, a = true ∨ b = true → exec (.gaugePoll true a b) s = .next { s with sys.power.gaugeMiss := 0 }.packFault) ∧
      (2 ≤ s.sys.power.gaugeMiss → ∀ a b, exec (.gaugePoll false a b) s = .next ({ s with
        sys.power.gaugeMiss := s.sys.power.gaugeMiss + 1, sys.power.gaugeOff := true }.record
          (occ bPMU Cause.pmu_GAUGE_LOST)))) ∧
    (s.pack = 2 → s.sys.power.noCharge = false →
      u = { s with sys.power.charged := true }.setFld F.PMU_PACK_STS_SOC 10000 →
      exec .chargeTermination s = .next (if u.pack = 2 then u.setPack 3 else u)) ∧
    (s.chem = 1 → s.sys.power.charged = true → s.fld F.PMU_PACK_STS_SOC < 9700 → s.pack = 3 →
      exec .chargeRestart s = .next ({ s with sys.power.charged := false }.setPack 2)) ∧
    (∀ full, s.pack = 1 → s.sys.start.powered = true → s.chem ≠ 0 →
      u = { s with sys.power.charged := full, sys.power.noDischarge := false } →
      exec (.packCheck true true true true false full) s =
        .next (u.setPack (if s.sys.power.noCharge then 4 else if full then 3 else 2)) ∧
      ∀ r, exec (.packCheck false r r r r full) s = .next (s.setPack 0))

/-- R23, R45, R445, R465 to R467, R472, R478, R480, R517, R528, R529: how the module starts: a cold start with a feed, POOL_READY
after training, the management core's restart and return, RST_N of 10 µs or more and its release, and the end of a resume. -/
def Obligations.StartEventsComplete : Prop :=
  ∀ (s u : State) (inp : StartIn),
    (s.sys.start.powered = false → s.fld F.PMU_STATE_FEEDA ≠ 0 ∨ s.fld F.PMU_STATE_FEEDB ≠ 0 →
      exec (.coldStart inp) s = .next (s.startUp 0 inp)) ∧
    (s.sys.start.inp = some inp → s.pst = 7 → s.fld F.FWU_BOOT_PHASE = 5 → s.inputGood = true →
      u = ((if s.sys.start.kind = 2 then s else (s.train inp.pop).fillRegions).setFld F.TRN_CFG_SLOTS
        (if s.sys.start.kind = 2 then s else (s.train inp.pop).fillRegions).slotCount).setFld F.FWU_BOOT_PHASE 8 → u.diesUp = true →
      exec .poolReady s = .next (if u.sys.start.kind ≠ 2 ∧ u.chem ≠ 0 then u.setPack 1 else u).serve) ∧
    (∀ reason : BitVec 2, reason ≠ 0 → s.csrUp = true → s.sys.csr.mcDown = false →
      u = { s with sys.csr := { s.sys.csr with kept := [], mcDown := true, mcAt := s.now, reason := reason.toNat } } →
      exec (.mcRestart reason) s =
        .next ((u.incFld F.GBL_MCSTS_RESTARTS).setFld F.GBL_MCSTS_REASON reason.toNat)) ∧
    (s.sys.csr.mcDown = true → s.sys.csr.owed = [] → s.sys.csr.owedMgt = [] →
      u = { s with sys.csr := { s.sys.csr with mcDown := false, lastMc := some s.sys.csr.mcAt } } →
      exec .mcRestartDone s = .next (u.record { occ bGBL Cause.gbl_MC_RESTART with
        esc := match s.sys.csr.lastMc with
          | some t => decide (s.sys.csr.mcAt < t + 60000000000)
          | none => false })) ∧
    (∀ width, 10000 ≤ width → s.sys.start.powered = true → u = { s with free := s.free + 1, sys.start.rstHeld := true } →
      (s.pst = 1 ∨ s.pst = 5 → exec (.rstN width inp) s = .next (u.startUp 1 inp)) ∧
      (s.pst = 2 ∨ s.pst = 3 ∨ s.pst = 4 →
        exec (.rstN width inp) s = .next ((u.incFld F.PMU_CNT_RSTIGN).record (occ bPMU Cause.pmu_RST_IGNORED)))) ∧
    (s.sys.start.rstHeld = true → s.sys.start.inp = some inp → s.pst = 7 → s.sys.start.powered = true →
      s.fld F.FWU_BOOT_PHASE = 1 → exec .rstNRelease s = .next ({ s with sys.start.rstHeld := false }.bootSteps inp)) ∧
    (s.sys.power.resuming = true → s.locked = false → s.sys.power.toStby = false →
      u = { s with sys.power.resuming := false }.setPst 1 → u.fld F.FWU_STS_STATE ≠ 3 → u.fld F.FWU_STS_STATE ≠ 5 →
      u.clearNtq.resumeChans.inputGood = true → u.clearNtq.resumeChans.dataUp = false →
      exec (.resumeComplete [] inp) s = .next u.clearNtq.resumeChans)

/-- R23, R120, R121, R480, R538: a port loses its link, shows uncorrectable codewords, trains its link, or its sequencer or the
tier engine's crashes. -/
def Obligations.PortEventsComplete : Prop :=
  ∀ (s u : State) (p : Nat) (blocks : List Nat), s.hasPort p = true → blocks = portBlocks s.portMode p →
    ((s.port p).link = true →
      exec (.linkDown p) s = .next ((s.setPort p ⟨false, false, false⟩).recordPort p blocks Cause.port_LINK_DOWN) ∧
      ∀ n : BitVec 32, u = blocks.foldl (fun s b => s.addFld (F.ETH_FEC_CNT_UNCORR b) n.toNat) s →
        exec (.fecDegrade p n) s = .next (if 100 < n.toNat then u.recordPort p blocks Cause.port_FEC_DEGRADE else u)) ∧
    (s.cagesLive = true → (s.port p).link = false → (s.cage (cageOf s.portMode p)).step = 9 ∨
        s.cageSt (cageOf s.portMode p) = 4 → u = s.setPort p ⟨true, true, s.bit F.GBL_STATUS_POOL_READY⟩ →
      exec (.linkUp p) s = .next (if (s.cage (cageOf s.portMode p)).step = 9 ∧
          ((cagePorts u.portMode (cageOf s.portMode p)).all fun q => (u.port q).link) = true
        then (u.setCage (cageOf s.portMode p) { s.cage (cageOf s.portMode p) with step := 0 }).setCageSt
          (cageOf s.portMode p) 4 else u)) ∧
    (∀ e, e < 8 → s.sys.start.powered = true → s.locked = false →
      u = s.recordPort ((enginePorts s.portMode e).headD e) [e] Cause.port_SEQUENCER →
      exec (.sequencer e) s = .next ((enginePorts s.portMode e).foldl (fun s p => (s.linkWith p).portReset p) u)) ∧
    s.Moves .tierSequencer
      (s.abandonAll.recordDom (pairKey bTIER Cause.tier_SEQUENCER) 4000 (occ bTIER Cause.tier_SEQUENCER))

/-- R537 to R543: the insertion sequence of a cage: presence, ModuleReady with an application, DPActivated, the time-out of a
step, the poll of a READY module, presence lost, overcurrent, and the end of a CMIS transfer. -/
def Obligations.CageEventsComplete : Prop :=
  ∀ (s u : State) (n : Nat), n < 8 →
    (s.cagesLive = true →
      (∀ i, (s.cage n).info = none → exec (.presence n i) s = .next (s.cageInsert n i)) ∧
      (∀ i, (s.cage n).info = some i → (s.cage n).step = 7 → exec (.moduleReady n) s = .next (if i.appsel = 0
        then s.cageFault n 3
        else (s.setFld (F.CAGE_ID_APPSEL n) i.appsel.toNat).setCage n { s.cage n with step := 8, since := s.now })) ∧
      ((s.cage n).step = 8 → exec (.dpActivated n) s = .next (s.setCage n { s.cage n with step := 9, since := s.now })) ∧
      ((s.cage n).since + 2000000000 ≤ s.now →
        ((s.cage n).step = 3 → exec (.cageTimeout n) s = .next (s.cageFault n 5)) ∧
        ((s.cage n).step = 7 ∨ (s.cage n).step = 8 → exec (.cageTimeout n) s = .next (s.cageFault n 4))) ∧
      (∀ temp int high los, s.cageSt n = 4 →
        u = (s.setFld (F.CAGE_STS_TEMP n) (satSigned 8 temp)).setFld (F.CAGE_STS_INT n) (b2n int) →
        exec (.cmisPoll n temp int high los) s = .next (if high = true then u.cageFault n 6
          else if los = true then (cagePorts u.portMode n).foldl (fun s p => s.loseLink p) u else u)) ∧
      ((s.cage n).info ≠ none → 1 ≤ s.cageSt n → s.cageSt n ≤ 4 ∨ s.cageSt n = 7 →
        exec (.cageOvercurrent n) s = .next (s.cageFault n 1))) ∧
    (s.sys.start.powered = true → (s.cage n).info ≠ none → s.cageSt n = 5 ∨ s.cageSt n = 6 →
      u = (s.cageOff n).setCage n { (s.cageOff n).cage n with info := none } → u.bit (F.CAGE_CTL_HOSTOWN n) = false →
      exec (.presenceLost n) s = .next (u.cageStart n)) ∧
    (s.bit (F.CAGE_CMIS_CTL_BUSY n) = true → u = s.setFld (F.CAGE_CMIS_CTL_BUSY n) 0 →
      (∀ d, exec (.cmisTransferDone n true d) s = .next (u.setFld (F.CAGE_CMIS_CTL_RESULT n) 1)) ∧
      (∀ d m v, (s.cage n).info ≠ none → v = u.setFld (F.CAGE_CMIS_CTL_RESULT n) 0 → v.bit (F.CAGE_CMIS_CTL_WRITE n) = false →
        m = ones64 (8 * v.fld (F.CAGE_CMIS_CTL_LEN n)) → exec (.cmisTransferDone n false d) s = .next
          (v.setReg (F.CAGE_CMIS_DATA n).key ((v.reg (F.CAGE_CMIS_DATA n).key &&& ~~~m) ||| (d &&& m)))))

/-- R490 to R496: a check that passes ends a check-only request, or applies or starts to program a commit; a group that has been
programmed is applied, a scheduled commit is applied at its instant, and its APPLIED record ends MARKING; an erase ends. -/
def Obligations.CommitEventsComplete : Prop :=
  ∀ (s u : State),
    (s.fld F.CFG_STS_STATE = 2 → s.csrUp = true → s.checkBank (wbit s.sys.bank.ctl 4) = none →
      (wbit s.sys.bank.ctl 1 = true →
        u = (((s.setFld F.CFG_STS_LASTOK 1).setFld F.CFG_STS_CHECKONLY 1).setFld F.CFG_STS_REFCODE 0).setReg
          F.CFG_REFADDR.key 0 →
        exec .checkDone s = .next (s.goesOn (u.setFld F.CFG_STS_STATE (if u.sys.bank.wasEmpty then 0 else 1)))) ∧
      (wbit s.sys.bank.ctl 1 = false → wbit s.sys.bank.ctl 4 = false → wbit s.sys.bank.ctl 5 = false →
        exec .checkDone s = .next (s.goesOn (s.applyBank s.now))) ∧
      (wbit s.sys.bank.ctl 1 = false → wbit s.sys.bank.ctl 4 = true → s.compactDue s.groupValues = false →
        exec .checkDone s =
          .next (s.goesOn ({ s with sys.bank.marking := s.groupValues }.setFld F.CFG_STS_STATE 3)))) ∧
    (s.fld F.CFG_STS_STATE = 2 → s.csrUp = true → ∀ code ref, s.checkBank (wbit s.sys.bank.ctl 4) = some (code, ref) →
      exec .checkDone s = .next (s.goesOn (s.endRefused code ref))) ∧
    (s.fld F.CFG_STS_STATE = 3 → s.csrUp = true → s.notNow = false →
      exec (.groupProgrammed false) s = .next (s.goesOn s.writeGroup.applyOrSchedule)) ∧
    (s.fld F.CFG_STS_STATE = 4 → s.sys.bank.instant ≤ s.now → s.notNow = false →
      exec .commitInstant s = .next (s.goesOn (s.applyBank s.sys.bank.instant))) ∧
    (s.fld F.CFG_STS_STATE = 5 → s.csrUp = true → s.sys.bank.next = none →
      u = s.persistSlots.foldl (fun t x => t.setSlotRec x ((t.nvSlot x).markGroup (t.groupFor x s.sys.bank.marking))) s →
      ∃ t, exec (.appliedRecord false) s = .next t ∧ t.sys.fwu = u.sys.fwu ∧ t.sys.bank.marking = [] ∧
        t.sys.bank.vol = s.sys.bank.vol.filter fun k => (tget s.sys.bank.marking k).isNone) ∧
    exec .eraseDone s = .next (s.setFld F.CFG_NVM_ERASING 0)

/-- R486, R497, R498, R502, R505, R506: an ERASE, PROGRAM or VERIFY ends; a step of an update that is done begins the next, one
that overruns begins the revert; Hoop mode takes a bundle, sends its status file and sends it again, and ends with the bundle in
both slots. -/
def Obligations.UpdateEventsComplete : Prop :=
  ∀ (s u : State) (inp : StartIn),
    (s.bit F.FWU_STS_BUSY = true → s.csrUp = true → u = { s with sys.fwu.op := 0 }.setFld F.FWU_STS_BUSY 0 →
      (s.sys.fwu.op = 1 → exec (.fwuOperationDone false) s =
        .next (((u.setSlotRec u.target (emptySlot.putBoot ⟨0, (u.nvSlot u.target).seq, false, false, 0⟩)).setFwu 0).setFld
          F.FWU_STS_RESULT 0)) ∧
      (s.sys.fwu.op = 2 → exec (.fwuOperationDone false) s = .next (((u.modSlot u.target fun c =>
        c.putPage (u.fld F.FWU_ADDR_OFFSET / 256) u.fwuPage).setFwu 1).setFld F.FWU_STS_RESULT 0)) ∧
      (s.sys.fwu.op = 3 → u.verifyTarget ≠ 0 → exec (.fwuOperationDone false) s =
        .next (u.setFld F.FWU_STS_RESULT u.verifyTarget))) ∧
    (s.fwuSt = 3 → s.fld F.FWU_STS_STEP ≠ 0 → s.fld F.FWU_STS_STEP < 12 → s.stepDone (s.fld F.FWU_STS_STEP) = true →
      s.Moves .updateStep (s.beginStep (s.stepAfter (s.fld F.FWU_STS_STEP)))) ∧
    (s.fwuSt = 3 → s.sys.fwu.stepAt + stepBound (s.fld F.FWU_STS_STEP) ≤ s.now →
      u = ({ s with sys.fwu.failed := true }.setFwu 5).setFld F.FWU_STS_RESULT 11 →
      s.Moves .stepFail ((u.record (occ bFWU Cause.fwu_STEP_FAIL)).beginStep (min (s.fld F.FWU_STS_STEP) 11))) ∧
    (∀ (ip : BitVec 32) (port : BitVec 16) (mode : String), s.inHoop = true → octet mode = true →
      (∀ bundle, bundle.length ≤ imageSize → ∃ t, exec (.wrq ip port "recovery" mode bundle) s = .next t ∧
        t.sys.fwu.outcome = (if (bundleSlot bundle).imageResult s.sys.fwu.floor = 0 then 1
          else (bundleSlot bundle).imageResult s.sys.fwu.floor) ∧
        t.sys.fwu.bundle = (if (bundleSlot bundle).imageResult s.sys.fwu.floor = 0 then bundle else [])) ∧
      (∀ p, p = tftp 3 1 ((Config.statusText s.sys.fwu.result0 s.sys.fwu.result1 s.fwuBoot s.fwuArb s.sys.fwu.outcome).take 512) →
        u = { s with sys.fwu := { s.sys.fwu with peer := some (ip, port), packet := p, sentAt := s.now, tries := 0 } } →
        exec (.rrq ip port "status" mode) s = .next (u.sendMgt ⟨ip, port, p⟩)) ∧
      (s.sys.fwu.peer = some (ip, port) → s.sys.fwu.sentAt + 1000000000 ≤ s.now → s.sys.fwu.tries < 5 →
        u = { s with sys.fwu := { s.sys.fwu with sentAt := s.now, tries := s.sys.fwu.tries + 1 } } →
        exec .tftpRetransmit s = .next (u.sendMgt ⟨ip, port, s.sys.fwu.packet⟩))) ∧
    (s.inHoop = true → s.sys.fwu.bundle ≠ [] → ∃ v : State, exec (.recoveryWritten inp) s = .next (v.startUp 1 inp) ∧
      v.sys.fwu.a = v.sys.fwu.b ∧ v.sys.fwu.a.pages = pagesOf s.sys.fwu.bundle ∧ v.sys.fwu.bundle = [])

/-- R108, R422, R431, R510 to R518, R532 to R535, R542: what the crossbar, the management port and the shelf do: a read answers
what the register reads as, a write stores and acts, a request that a domain does not take in 1 ms answers 15, a datagram's
requests are answered in order, ARP and ICMP echo are answered, and a thermal event, a Block Read and a lost link act. -/
def Obligations.ManagementEventsComplete : Prop :=
  ∀ (s u : State) (src : CsrSrc) (addr : BitVec 32) (w : Word) (d : RegDef) (r : CsrReq), regAt addr.toNat = some d →
    (∀ v a, r = ⟨src, false, addr, none⟩ → s.counted.csrReadAt addr.toNat = (v, a) → s.admits r = true →
      exec (.csrRead src addr) s = .next (s.answered r v a)) ∧
    (r = ⟨src, true, addr, some w⟩ → s.admits r = true →
      exec (.csrWrite src addr w) s = .next (s.answered r (s.counted.writeReg d addr.toNat w) wrote) ∧
      (d.rws ≠ 0 → exec (.rwsWrite src addr w) s = .next (s.answered r (s.counted.writeReg d addr.toNat w) wrote))) ∧
    (∀ write, r = ⟨src, write, addr, none⟩ → s.admits r = true → exec (.csrTimeout src addr write) s =
      .next (s.answered r (s.counted.record (occ bGBL Cause.gbl_CSR_TIMEOUT)) ⟨15, 0, 0⟩)) ∧
    (∀ ip port p l v rs, s.csrUp = true → parseMgt p = some l → s.mgmtAll ip port l = (v, rs) →
      exec (.mgtDatagram ip port p) s = .next (s.answerLater v ⟨ip, port, mgtBytes rs⟩)) ∧
    (s.mgtUp = true →
      (∀ mac ip, exec (.arp mac ip s.mgtAddr) s = .next (s.sendMgt ⟨ip, 0, arpReply mac ip s.mgtAddr⟩)) ∧
      (∀ ip i n p, exec (.icmpEcho ip s.mgtAddr i n p) s = .next (s.sendMgt ⟨ip, 0, echoReply i n p⟩)) ∧
      exec .mgtLink s = .next (s.record (occ bGBL Cause.gbl_MGT_LINK))) ∧
    (s.sys.start.powered = true →
      (∀ t, u = (s.setTemps t).cool t → exec (.thermalWarn t) s =
        .next (if inletMax < t.inlet ∨ 100 ≤ t.die0 ∨ 100 ≤ t.die1 then u.record (occ bGBL Cause.gbl_THERMAL_WARN) else u)) ∧
      (∀ t, 115 ≤ t.die0 ∨ 115 ≤ t.die1 → s.pst = 1 ∨ s.pst = 2 → u = { s.setTemps t with sys.power.hot := true } →
        exec (.thermalTrip t) s = .next (((u.record (occ bGBL Cause.gbl_THERMAL_TRIP)).refusePending).drain true)) ∧
      (∀ c v l, c.wroteData = false → s.smbusData c.command.toNat = (v, some l) → exec (.smbusBlockRead c) s =
        .next { v with sys.smbusOut := v.sys.smbusOut ++ [8 :: l] }))

/-- A step takes the command at the front of the queue and is its effect on the state with the queue's rest; on an empty queue the
block idles, which is the model's choice (log entry 2). -/
def Obligations.StepRunsTheFrontCommand : Prop :=
  ∀ s : State, (∀ (c : Instr) (rest : List Instr), s.pending = c :: rest → step s = exec c { s with pending := rest }) ∧
    (s.pending = [] → step s = .next s)

/-- What reset leaves: every register reads as its Reset column says (where that gives none, as the model's log entry 4 says), the
module is OFF and not in LOCK, nothing waits, no memory is listed, and every store has its canonical form. -/
def Obligations.ResetLeaves : Prop :=
  State.reset.pending = [] ∧ (∀ k, State.reset.reg k = regReset k) ∧ State.reset.regsOk = true ∧
    State.reset.fld F.CDL_ETYPE_COLDEL = 0x88B5 ∧ State.reset.fld F.CDL_NODE_NODE = 0xFFF ∧ State.reset.fld F.CDL_CREDIT_W0 = 64 ∧
    State.reset.fld F.CDL_CREDIT_W1 = 512 ∧ State.reset.fld F.CDL_CREDIT_W3 = 256 ∧ State.reset.fld F.DIR_COHCFG_HINT_BUSY = 10 ∧
    State.reset.fld F.TIER_CFG_EPOCH_MS = 1000 ∧ State.reset.fld F.TIER_RESV_MOVE = 2048 ∧ State.reset.fld F.XTS_CFG_BUDGET_LOG2 = 40 ∧
    State.reset.fld F.XTS_CFG_ALARM_LIMIT = 256 ∧ State.reset.fld F.ECC_SCRUB_PERIOD_H = 24 ∧ State.reset.sys.start.powered = false ∧ State.reset.locked = false ∧
    State.reset.mem.dram = [] ∧ Memory.wf State.reset.mem = true ∧ State.reset.ntq.entries = [] ∧
    State.reset.link.conns = [] ∧ State.reset.home.dir = [] ∧ State.reset.mem.keys = []

/-- The model's choice (log entry 3): a command that names a port, channel, cage, engine, die or bank that the module does not have
stops the run with noSuchUnit. -/
def Obligations.MissingUnitsFault : Prop :=
  ∀ (s : State) (n : Nat) (t : Int) (l : Bool), (s.hasPort n = false → exec (.linkDown n) s = .fault .noSuchUnit ∧
      exec (.linkUp n) s = .fault .noSuchUnit ∧ exec (.fecDegrade n 0) s = .fault .noSuchUnit) ∧
    (24 ≤ n → exec (.dimmTempRead n t) s = .fault .noSuchUnit ∧ exec (.chanHalt n) s = .fault .noSuchUnit) ∧
    (8 ≤ n → exec (.cageTimeout n) s = .fault .noSuchUnit ∧ exec (.presenceLost n) s = .fault .noSuchUnit ∧
      exec (.sequencer n) s = .fault .noSuchUnit) ∧
    (2 ≤ n → exec (.keySlotReload n 0 l) s = .fault .noSuchUnit) ∧
    (17 ≤ n → exec (.counterOverflow n 0 0 0 l) s = .fault .noSuchUnit)

/-- R122: sequence numbers are compared modulo 2^24; of two values less than 2^23 apart exactly one precedes the other, or they
are equal. -/
def Obligations.SequenceOrder : Prop :=
  ∀ a b : Seq24, (precedes a b = true ↔ 1 ≤ (b.toNat + 2 ^ 24 - a.toNat) % 2 ^ 24 ∧
      (b.toNat + 2 ^ 24 - a.toNat) % 2 ^ 24 ≤ 2 ^ 23 - 1) ∧
    (follows b a = precedes a b) ∧
    ((b - a).toNat ≠ 2 ^ 23 → (precedes a b = true ∧ a ≠ b ∧ precedes b a = false) ∨
      (precedes a b = false ∧ a = b ∧ precedes b a = false) ∨ (precedes a b = false ∧ a ≠ b ∧ precedes b a = true))

/-- R131: advancing grants never takes a pool past its size and never takes a class past its window, and leaves GRANT2 alone. -/
def Obligations.GrantsStayWithinPools : Prop :=
  ∀ (s : State) (k : Nat), tsorted s.link.conns = true → (∀ e cls, cls < 4 → s.reserved e cls ≤ poolUnits cls) →
    (∀ e cls, cls < 4 → (s.advanceGrants k).reserved e cls ≤ poolUnits cls) ∧
    ∀ c, s.conn k = some c → ∃ d, (s.advanceGrants k).conn k = some d ∧ d.grant.c2 = c.grant.c2 ∧ d.recv = c.recv ∧
      ∀ cls, cls ∈ [0, 1, 3] → (c.grant.get cls - c.recv.get cls).toNat ≤ s.window cls →
        (d.grant.get cls - c.recv.get cls).toNat ≤ s.window cls

/-- R100, R103 to R108: reading the bytes of Coldel messages packed one after the other, with zeros after them, gives those
messages. -/
def Obligations.MessagesRoundTrip : Prop :=
  ∀ (l : List Msg) (zeros fuel : Nat), (∀ m ∈ l, m.canon = true) → l.length < fuel →
    (∀ m ∈ l, m.bytes.length % 8 = 0) ∧
      parsePayload fuel (l.flatMap Msg.bytes ++ List.replicate zeros 0) = some l

/-- R118, R119, R156, R161, R236, R249, R263, R300: the length of a Picot message at the start of a stream is that of its bytes,
and reading them gives the message, whatever follows. -/
def Obligations.PoolMessagesRoundTrip : Prop :=
  ∀ (m : PMsg) (rest : List Byte) (reads : Nat → Bool), m.canon = true → m.tagRead reads = true →
    pmsgLen reads (m.bytes ++ rest) = some m.bytes.length ∧ parsePMsg (m.bytes ++ rest) m.bytes.length = some m

/-- R82, R83, R86: reading a Coldel header's 24 bytes gives the header; the CRC-32C of a frame stands after its payload. -/
def Obligations.ColdelHeaderRoundTrip : Prop :=
  ∀ (h : CHdr) (payload : List Byte), h.inRange = true → h.bytes.length = 24 ∧ CHdr.parse (coldelBytes h payload) = h ∧
    bytesAt (coldelBytes h payload) (24 + payload.length) 4 = (crc32c (h.bytes ++ payload)).toNat

/-- R206: the 80 bits of a directory entry give the entry. -/
def Obligations.DirectoryEntryRoundTrip : Prop := ∀ e : DirEnt, e.canon = true → entOf (entBits e) = e

/-- R204: a line's set is PA[21:6] XOR PA[37:22], its tag PA[51:22], and set and tag name exactly one line. -/
def Obligations.SetAndTagNameOneLine : Prop :=
  ∀ pa : Addr, lineSet (pa.toNat / 64) = bfGet pa 6 16 ^^^ bfGet pa 22 16 ∧ lineSet (pa.toNat / 64) < 65536 ∧
    (lineTag (pa.toNat / 64)).toNat = bfGet pa 22 30 ∧
    lineOfTag (lineSet (pa.toNat / 64)) (lineTag (pa.toNat / 64)) = pa.toNat / 64 ∧
    ∀ pb : Addr, lineSet (pa.toNat / 64) = lineSet (pb.toNat / 64) → lineTag (pa.toNat / 64) = lineTag (pb.toNat / 64) →
      pa.toNat / 64 = pb.toNat / 64

/-- R193: what an atomic leaves in its 8 or 16 bytes, least significant byte first, and that it leaves the rest of the line. -/
def Obligations.AtomicsChangeTheirOperandOnly : Prop :=
  ∀ (h : HReq) (d u : Line) (w lo : Nat), h.req.op.isAtomic = true → w = (if h.req.hdr.sz16 then 128 else 64) →
    lo = 8 * (h.pa % 64) → h.pa % (w / 8) = 0 → u = bfSet d lo w (atomNew h (atomOld h d)) →
    bfGet u lo w = (if h.req.op = .fetchAdd then (bfGet d lo w + h.req.opa.toNat) % 2 ^ w
      else if h.req.op = .swap then h.req.opa.toNat % 2 ^ w
      else if bfGet d lo w = h.req.opa.toNat % 2 ^ w then h.req.opb.toNat % 2 ^ w else bfGet d lo w) ∧
    (∀ i, i < lo ∨ lo + w ≤ i → u.getLsbD i = d.getLsbD i)

/-- R20, R342, R343, R353: a line written to a channel in service reads as written, without an error, and no other line changes;
while the channel is out of service a write is lost and a read answers that the channel is halted. -/
def Obligations.DramReadsAsWritten : Prop :=
  ∀ (s t : State) (w v : Who) (f line src : Nat) (d : Line), s.regsOk = true → Memory.wf s.mem = true → line < 64 →
    s.bit F.ECC_PFLIP_ARM = false → s.bit (F.MEM_FLIPCTL_ARM (frameChan f)) = false →
    (s.chReady (frameChan f) = true → t = (s.writeRaw w f line d).1 →
      (s.writeRaw w f line d).2 = true ∧ Memory.wf t.mem = true ∧ (t.readRaw v f line src).2 = .line d false ∧
      ∀ g k, k < 64 → (g, k) ≠ (f, line) →
        sget (fun _ => 0) t.mem.dram (g * 64 + k) = sget (fun _ => 0) s.mem.dram (g * 64 + k) ∧
        sget (fun _ => 0) t.mem.dramErr (g * 64 + k) = sget (fun _ => 0) s.mem.dramErr (g * 64 + k)) ∧
    (s.chReady (frameChan f) = false → s.writeRaw w f line d = (s, false) ∧ s.readRaw v f line src = (s, .halted))

/-- R366: decrypting what was encrypted under the same key and tweak gives the line, and encrypting what was decrypted gives the
ciphertext. -/
def Obligations.XtsInverts : Prop :=
  ∀ (key : BitVec 512) (tweak : Nat) (line : Line),
    xtsDec key tweak (xtsEnc key tweak line) = line ∧ xtsEnc key tweak (xtsDec key tweak line) = line

/-- R306, R308, R311 to R314, R323, R325: what the compressor makes of any segment expands to the segment and passes its check, its
own check never fails, and its type and length are as the segment's contents say. -/
def Obligations.CompressionIsLossless : Prop :=
  ∀ (v : BitVec 8192) (p : Packed) (r : DecRes), p = compress v → r = expandBody p.type p.body p.chk →
    r.code = 0 ∧ r.out = leBytes 1024 v.toNat ∧ r.outCnt = 1024 ∧ p.verify = false ∧ p.len = p.body.length ∧
      (p.type = 0 ↔ v = 0) ∧ (p.type = 1 → p.len = 8) ∧ (p.type = 2 → 1 ≤ p.len ∧ p.len ≤ 960) ∧ (p.type = 3 → p.len = 1024) ∧
      p.type < 4

/-- R8: a write changes the RW bits to what was written, clears the W1C bits written 1, and leaves every other bit of the register;
RWS bits enter the bank instead, unless the bank takes no writes; no other register changes but CFG_STS. -/
def Obligations.WritesFollowAccessTypes : Prop :=
  ∀ (s u : State) (d : RegDef) (a k : Nat) (w : Word), s.regsOk = true → k = s.regKey d a → k ≠ F.CFG_STS.key →
    u = s.storeReg d a w →
    (∀ i, i < 64 → (u.reg k).getLsbD i =
      (if d.w1c.testBit i && w.getLsbD i then false else if d.rw.testBit i then w.getLsbD i else (s.reg k).getLsbD i)) ∧
    (∀ l, l ≠ k → l ≠ F.CFG_STS.key → u.reg l = s.reg l) ∧
    (d.rws = 0 → u = { s with regs := u.regs } ∧ u.reg F.CFG_STS.key = s.reg F.CFG_STS.key) ∧
    (d.rws ≠ 0 → s.fld F.CFG_STS_STATE ∈ [0, 1, 5] → s.sys.bank.staged.length < 131072 →
      tget u.sys.bank.staged k = some (w &&& BitVec.ofNat 64 d.rws) ∧
      u.fld F.CFG_STS_STATE = if s.fld F.CFG_STS_STATE = 5 then 5 else 1)

/-- R427: recording an occurrence sets its CAUSE bit, latches it as first where V is 0 and counts it otherwise, and raises MAXSEV;
nothing changes but the block's three fault registers. A write of FLTSTS returns MAXSEV to 0 only where it leaves no cause. -/
def Obligations.OccurrencesAreRecorded : Prop :=
  ∀ (s u : State) (o : Occ) (b : Nat), s.regsOk = true → o.code < 64 → b = o.block * 0x10000 → u = (s.recordRegs o).2 →
    u.reg (b + 0xf00) = s.reg (b + 0xf00) ||| (1 : Word) <<< o.code ∧
    (s.bit (F.BLK_FLTFIRST_V b) = false → u.bit (F.BLK_FLTFIRST_V b) = true ∧ u.fld (F.BLK_FLTFIRST_SEV b) = o.sev % 8 ∧
      u.fld (F.BLK_FLTFIRST_CODE b) = o.code ∧ u.fld (F.BLK_FLTFIRST_TXID b) = o.txid % 65536 ∧
      u.fld (F.BLK_FLTFIRST_TIME b) = s.now / 1024 % 2 ^ 36 ∧ u.bit (F.BLK_FLTOVF_OVF b) = s.bit (F.BLK_FLTOVF_OVF b) ∧
      u.fld (F.BLK_FLTOVF_COUNT b) = s.fld (F.BLK_FLTOVF_COUNT b)) ∧
    (s.bit (F.BLK_FLTFIRST_V b) = true → u.reg (b + 0xf08) = s.reg (b + 0xf08) ∧ u.bit (F.BLK_FLTOVF_OVF b) = true ∧
      u.fld (F.BLK_FLTOVF_COUNT b) = min (s.fld (F.BLK_FLTOVF_COUNT b) + 1) 65535) ∧
    u.fld (F.BLK_FLTOVF_MAXSEV b) = max (s.fld (F.BLK_FLTOVF_MAXSEV b)) o.sev % 8 ∧
    (∀ k, k ∉ [b + 0xf00, b + 0xf08, b + 0xf10] → u.reg k = s.reg k) ∧ u = { s with regs := u.regs } ∧
    (s.wrFltsts o.block).fld (F.BLK_FLTOVF_MAXSEV b) =
      if s.reg (b + 0xf00) = 0 then 0 else s.fld (F.BLK_FLTOVF_MAXSEV b)

/-- R428: of the occurrences of one cycle that meets V 0, the one of the highest severity, and among those the one of the lowest
code, is latched as first; every other counts under OVF and COUNT. -/
def Obligations.FirstOfOneCycle : Prop :=
  ∀ (s u : State) (l : List Occ) (b : Nat), s.regsOk = true → 2 ≤ l.length → (∀ o ∈ l, o.block * 0x10000 = b ∧ o.code < 64) →
    b ≠ bNTQ * 0x10000 → s.bit (F.BLK_FLTFIRST_V b) = false → u = s.recordAll l →
    (∃ o ∈ l, (∀ p ∈ l, p.sev < o.sev ∨ (p.sev = o.sev ∧ o.code ≤ p.code)) ∧ u.bit (F.BLK_FLTFIRST_V b) = true ∧
      u.fld (F.BLK_FLTFIRST_SEV b) = o.sev % 8 ∧ u.fld (F.BLK_FLTFIRST_CODE b) = o.code) ∧
    u.bit (F.BLK_FLTOVF_OVF b) = true ∧
    u.fld (F.BLK_FLTOVF_COUNT b) = min (s.fld (F.BLK_FLTOVF_COUNT b) + (l.length - 1)) 65535

/-- R438: the queue holds 4,096 notices; NTQ_POP delivers, of the pending ones, the one of the highest SEV and among those of the
lowest NSEQ, latches it into NTQ_NREC and gives it the next DSEQ, modulo 2^32, from 0 at a clearing; with nothing pending it answers
V 0 and changes nothing. Entries that have failed parity leave the queue before it is read. -/
def Obligations.PopDeliversByRank : Prop :=
  (∀ (s : State) (n : Notice), (s.postNotice n).ntq.entries =
    if s.ntq.entries.length < 4096 then s.ntq.entries ++ [⟨{ n with nseq := s.ntq.nseq }, none⟩] else s.ntq.entries) ∧
  (∀ s : State, s.clearNtq.ntq.dseq = 0) ∧
  (∀ s : State, s.ntqParity.ntq.bad = [] ∧ s.ntqPop = s.ntqParity.ntqPop) ∧
  (∀ s : State, s.ntq.bad = [] → (∀ e ∈ s.ntq.entries, e.dseq.isSome = true) → s.ntqPop = (s, 0)) ∧
  ∀ s : State, s.regsOk = true → s.ntq.bad = [] → (∃ e ∈ s.ntq.entries, e.dseq = none) →
    ∃ (n : Notice) (pre post : List QEntry), s.ntq.entries = pre ++ ⟨n, none⟩ :: post ∧
      (∀ e ∈ s.ntq.entries, e.dseq = none → e.note.sev < n.sev ∨ (e.note.sev = n.sev ∧ n.nseq ≤ e.note.nseq)) ∧
      s.ntqPop.1.ntq = { s.ntq with
        entries := pre ++ ⟨n, some (s.ntq.dseq % 2 ^ 32)⟩ :: post, dseq := s.ntq.dseq + 1 } ∧
      s.ntqPop.2 = BitVec.ofNat 64 (2 ^ 32 + s.ntq.dseq % 2 ^ 32) ∧
      (∀ i, i < 4 → s.ntqPop.1.reg (F.NTQ_NREC i).key = n.word i) ∧
      (∀ k, k ∉ (upto 4).map (fun i => (F.NTQ_NREC i).key) → s.ntqPop.1.reg k = s.reg k) ∧
      s.ntqPop.1 = { s with regs := s.ntqPop.1.regs, ntq := s.ntqPop.1.ntq }

/-- R440: while the queue is full every new notice is discarded, whatever its severity: OVERRUN, LOST and NTQ cause 0x01; once space
has returned the first notice posted is that cause's, with COUNT equal to the notices discarded. -/
def Obligations.FullQueueDiscards : Prop :=
  (∀ (s u : State) (n : Notice), s.regsOk = true → 4096 ≤ s.ntq.entries.length → u = s.postNotice n →
    u.ntq = { s.ntq with overrun := s.ntq.overrun + 1 } ∧ u.bit F.NTQ_STS_OVERRUN = true ∧
    u.fld F.NTQ_LOST_LOST = (s.fld F.NTQ_LOST_LOST + 1) % 2 ^ 32 ∧ (u.reg 0x6000f00).getLsbD 1 = true) ∧
  ∀ (s : State) (w : Word), w.getLsbD 32 = true → s.ntq.delivered (wbits w 0 32) = true → 0 < s.ntq.overrun →
    s.ntq.overrun ≤ 65535 → s.ntq.entries.length = 4096 →
    (∃ e ∈ s.ntq.entries, ∃ k, e.dseq = some k ∧ dseqUpTo k (wbits w 0 32) = true) →
    ∃ kept last, (s.ntqRelease w).ntq.entries = kept ++ [⟨last, none⟩] ∧ kept.length < 4096 ∧ (∀ e ∈ kept, e ∈ s.ntq.entries) ∧
      last.block = bNTQ ∧ last.code = 1 ∧ last.count = s.ntq.overrun ∧ (s.ntqRelease w).ntq.overrun = 0

/-- R511, R513 to R517, R521: a request is turned away with no effect but its count: STATUS 9 with HINT 1,000 while the management
core is down, STATUS 9 with HINT 10 past 64 requests, STATUS 15 and GBL cause 0x02 on a parity error in the crossbar, STATUS 6 where
the access lists do not admit it, STATUS 5 where no register is; a repeated TXID of a management source is answered from the
cache. -/
def Obligations.CrossbarTurnsAway : Prop :=
  ∀ (s : State) (src : CsrSrc) (addr : BitVec 32) (w : Word) (i : Instr) (r : CsrReq),
    (i, r) ∈ [(Instr.csrRead src addr, ⟨src, false, addr, none⟩), (Instr.csrWrite src addr w, ⟨src, true, addr, some w⟩)] →
    s.reaches r = true →
    (s.uncached src = true →
      (s.sys.csr.mcDown = true → exec i s = .next (s.turnedAway r s ⟨9, 1000, 0⟩)) ∧
      (s.sys.csr.mcDown = false →
        (s.overLimit r = true → exec i s = .next (s.turnedAway r s ⟨9, 10, 0⟩)) ∧
        (s.overLimit r = false → s.sys.csr.xbarBad = true → exec i s = .next (s.turnedAway r
          ({ s with sys.csr := { s.sys.csr with xbarBad := false } }.record (occ bGBL Cause.gbl_XBAR_PARITY)) ⟨15, 0, 0⟩)) ∧
        (s.overLimit r = false → s.sys.csr.xbarBad = false →
          (s.csrAllowed r = false → exec i s = .next (s.turnedAway r (s.incFld F.GBL_CSRCNT_DENIED) ⟨6, 0, 0⟩)) ∧
          (s.csrAllowed r = true → regAt addr.toNat = none → mirrorsZero addr.toNat = false →
            exec i s = .next (s.turnedAway r s.counted ⟨5, 0, 0⟩))))) ∧
    (∀ ip port x e, src = .mgmt ip port x → s.cached ip port x = some e →
      exec i s = .next (s.answerLater (s.incFld F.GBL_CSRCNT_DUPS) ⟨ip, port, mgtBytes [e.rsp]⟩))

/-- R472: PMU_RESET acts only with CONFIRM 0x5E7A, a KIND and in ACTIVE or STANDBY; otherwise REFUSED is set with RFCODE 4, 5 or 1.
RST_N acts in ACTIVE and STANDBY, is ignored and recorded in RIDE-THROUGH, DRAIN and RETENTION, and ignored in LOCK. -/
def Obligations.ResetsActOrAreRefused : Prop :=
  ∀ (s u : State) (src : CsrSrc) (w : Word) (inp : StartIn), u = s.stored F.PMU_RESET.key w →
    (∀ kind i, (kind, i) ∈ [(1, Instr.moduleReset src w inp), (2, .warmReset src w inp)] → wbits w 0 2 = kind →
      (wbits w 16 16 ≠ 0x5E7A → s.Writes i src F.PMU_RESET.key w (u.refusePmu 4)) ∧
      (wbits w 16 16 = 0x5E7A → u.pst ≠ 1 → u.pst ≠ 5 → s.Writes i src F.PMU_RESET.key w (u.refusePmu 1)) ∧
      (wbits w 16 16 = 0x5E7A → u.pst = 1 ∨ u.pst = 5 → s.Writes i src F.PMU_RESET.key w (u.startUp kind inp))) ∧
    (∀ v, v = { u with free := u.free + 2 } →
      (wbits w 16 16 ≠ 0x5E7A → s.Writes (.csrWrite src 0x300038 w) src F.PMU_RESET.key w (v.refusePmu 4)) ∧
      (wbits w 16 16 = 0x5E7A →
        (wbits w 0 2 = 0 → s.Writes (.csrWrite src 0x300038 w) src F.PMU_RESET.key w (v.refusePmu 5)) ∧
        (wbits w 0 2 ≠ 0 → u.pst ≠ 1 → u.pst ≠ 5 →
          s.Writes (.csrWrite src 0x300038 w) src F.PMU_RESET.key w (v.refusePmu 1)) ∧
        (wbits w 0 2 = 3 → u.pst = 1 ∨ u.pst = 5 →
          s.Writes (.csrWrite src 0x300038 w) src F.PMU_RESET.key w (v.mcRestart 3)))) ∧
    (∀ width v, 10000 ≤ width → v = { s with free := s.free + 1, sys.start.rstHeld := true } →
      (s.locked = true → exec (.rstN width inp) s = .next v) ∧
      (s.sys.start.powered = true → s.pst = 1 ∨ s.pst = 5 → exec (.rstN width inp) s = .next (v.startUp 1 inp)) ∧
      (s.sys.start.powered = true → s.pst = 2 ∨ s.pst = 3 ∨ s.pst = 4 →
        exec (.rstN width inp) s = .next ((v.incFld F.PMU_CNT_RSTIGN).record (occ bPMU Cause.pmu_RST_IGNORED))))

/-- R391: entering LOCK halts the datapath and overwrites every key slot, the KEK and every store of plaintext; of the key store
and the translation region what lies on channels in service, too; the DUE bits go with the keys (R11); the ciphertext in DRAM
stays. -/
def Obligations.LockDestroysKeys : Prop :=
  ∀ s : State, s.regsOk = true → s.enterLock.locked = true ∧ s.enterLock.dataUp = false ∧ s.enterLock.mem.keys = [] ∧
    s.enterLock.mem.kek = none ∧ s.enterLock.fld F.XTS_STS_KEKV = 0 ∧
    (∀ t, t < 4096 → s.enterLock.fld (F.XTS_TSTATE_DUE t) = 0) ∧ s.enterLock.mem.merge = [] ∧ s.enterLock.mem.scache = [] ∧
    (∀ e ∈ s.enterLock.link.conns, e.2.replay = []) ∧
    (∀ e ∈ s.enterLock.mem.keyStore, s.regionUp .keyStore (80 * e.1) = false) ∧
    (∀ e ∈ s.enterLock.mem.etr, s.regionUp .translation (8 * e.1) = false) ∧
    s.enterLock.mem.dram = s.mem.dram ∧ s.enterLock.link.tx = s.link.tx

/-- R391, R445: in LOCK nothing but a power cycle changes anything that matters: after every other command the module is in LOCK
still, holds no key and no KEK, has sent nothing more from a cage and has written nothing into DRAM. -/
def Obligations.NothingLeavesLock : Prop :=
  ∀ (c : Instr) (s t : State), s.locked = true → s.sys.start.powered = true → s.mem.keys = [] → s.mem.kek = none →
    c ≠ .powerCycleOutOfLock → exec c s = .next t →
    t.locked = true ∧ t.sys.start.powered = true ∧ t.mem.keys = [] ∧ t.mem.kek = none ∧ t.link.tx = s.link.tx ∧
      t.mem.dram = s.mem.dram

/-- R482, R483: a copy of a boot record is valid when its MAGIC and its CRC over bytes 0 to 59 are good; copy 0 applies where it is
valid, otherwise copy 1, and a slot with neither counts as EMPTY; a record is written to copy 0 and then to copy 1, so that a write
torn in either leaves the old record or the new one. -/
def Obligations.BootRecordCopies : Prop :=
  ∀ (c : Slot) (b : Boot) (r : BootCopy), b.state < 4 → b.seq < 2 ^ 32 → b.gen < 2 ^ 32 →
    r.bytes.length = 60 ∧ (r.valid = true ↔ r.magic = 0x5254425A ∧ crc32c r.bytes = r.crc) ∧
    (c.copy0.valid = true → c.boot = c.copy0.boot) ∧
    (c.copy0.valid = false → c.copy1.valid = true → c.boot = c.copy1.boot) ∧
    (c.copy0.valid = false → c.copy1.valid = false → c.boot.state = 0) ∧
    b.copy.valid = true ∧ (c.putBoot b).boot = b ∧ (c.putCopy0 b).boot = b ∧
    (c.copy1.valid = true → r.valid = false → ({ c with copy0 := r } : Slot).boot = c.copy1.boot) ∧
    (r.valid = false → ({ c.putCopy0 b with copy1 := r } : Slot).boot = b)
end

