-- ==== Sys2Proof/Laws/Bytes.lean ====
section
/-! SUPPORT. Byte lists as little-endian numbers. -/

namespace Sys2Proof.Machine

@[simp] theorem length_leBytes (n v : Nat) : (leBytes n v).length = n := by
  induction n generalizing v with
  | zero => rfl
  | succ n ih => simp [leBytes, ih]

/-- The number of a value's bytes is the value, cut to them. -/
theorem leNat_leBytes (n v : Nat) : leNat (leBytes n v) = v % 2 ^ (8 * n) := by
  induction n generalizing v with
  | zero => simp [leBytes, leNat, Nat.mod_one]
  | succ n ih =>
    simp only [leBytes, leNat, ih, BitVec.toNat_ofNat]
    rw [show 8 * (n + 1) = 8 + 8 * n by ring, Nat.pow_add, Nat.mod_mul]

theorem leNat_lt (l : List Byte) : leNat l < 2 ^ (8 * l.length) := by
  induction l with
  | nil => simp [leNat]
  | cons b l ih =>
    have := b.isLt
    simp only [leNat, List.length_cons]
    rw [show 8 * (l.length + 1) = 8 + 8 * l.length by ring, Nat.pow_add]
    omega

/-- The bytes of a list's number are the list. -/
theorem leBytes_leNat (l : List Byte) : leBytes l.length (leNat l) = l := by
  induction l with
  | nil => rfl
  | cons b l ih =>
    have hb := b.isLt
    simp only [List.length_cons, leBytes, leNat]
    rw [show (b.toNat + 256 * leNat l) / 256 = leNat l by omega, ih]
    congr 1
    apply BitVec.eq_of_toNat_eq
    simp; omega

/-- Bytes that lie in the second part of a list. -/
theorem bytesAt_append_right (a b : List Byte) (i n : Nat) : bytesAt (a ++ b) (a.length + i) n = bytesAt b i n := by
  unfold bytesAt; rw [List.drop_append, List.drop_of_length_le (by omega)]; simp

/-- Bytes that lie in the first part of a list. -/
theorem bytesAt_append_left (a b : List Byte) (i n : Nat) (h : i + n ≤ a.length) : bytesAt (a ++ b) i n = bytesAt a i n := by
  unfold bytesAt
  rw [List.drop_append_of_le_length (by omega), List.take_append_of_le_length (by simp; omega)]

/-- A value's own bytes read as the value. -/
theorem bytesAt_leBytes (n v : Nat) : bytesAt (leBytes n v) 0 n = v % 2 ^ (8 * n) := by
  unfold bytesAt
  rw [List.drop_zero, List.take_of_length_le (by simp), leNat_leBytes]

end Sys2Proof.Machine
end

