-- ==== Sys2Proof/Laws/Table.lean ====
section
/-! SUPPORT. Laws of tables and stores: reading after a write, and the canonical form. -/

namespace Sys2Proof.Machine

@[simp] theorem tget_nil {α : Type} (k : Nat) : tget ([] : Table α) k = none := rfl

theorem tget_tput_self {α : Type} (t : Table α) (k : Nat) (v : α) : tget (tput t k v) k = some v := by
  induction t with
  | nil => simp [tput, tget]
  | cons e t ih =>
    obtain ⟨j, u⟩ := e
    simp only [tput]
    split
    · simp [tget]
    · split
      · simp [tget]
      · rename_i h1 h2
        simp [tget, h1, h2, ih]

theorem tget_tput_ne {α : Type} (t : Table α) {k l : Nat} (v : α) (h : l ≠ k) : tget (tput t k v) l = tget t l := by
  induction t with
  | nil =>
    simp only [tput, tget]
    split
    · omega
    · split <;> rfl
  | cons e t ih =>
    obtain ⟨j, u⟩ := e
    simp only [tput]
    split
    · subst_vars
      simp only [tget]
      split
      · omega
      · rfl
    · split
      · rename_i h1 h2
        simp only [tget]
        split
        · omega
        · split
          · split
            · omega
            · split
              · rfl
              · omega
          · rfl
      · simp only [tget, ih]

/-- Every key of the table is above `k`. -/
def tabove {α : Type} (k : Nat) (t : Table α) : Prop := ∀ e ∈ t, k < e.1

theorem tsorted_tail {α : Type} {e : Nat × α} {t : Table α} (h : tsorted (e :: t) = true) : tsorted t = true := by
  cases t with
  | nil => rfl
  | cons f t => simp [tsorted] at h; exact h.2

theorem tsorted_above {α : Type} {e : Nat × α} {t : Table α} (h : tsorted (e :: t) = true) : tabove e.1 t := by
  induction t generalizing e with
  | nil => intro x hx; cases hx
  | cons f t ih =>
    simp [tsorted] at h
    intro x hx
    cases hx with
    | head => exact h.1
    | tail _ hx => exact Nat.lt_trans h.1 (ih h.2 x hx)

theorem tsorted_cons {α : Type} {k : Nat} {v : α} {t : Table α} (h : tabove k t) (ht : tsorted t = true) :
    tsorted ((k, v) :: t) = true := by
  cases t with
  | nil => rfl
  | cons f t => simp [tsorted, ht]; exact h f (by simp)

theorem tget_below {α : Type} {k : Nat} {t : Table α} (h : tabove k t) : tget t k = none := by
  cases t with
  | nil => rfl
  | cons e t =>
    obtain ⟨j, u⟩ := e
    have hj : k < j := h (j, u) (by simp)
    simp only [tget]
    rw [if_neg (by omega), if_pos hj]

theorem tabove_tput {α : Type} {k j : Nat} {t : Table α} {v : α} (h : tabove j t) (hk : j < k) :
    tabove j (tput t k v) := by
  induction t with
  | nil => intro x hx; simp [tput] at hx; subst hx; exact hk
  | cons e t ih =>
    obtain ⟨i, u⟩ := e
    have ht : tabove j t := fun x hx => h x (by simp [hx])
    have hi : j < i := h (i, u) (by simp)
    simp only [tput]
    split
    · intro x hx
      cases hx with
      | head => exact hk
      | tail _ hx => exact ht x hx
    · split
      · intro x hx
        cases hx with
        | head => exact hk
        | tail _ hx => exact h x hx
      · intro x hx
        cases hx with
        | head => exact hi
        | tail _ hx => exact ih ht x hx

theorem tsorted_tput {α : Type} {t : Table α} (k : Nat) (v : α) (h : tsorted t = true) : tsorted (tput t k v) = true := by
  induction t with
  | nil => rfl
  | cons e t ih =>
    obtain ⟨j, u⟩ := e
    have ha := tsorted_above h
    have ht := tsorted_tail h
    simp only [tput]
    split
    · subst_vars; exact tsorted_cons ha ht
    · split
      · rename_i h1 h2
        refine tsorted_cons ?_ h
        intro x hx
        cases hx with
        | head => exact h2
        | tail _ hx => exact Nat.lt_trans h2 (ha x hx)
      · exact tsorted_cons (tabove_tput ha (by omega)) (ih ht)

theorem mem_tdel {α : Type} {t : Table α} {k : Nat} {x : Nat × α} (h : x ∈ tdel t k) : x ∈ t := by
  induction t with
  | nil => exact h
  | cons e t ih =>
    obtain ⟨j, u⟩ := e
    simp only [tdel] at h
    split at h
    · exact List.mem_cons_of_mem _ h
    · split at h
      · exact h
      · cases h with
        | head => exact List.mem_cons_self
        | tail _ h => exact List.mem_cons_of_mem _ (ih h)

theorem tsorted_tdel {α : Type} {t : Table α} (k : Nat) (h : tsorted t = true) : tsorted (tdel t k) = true := by
  induction t with
  | nil => rfl
  | cons e t ih =>
    obtain ⟨j, u⟩ := e
    have ha := tsorted_above h
    have ht := tsorted_tail h
    simp only [tdel]
    split
    · exact ht
    · split
      · exact h
      · exact tsorted_cons (fun x hx => ha x (mem_tdel hx)) (ih ht)

theorem tget_tdel_self {α : Type} {t : Table α} (k : Nat) (h : tsorted t = true) : tget (tdel t k) k = none := by
  induction t with
  | nil => rfl
  | cons e t ih =>
    obtain ⟨j, u⟩ := e
    have ha := tsorted_above h
    have ht := tsorted_tail h
    simp only [tdel]
    split
    · subst_vars; exact tget_below ha
    · split
      · rename_i h1 h2; simp [tget, h1, h2]
      · rename_i h1 h2; simp [tget, h1, h2, ih ht]

theorem tget_tdel_ne {α : Type} {t : Table α} {k l : Nat} (h : tsorted t = true) (hl : l ≠ k) :
    tget (tdel t k) l = tget t l := by
  induction t with
  | nil => rfl
  | cons e t ih =>
    obtain ⟨j, u⟩ := e
    have ha := tsorted_above h
    have ht := tsorted_tail h
    simp only [tdel]
    split
    · subst_vars
      simp only [tget]
      rw [if_neg (by omega)]
      split
      · rename_i h2
        exact tget_below (fun x hx => Nat.lt_trans h2 (ha x hx))
      · rfl
    · split
      · rfl
      · simp only [tget, ih ht]

theorem mem_tput {α : Type} {t : Table α} {k : Nat} {v : α} {x : Nat × α} (h : x ∈ tput t k v) : x = (k, v) ∨ x ∈ t := by
  induction t with
  | nil => simp [tput] at h; exact .inl h
  | cons e t ih =>
    obtain ⟨j, u⟩ := e
    simp only [tput] at h
    split at h
    · cases h with
      | head => exact .inl rfl
      | tail _ h => exact .inr (List.mem_cons_of_mem _ h)
    · split at h
      · cases h with
        | head => exact .inl rfl
        | tail _ h => exact .inr h
      · cases h with
        | head => exact .inr List.mem_cons_self
        | tail _ h => exact (ih h).imp id (List.mem_cons_of_mem _)

theorem sget_sput_self {w : Nat} {d : Nat → BitVec w} {t : Store w} (k : Nat) (v : BitVec w) (h : swf d t = true) :
    sget d (sput d t k v) k = v := by
  simp only [swf, Bool.and_eq_true] at h
  simp only [sget, sput]
  split
  · rename_i hv; rw [tget_tdel_self k h.1]; exact hv.symm
  · rw [tget_tput_self]; rfl

theorem sget_sput_ne {w : Nat} {d : Nat → BitVec w} {t : Store w} {k l : Nat} (v : BitVec w) (h : swf d t = true)
    (hl : l ≠ k) : sget d (sput d t k v) l = sget d t l := by
  simp only [swf, Bool.and_eq_true] at h
  simp only [sget, sput]
  split
  · rw [tget_tdel_ne h.1 hl]
  · rw [tget_tput_ne _ _ hl]

theorem swf_sput {w : Nat} {d : Nat → BitVec w} {t : Store w} (k : Nat) (v : BitVec w) (h : swf d t = true) :
    swf d (sput d t k v) = true := by
  simp only [swf, Bool.and_eq_true, List.all_eq_true] at h ⊢
  simp only [sput]
  split
  · exact ⟨tsorted_tdel k h.1, fun x hx => h.2 x (mem_tdel hx)⟩
  · rename_i hv
    refine ⟨tsorted_tput k v h.1, fun x hx => ?_⟩
    rcases mem_tput hx with rfl | hx
    · simpa using hv
    · exact h.2 x hx

@[simp] theorem swf_nil {w : Nat} (d : Nat → BitVec w) : swf d [] = true := rfl

end Sys2Proof.Machine
end

