-- ==== Sys2Proof/Laws/State.lean ====
section
/-! SUPPORT. What the shared register and fault operations leave alone, one lemma per field, and what they store. -/

namespace Sys2Proof.Machine

@[simp] theorem State.setReg_pending (s : State) (k : Nat) (v : Word) : (s.setReg k v).pending = s.pending := rfl
@[simp] theorem State.setReg_now (s : State) (k : Nat) (v : Word) : (s.setReg k v).now = s.now := rfl
@[simp] theorem State.setReg_free (s : State) (k : Nat) (v : Word) : (s.setReg k v).free = s.free := rfl
@[simp] theorem State.setReg_ntq (s : State) (k : Nat) (v : Word) : (s.setReg k v).ntq = s.ntq := rfl
@[simp] theorem State.setReg_samples (s : State) (k : Nat) (v : Word) : (s.setReg k v).samples = s.samples := rfl
@[simp] theorem State.setReg_link (s : State) (k : Nat) (v : Word) : (s.setReg k v).link = s.link := rfl
@[simp] theorem State.setReg_mem (s : State) (k : Nat) (v : Word) : (s.setReg k v).mem = s.mem := rfl
@[simp] theorem State.setReg_home (s : State) (k : Nat) (v : Word) : (s.setReg k v).home = s.home := rfl
@[simp] theorem State.setReg_meter (s : State) (k : Nat) (v : Word) : (s.setReg k v).meter = s.meter := rfl
@[simp] theorem State.setReg_sys (s : State) (k : Nat) (v : Word) : (s.setReg k v).sys = s.sys := rfl
@[simp] theorem State.setReg_locked (s : State) (k : Nat) (v : Word) : (s.setReg k v).locked = s.locked := rfl

@[simp] theorem State.setFld_pending (s : State) (f : Fld) (v : Nat) : (s.setFld f v).pending = s.pending := rfl
@[simp] theorem State.setFld_now (s : State) (f : Fld) (v : Nat) : (s.setFld f v).now = s.now := rfl
@[simp] theorem State.setFld_free (s : State) (f : Fld) (v : Nat) : (s.setFld f v).free = s.free := rfl
@[simp] theorem State.setFld_ntq (s : State) (f : Fld) (v : Nat) : (s.setFld f v).ntq = s.ntq := rfl
@[simp] theorem State.setFld_samples (s : State) (f : Fld) (v : Nat) : (s.setFld f v).samples = s.samples := rfl
@[simp] theorem State.setFld_link (s : State) (f : Fld) (v : Nat) : (s.setFld f v).link = s.link := rfl
@[simp] theorem State.setFld_mem (s : State) (f : Fld) (v : Nat) : (s.setFld f v).mem = s.mem := rfl
@[simp] theorem State.setFld_home (s : State) (f : Fld) (v : Nat) : (s.setFld f v).home = s.home := rfl
@[simp] theorem State.setFld_meter (s : State) (f : Fld) (v : Nat) : (s.setFld f v).meter = s.meter := rfl
@[simp] theorem State.setFld_sys (s : State) (f : Fld) (v : Nat) : (s.setFld f v).sys = s.sys := rfl
@[simp] theorem State.setFld_locked (s : State) (f : Fld) (v : Nat) : (s.setFld f v).locked = s.locked := rfl

@[simp] theorem State.addFld_pending (s : State) (f : Fld) (n : Nat) : (s.addFld f n).pending = s.pending := rfl
@[simp] theorem State.addFld_now (s : State) (f : Fld) (n : Nat) : (s.addFld f n).now = s.now := rfl
@[simp] theorem State.addFld_free (s : State) (f : Fld) (n : Nat) : (s.addFld f n).free = s.free := rfl
@[simp] theorem State.addFld_ntq (s : State) (f : Fld) (n : Nat) : (s.addFld f n).ntq = s.ntq := rfl
@[simp] theorem State.addFld_samples (s : State) (f : Fld) (n : Nat) : (s.addFld f n).samples = s.samples := rfl
@[simp] theorem State.addFld_link (s : State) (f : Fld) (n : Nat) : (s.addFld f n).link = s.link := rfl
@[simp] theorem State.addFld_mem (s : State) (f : Fld) (n : Nat) : (s.addFld f n).mem = s.mem := rfl
@[simp] theorem State.addFld_home (s : State) (f : Fld) (n : Nat) : (s.addFld f n).home = s.home := rfl
@[simp] theorem State.addFld_meter (s : State) (f : Fld) (n : Nat) : (s.addFld f n).meter = s.meter := rfl
@[simp] theorem State.addFld_sys (s : State) (f : Fld) (n : Nat) : (s.addFld f n).sys = s.sys := rfl
@[simp] theorem State.addFld_locked (s : State) (f : Fld) (n : Nat) : (s.addFld f n).locked = s.locked := rfl

@[simp] theorem State.incFld_pending (s : State) (f : Fld) : (s.incFld f).pending = s.pending := rfl
@[simp] theorem State.incFld_now (s : State) (f : Fld) : (s.incFld f).now = s.now := rfl
@[simp] theorem State.incFld_free (s : State) (f : Fld) : (s.incFld f).free = s.free := rfl
@[simp] theorem State.incFld_ntq (s : State) (f : Fld) : (s.incFld f).ntq = s.ntq := rfl
@[simp] theorem State.incFld_samples (s : State) (f : Fld) : (s.incFld f).samples = s.samples := rfl
@[simp] theorem State.incFld_link (s : State) (f : Fld) : (s.incFld f).link = s.link := rfl
@[simp] theorem State.incFld_mem (s : State) (f : Fld) : (s.incFld f).mem = s.mem := rfl
@[simp] theorem State.incFld_home (s : State) (f : Fld) : (s.incFld f).home = s.home := rfl
@[simp] theorem State.incFld_meter (s : State) (f : Fld) : (s.incFld f).meter = s.meter := rfl
@[simp] theorem State.incFld_sys (s : State) (f : Fld) : (s.incFld f).sys = s.sys := rfl
@[simp] theorem State.incFld_locked (s : State) (f : Fld) : (s.incFld f).locked = s.locked := rfl

@[simp] theorem State.satFld_pending (s : State) (f : Fld) (n : Nat) : (s.satFld f n).pending = s.pending := rfl
@[simp] theorem State.satFld_now (s : State) (f : Fld) (n : Nat) : (s.satFld f n).now = s.now := rfl
@[simp] theorem State.satFld_free (s : State) (f : Fld) (n : Nat) : (s.satFld f n).free = s.free := rfl
@[simp] theorem State.satFld_ntq (s : State) (f : Fld) (n : Nat) : (s.satFld f n).ntq = s.ntq := rfl
@[simp] theorem State.satFld_samples (s : State) (f : Fld) (n : Nat) : (s.satFld f n).samples = s.samples := rfl
@[simp] theorem State.satFld_link (s : State) (f : Fld) (n : Nat) : (s.satFld f n).link = s.link := rfl
@[simp] theorem State.satFld_mem (s : State) (f : Fld) (n : Nat) : (s.satFld f n).mem = s.mem := rfl
@[simp] theorem State.satFld_home (s : State) (f : Fld) (n : Nat) : (s.satFld f n).home = s.home := rfl
@[simp] theorem State.satFld_meter (s : State) (f : Fld) (n : Nat) : (s.satFld f n).meter = s.meter := rfl
@[simp] theorem State.satFld_sys (s : State) (f : Fld) (n : Nat) : (s.satFld f n).sys = s.sys := rfl
@[simp] theorem State.satFld_locked (s : State) (f : Fld) (n : Nat) : (s.satFld f n).locked = s.locked := rfl

@[simp] theorem State.counted_pending (s : State) : s.counted.pending = s.pending := rfl
@[simp] theorem State.counted_now (s : State) : s.counted.now = s.now := rfl
@[simp] theorem State.counted_free (s : State) : s.counted.free = s.free := rfl
@[simp] theorem State.counted_ntq (s : State) : s.counted.ntq = s.ntq := rfl
@[simp] theorem State.counted_samples (s : State) : s.counted.samples = s.samples := rfl
@[simp] theorem State.counted_link (s : State) : s.counted.link = s.link := rfl
@[simp] theorem State.counted_mem (s : State) : s.counted.mem = s.mem := rfl
@[simp] theorem State.counted_home (s : State) : s.counted.home = s.home := rfl
@[simp] theorem State.counted_meter (s : State) : s.counted.meter = s.meter := rfl
@[simp] theorem State.counted_sys (s : State) : s.counted.sys = s.sys := rfl
@[simp] theorem State.counted_locked (s : State) : s.counted.locked = s.locked := rfl

theorem State.reg_setReg_self {s : State} (h : s.regsOk = true) (k : Nat) (v : Word) : (s.setReg k v).reg k = v :=
  sget_sput_self k v h

theorem State.reg_setReg_ne {s : State} (h : s.regsOk = true) {k l : Nat} (v : Word) (hl : l ≠ k) :
    (s.setReg k v).reg l = s.reg l := sget_sput_ne v h hl

theorem State.regsOk_setReg {s : State} (h : s.regsOk = true) (k : Nat) (v : Word) : (s.setReg k v).regsOk = true :=
  swf_sput k v h

theorem State.regsOk_setFld {s : State} (h : s.regsOk = true) (f : Fld) (v : Nat) : (s.setFld f v).regsOk = true :=
  swf_sput _ _ h

theorem State.regsOk_reset : State.reset.regsOk = true := rfl

theorem State.only_setReg {s t : State} {k : Nat} {v : Word} (h : ∃ r, t = { s with regs := r }) :
    ∃ r, t.setReg k v = { s with regs := r } := by
  obtain ⟨r, rfl⟩ := h; exact ⟨_, rfl⟩

theorem State.only_setFld {s t : State} {f : Fld} {v : Nat} (h : ∃ r, t = { s with regs := r }) :
    ∃ r, t.setFld f v = { s with regs := r } := by
  obtain ⟨r, rfl⟩ := h; exact ⟨_, rfl⟩

/-- Recording in the fault registers changes only registers (R427). -/
theorem State.recordRegs_frame (s : State) (o : Occ) : ∃ r, (s.recordRegs o).2 = { s with regs := r } := by
  unfold State.recordRegs
  dsimp only
  have h := State.only_setReg (s := s) (t := s) (k := o.block * 0x10000 + 0xf00)
    (v := s.reg (o.block * 0x10000 + 0xf00) ||| (1 : Word) <<< o.code) ⟨s.regs, rfl⟩
  split
  · iterate 6 apply State.only_setFld
    exact h
  · apply State.only_setFld
    apply State.only_setFld
    apply State.only_setFld
    exact h

@[simp] theorem State.recordRegs_pending (s : State) (o : Occ) : (s.recordRegs o).2.pending = s.pending := by
  obtain ⟨r, h⟩ := s.recordRegs_frame o; rw [h]
@[simp] theorem State.recordRegs_now (s : State) (o : Occ) : (s.recordRegs o).2.now = s.now := by
  obtain ⟨r, h⟩ := s.recordRegs_frame o; rw [h]
@[simp] theorem State.recordRegs_free (s : State) (o : Occ) : (s.recordRegs o).2.free = s.free := by
  obtain ⟨r, h⟩ := s.recordRegs_frame o; rw [h]
@[simp] theorem State.recordRegs_samples (s : State) (o : Occ) : (s.recordRegs o).2.samples = s.samples := by
  obtain ⟨r, h⟩ := s.recordRegs_frame o; rw [h]
@[simp] theorem State.recordRegs_link (s : State) (o : Occ) : (s.recordRegs o).2.link = s.link := by
  obtain ⟨r, h⟩ := s.recordRegs_frame o; rw [h]
@[simp] theorem State.recordRegs_mem (s : State) (o : Occ) : (s.recordRegs o).2.mem = s.mem := by
  obtain ⟨r, h⟩ := s.recordRegs_frame o; rw [h]
@[simp] theorem State.recordRegs_home (s : State) (o : Occ) : (s.recordRegs o).2.home = s.home := by
  obtain ⟨r, h⟩ := s.recordRegs_frame o; rw [h]
@[simp] theorem State.recordRegs_meter (s : State) (o : Occ) : (s.recordRegs o).2.meter = s.meter := by
  obtain ⟨r, h⟩ := s.recordRegs_frame o; rw [h]
@[simp] theorem State.recordRegs_sys (s : State) (o : Occ) : (s.recordRegs o).2.sys = s.sys := by
  obtain ⟨r, h⟩ := s.recordRegs_frame o; rw [h]
@[simp] theorem State.recordRegs_locked (s : State) (o : Occ) : (s.recordRegs o).2.locked = s.locked := by
  obtain ⟨r, h⟩ := s.recordRegs_frame o; rw [h]
@[simp] theorem State.recordRegs_ntq (s : State) (o : Occ) : (s.recordRegs o).2.ntq = s.ntq := by
  obtain ⟨r, h⟩ := s.recordRegs_frame o; rw [h]

/-- Posting or discarding a notice changes only registers and the queue (R440). -/
theorem State.postNotice_frame (s : State) (n : Notice) : ∃ r q, s.postNotice n = { s with regs := r, ntq := q } := by
  unfold State.postNotice
  split
  · exact ⟨_, _, rfl⟩
  · unfold State.discardNotice
    dsimp only
    obtain ⟨r, h⟩ := ((s.setFld F.NTQ_STS_OVERRUN 1).incFld F.NTQ_LOST_LOST).recordRegs_frame (occ bNTQ Cause.ntq_OVERRUN)
    rw [h]
    exact ⟨_, _, rfl⟩

/-- The end of a holdoff changes only registers and the queue (R436). -/
theorem State.endHoldoff_frame (s : State) (k : Nat) : ∃ r q, s.endHoldoff k = { s with regs := r, ntq := q } := by
  unfold State.endHoldoff
  split
  · exact ⟨_, _, rfl⟩
  · split
    · exact ⟨_, _, rfl⟩
    · dsimp only
      split
      · exact ⟨_, _, rfl⟩
      · obtain ⟨r, q, h⟩ := State.postNotice_frame { s with ntq.holdoffs := tdel s.ntq.holdoffs k } _
        exact ⟨r, q, h⟩

/-- Posting the notice of an occurrence changes only registers and the queue (R436, R440). -/
theorem State.postOcc_frame (s : State) (n : Notice) : ∃ r q, s.postOcc n = { s with regs := r, ntq := q } := by
  obtain ⟨r, q, h⟩ := s.endHoldoff_frame (pairKey n.block n.code)
  obtain ⟨r', q', h'⟩ := State.postNotice_frame { s with regs := r, ntq := q } n
  unfold State.postOcc
  rw [h]
  dsimp only
  split
  · split
    · exact ⟨_, _, rfl⟩
    · exact ⟨r', q', h'⟩
  · exact ⟨r', q', h'⟩

/-- All that recording an occurrence changes: registers and the notice queue (R427, R436). -/
theorem State.record_frame (s : State) (o : Occ) : ∃ r q, s.record o = { s with regs := r, ntq := q } := by
  unfold State.record
  obtain ⟨r, h⟩ := s.recordRegs_frame o
  obtain ⟨r', q, h'⟩ := (s.recordRegs o).2.postOcc_frame (o.notice s.now (s.recordRegs o).1)
  refine ⟨r', q, ?_⟩
  dsimp only
  rw [h', h]

@[simp] theorem State.record_pending (s : State) (o : Occ) : (s.record o).pending = s.pending := by
  obtain ⟨r, q, h⟩ := s.record_frame o; rw [h]
@[simp] theorem State.record_now (s : State) (o : Occ) : (s.record o).now = s.now := by
  obtain ⟨r, q, h⟩ := s.record_frame o; rw [h]
@[simp] theorem State.record_free (s : State) (o : Occ) : (s.record o).free = s.free := by
  obtain ⟨r, q, h⟩ := s.record_frame o; rw [h]
@[simp] theorem State.record_samples (s : State) (o : Occ) : (s.record o).samples = s.samples := by
  obtain ⟨r, q, h⟩ := s.record_frame o; rw [h]
@[simp] theorem State.record_link (s : State) (o : Occ) : (s.record o).link = s.link := by
  obtain ⟨r, q, h⟩ := s.record_frame o; rw [h]
@[simp] theorem State.record_mem (s : State) (o : Occ) : (s.record o).mem = s.mem := by
  obtain ⟨r, q, h⟩ := s.record_frame o; rw [h]
@[simp] theorem State.record_home (s : State) (o : Occ) : (s.record o).home = s.home := by
  obtain ⟨r, q, h⟩ := s.record_frame o; rw [h]
@[simp] theorem State.record_meter (s : State) (o : Occ) : (s.record o).meter = s.meter := by
  obtain ⟨r, q, h⟩ := s.record_frame o; rw [h]
@[simp] theorem State.record_sys (s : State) (o : Occ) : (s.record o).sys = s.sys := by
  obtain ⟨r, q, h⟩ := s.record_frame o; rw [h]
@[simp] theorem State.record_locked (s : State) (o : Occ) : (s.record o).locked = s.locked := by
  obtain ⟨r, q, h⟩ := s.record_frame o; rw [h]

end Sys2Proof.Machine
end

