-- ==== Sys2Proof/Laws/Csr.lean ====
section
/-! SUPPORT. What the crossbar does with a request that it admits. -/

namespace Sys2Proof.Machine

theorem toNat_ofNat32 {k : Nat} (h : k < 2 ^ 32) : (BitVec.ofNat 32 k).toNat = k := by
  simp [BitVec.toNat_ofNat]; omega

theorem pair_ite_fst {α β : Type} {p : Prop} [Decidable p] (a b : α) (c : β) :
    (if p then (a, c) else (b, c)).1 = if p then a else b := by split <;> rfl

theorem pair_ite_snd {α β : Type} {p : Prop} [Decidable p] (a b : α) (c : β) :
    (if p then (a, c) else (b, c)).2 = c := by split <;> rfl

/-- A request that is admitted acts on the state that has counted it, and is answered (R511 to R518). -/
theorem State.csrDo_admits {s : State} {r : CsrReq} (eff : State → State × CsrAns) (h : s.admits r = true) :
    s.csrDo r eff = s.answered r (eff s.counted).1 (eff s.counted).2 := by
  unfold State.admits at h
  simp only [Bool.and_eq_true, Bool.not_eq_true'] at h
  obtain ⟨⟨⟨⟨⟨⟨⟨⟨h1, h2⟩, h3⟩, h4⟩, h5⟩, h6⟩, h7⟩, h8⟩, h9⟩ := h
  have hx : s.crossbar r eff =
      (if s.counted.dataUp && (eff s.counted).1.dataUp then s.counted.after (eff s.counted).1 else (eff s.counted).1,
        (eff s.counted).2) := by
    unfold State.crossbar
    dsimp only
    rw [h3, h4, h5, h6, show s.incFld F.GBL_CSRCNT_SERVED = s.counted from rfl, h7, h8]
    cases hd : regAt r.addr.toNat with
    | none => rw [hd] at h9; cases h9
    | some d =>
      rw [hd] at h9
      have h10 : ¬ (s.counted.locked = true ∧ r.write = true ∧ (!lockWritable d) = true) := by
        rw [show s.counted.locked = s.locked from rfl]
        intro ⟨a, b, c⟩
        simp [a, b] at h9
        simp [h9] at c
      dsimp only
      rw [if_neg h10]
      simp only [Bool.not_true, Bool.false_eq_true, if_false, or_self]
  unfold State.csrDo State.answered
  rw [h1]
  cases hs : r.src with
  | inband c x => dsimp only; rw [hx]; rfl
  | mgmt ip port x =>
    have h2' : s.cached ip port x = none := by simpa [State.uncached, hs] using h2
    dsimp only
    unfold State.mgmtOne
    rw [h2']
    dsimp only
    rw [hx]
    dsimp only
    rw [pair_ite_fst, pair_ite_snd]
    rfl

/-- An admitted request names a register. -/
theorem State.admits_reg {s : State} {r : CsrReq} (h : s.admits r = true) : (regAt r.addr.toNat).isSome := by
  unfold State.admits at h
  cases hd : regAt r.addr.toNat with
  | none => simp [hd] at h
  | some d => rfl

/-- A write that is admitted stores what its register takes, and acts. -/
theorem State.csrPut_admits {s : State} {src : CsrSrc} {k : Nat} {w : Word} (act : State → State)
    (h : s.admitsWrite src k w = true) :
    s.csrPut src k w act = s.answered (writeReq src k w) (act (s.stored k w)) wrote := by
  simp only [State.admitsWrite, Bool.and_eq_true, decide_eq_true_eq] at h
  have hd := State.admits_reg h.2
  rw [show (writeReq src k w).addr = BitVec.ofNat 32 k from rfl, toNat_ofNat32 h.1] at hd
  unfold State.csrPut
  rw [State.csrDo_admits _ h.2]
  obtain ⟨d, hd⟩ := Option.isSome_iff_exists.mp hd
  unfold State.stored
  rw [hd]
  rfl

/-- A write that triggers its command. -/
theorem State.csrTrig_admits {s : State} {src : CsrSrc} {k : Nat} {w : Word} {trig : Bool} (act : State → State)
    (h : s.admitsWrite src k w = true) (ht : trig = true) :
    s.csrTrig src k w trig act = s.answered (writeReq src k w) (act (s.stored k w)) wrote := by
  unfold State.csrTrig
  rw [if_pos ht, State.csrPut_admits act h]

/-- A read that is admitted. -/
theorem State.csrGet_admits {s : State} {src : CsrSrc} {k : Nat} (f : State → State × Word)
    (h : s.admitsRead src k = true) :
    s.csrGet src k f = s.answered (readReq src k) (f s.counted).1 ⟨0, 0, (f s.counted).2⟩ := by
  simp only [State.admitsRead, Bool.and_eq_true] at h
  unfold State.csrGet
  rw [State.csrDo_admits _ h.2]

/-- Staging changes registers and the basting bank only (R489). -/
theorem State.stage_frame (s : State) (k : Nat) (v : Word) : ∃ r y, s.stage k v = { s with regs := r, sys := y } := by
  unfold State.stage
  dsimp only
  split
  · exact ⟨_, _, rfl⟩
  · split <;> exact ⟨_, _, rfl⟩

/-- What a write stores: registers, and the bank where the register has a staged field (R8, R489). -/
theorem State.storeReg_frame (s : State) (d : RegDef) (a : Nat) (w : Word) :
    ∃ r y, s.storeReg d a w = { s with regs := r, sys := y } := by
  unfold State.storeReg
  dsimp only
  split
  · exact ⟨_, _, rfl⟩
  · obtain ⟨r, y, h⟩ := (s.setReg (s.regKey d a) (((s.reg (s.regKey d a) &&& ~~~BitVec.ofNat 64 d.rw)
      ||| (w &&& BitVec.ofNat 64 d.rw)) &&& ~~~(w &&& BitVec.ofNat 64 d.w1c))).stage_frame (s.regKey d a)
        (w &&& BitVec.ofNat 64 d.rws)
    exact ⟨r, y, h⟩

/-- What an admitted write has changed before its action. -/
theorem State.stored_frame (s : State) (k : Nat) (w : Word) : ∃ r y, s.stored k w = { s with regs := r, sys := y } := by
  unfold State.stored
  split
  · obtain ⟨r, y, h⟩ := s.counted.storeReg_frame _ k w
    exact ⟨r, y, h⟩
  · exact ⟨_, _, rfl⟩

@[simp] theorem State.stored_pending (s : State) (k : Nat) (w : Word) : (s.stored k w).pending = s.pending := by
  obtain ⟨r, y, h⟩ := s.stored_frame k w; rw [h]
@[simp] theorem State.stored_now (s : State) (k : Nat) (w : Word) : (s.stored k w).now = s.now := by
  obtain ⟨r, y, h⟩ := s.stored_frame k w; rw [h]
@[simp] theorem State.stored_free (s : State) (k : Nat) (w : Word) : (s.stored k w).free = s.free := by
  obtain ⟨r, y, h⟩ := s.stored_frame k w; rw [h]
@[simp] theorem State.stored_ntq (s : State) (k : Nat) (w : Word) : (s.stored k w).ntq = s.ntq := by
  obtain ⟨r, y, h⟩ := s.stored_frame k w; rw [h]
@[simp] theorem State.stored_samples (s : State) (k : Nat) (w : Word) : (s.stored k w).samples = s.samples := by
  obtain ⟨r, y, h⟩ := s.stored_frame k w; rw [h]
@[simp] theorem State.stored_link (s : State) (k : Nat) (w : Word) : (s.stored k w).link = s.link := by
  obtain ⟨r, y, h⟩ := s.stored_frame k w; rw [h]
@[simp] theorem State.stored_mem (s : State) (k : Nat) (w : Word) : (s.stored k w).mem = s.mem := by
  obtain ⟨r, y, h⟩ := s.stored_frame k w; rw [h]
@[simp] theorem State.stored_home (s : State) (k : Nat) (w : Word) : (s.stored k w).home = s.home := by
  obtain ⟨r, y, h⟩ := s.stored_frame k w; rw [h]
@[simp] theorem State.stored_meter (s : State) (k : Nat) (w : Word) : (s.stored k w).meter = s.meter := by
  obtain ⟨r, y, h⟩ := s.stored_frame k w; rw [h]
@[simp] theorem State.stored_locked (s : State) (k : Nat) (w : Word) : (s.stored k w).locked = s.locked := by
  obtain ⟨r, y, h⟩ := s.stored_frame k w; rw [h]

end Sys2Proof.Machine
end

