-- ==== Sys2Proof/Laws/Field.lean ====
section
/-! SUPPORT. What register fields read after they are stored. -/

namespace Sys2Proof.Machine

/-- A field as a bit slice of its register. -/
theorem Fld.of_eq (f : Fld) (r : Word) (h : f.lo + f.w ≤ 64) : f.of r = (r.extractLsb' f.lo f.w).toNat := by
  unfold Fld.of ones64
  have h2 : 2 ^ f.w ≤ 2 ^ 64 := Nat.pow_le_pow_right (by omega) (by omega)
  have h0 : 0 < 2 ^ f.w := Nat.two_pow_pos _
  simp only [BitVec.toNat_and, BitVec.toNat_ofNat, BitVec.toNat_ushiftRight, BitVec.extractLsb'_toNat]
  rw [Nat.mod_eq_of_lt (by omega), Nat.and_two_pow_sub_one_eq_mod]

theorem ones64_getLsbD (w i : Nat) (hw : w ≤ 64) : (ones64 w).getLsbD i = decide (i < w) := by
  unfold ones64
  rw [BitVec.getLsbD_ofNat, Nat.testBit_two_pow_sub_one]
  by_cases h : i < w <;> simp [h]
  omega

/-- A stored field reads as what was stored, cut to its width. -/
theorem Fld.of_into_self (f : Fld) (r : Word) (v : Nat) (h : f.lo + f.w ≤ 64) : f.of (f.into r v) = v % 2 ^ f.w := by
  rw [f.of_eq _ h, ← BitVec.toNat_ofNat]
  congr 1
  apply BitVec.eq_of_getLsbD_eq
  intro i hi
  unfold Fld.into
  simp only [BitVec.getLsbD_extractLsb', BitVec.getLsbD_or, BitVec.getLsbD_and, BitVec.getLsbD_not, BitVec.getLsbD_shiftLeft,
    ones64_getLsbD _ _ (show f.w ≤ 64 by omega), BitVec.getLsbD_ofNat]
  simp [hi, show i < 64 by omega, show f.lo + i < 64 by omega]

/-- Storing a field leaves the bits outside it. -/
theorem Fld.into_getLsbD (f : Fld) (r : Word) (v i : Nat) (h : f.lo + f.w ≤ 64) (hi : i < 64) : (f.into r v).getLsbD i =
    if f.lo ≤ i ∧ i < f.lo + f.w then v.testBit (i - f.lo) else r.getLsbD i := by
  unfold Fld.into
  simp only [BitVec.getLsbD_or, BitVec.getLsbD_and, BitVec.getLsbD_not, BitVec.getLsbD_shiftLeft,
    ones64_getLsbD _ _ (show f.w ≤ 64 by omega), BitVec.getLsbD_ofNat]
  by_cases h1 : f.lo ≤ i
  · by_cases h2 : i < f.lo + f.w
    · simp [h1, h2, hi, show i - f.lo < 64 by omega, show i - f.lo < f.w by omega, show ¬ i < f.lo by omega]
    · simp [h1, h2, hi, show ¬ i - f.lo < f.w by omega]
  · simp [h1, hi, show i < f.lo by omega]

/-- A stored field leaves the fields beside it. -/
theorem Fld.of_into_ne (f g : Fld) (r : Word) (v : Nat) (hf : f.lo + f.w ≤ 64) (hg : g.lo + g.w ≤ 64)
    (h : f.lo + f.w ≤ g.lo ∨ g.lo + g.w ≤ f.lo) : g.of (f.into r v) = g.of r := by
  rw [g.of_eq _ hg, g.of_eq _ hg]
  congr 1
  apply BitVec.eq_of_getLsbD_eq
  intro i hi
  rw [BitVec.getLsbD_extractLsb', BitVec.getLsbD_extractLsb', f.into_getLsbD _ _ _ hf (by omega), if_neg (by omega)]

theorem Fld.of_lt (f : Fld) (r : Word) (h : f.lo + f.w ≤ 64) : f.of r < 2 ^ f.w := by
  rw [f.of_eq _ h]; exact BitVec.isLt _

theorem State.fld_setFld_self {s : State} (hs : s.regsOk = true) (f : Fld) (v : Nat) (h : f.lo + f.w ≤ 64 := by decide) :
    (s.setFld f v).fld f = v % 2 ^ f.w := by
  unfold State.fld State.setFld
  rw [State.reg_setReg_self hs, f.of_into_self _ _ h]

/-- A stored field leaves the other fields of its register. -/
theorem State.fld_setFld_beside {s : State} (hs : s.regsOk = true) (f g : Fld) (v : Nat) (hk : g.key = f.key)
    (h : f.lo + f.w ≤ g.lo ∨ g.lo + g.w ≤ f.lo) (hf : f.lo + f.w ≤ 64) (hg : g.lo + g.w ≤ 64) :
    (s.setFld f v).fld g = s.fld g := by
  unfold State.fld State.setFld
  rw [hk, State.reg_setReg_self hs, Fld.of_into_ne _ _ _ _ hf hg h]

/-- A stored field leaves the other registers. -/
theorem State.fld_setFld_away {s : State} (hs : s.regsOk = true) (f g : Fld) (v : Nat) (hk : g.key ≠ f.key) :
    (s.setFld f v).fld g = s.fld g := by
  unfold State.fld State.setFld
  rw [State.reg_setReg_ne hs _ hk]

theorem State.reg_setFld_away {s : State} (hs : s.regsOk = true) (f : Fld) (v k : Nat) (hk : k ≠ f.key) :
    (s.setFld f v).reg k = s.reg k := State.reg_setReg_ne hs _ hk

theorem State.fld_setReg_away {s : State} (hs : s.regsOk = true) (g : Fld) (v : Word) (k : Nat) (hk : g.key ≠ k) :
    (s.setReg k v).fld g = s.fld g := by
  unfold State.fld; rw [State.reg_setReg_ne hs _ hk]

end Sys2Proof.Machine
end

