-- ==== Sys2Proof/Laws/Lock.lean ====
section
/-! SUPPORT. What LOCK keeps: the lock, the frames sent, DRAM, the keys, the KEK and the power, as one tuple, the `vault`; which shared
operations leave it, and which do nothing at all in LOCK (R391, R445). -/

namespace Sys2Proof.Machine

/-- What LOCK must keep. -/
def State.vault (s : State) : Bool × List OutFrame × Store 512 × Table KeySlot × Option (BitVec 256) × Bool :=
  (s.locked, s.link.tx, s.mem.dram, s.mem.keys, s.mem.kek, s.sys.start.powered)
theorem State.vault_locked {s t : State} (h : t.vault = s.vault) : t.locked = s.locked := congrArg (·.1) h
theorem State.vault_keys {s t : State} (h : t.vault = s.vault) : t.mem.keys = s.mem.keys := congrArg (·.2.2.2.1) h
@[simp] theorem State.setReg_vault (s : State) (k v) : (s.setReg k v).vault = s.vault := rfl
@[simp] theorem State.setFld_vault (s : State) (k v) : (s.setFld k v).vault = s.vault := rfl
@[simp] theorem State.addFld_vault (s : State) (k v) : (s.addFld k v).vault = s.vault := rfl
@[simp] theorem State.satFld_vault (s : State) (k v) : (s.satFld k v).vault = s.vault := rfl
@[simp] theorem State.incFld_vault (s : State) (k) : (s.incFld k).vault = s.vault := rfl
@[simp] theorem State.ite_vault (p : Prop) [Decidable p] (a b : State) : (if p then a else b).vault = if p then a.vault else b.vault := apply_ite _ _ _ _
theorem State.foldl_vault {α : Type} (l : List α) (f : State → α → State) (h : ∀ u a, (f u a).vault = u.vault) (s : State) : (l.foldl f s).vault = s.vault := by
  induction l generalizing s with
  | nil => rfl
  | cons a l ih => rw [List.foldl_cons, ih, h]
@[simp] theorem State.record_vault (s : State) (o) : (s.record o).vault = s.vault := by
  obtain ⟨r, q, e⟩ := s.record_frame o; rw [e]; rfl
@[simp] theorem State.postOcc_vault (s : State) (n) : (s.postOcc n).vault = s.vault := by
  obtain ⟨r, q, e⟩ := s.postOcc_frame n; rw [e]; rfl
@[simp] theorem State.recordRegs_vault (s : State) (n) : (s.recordRegs n).2.vault = s.vault := by
  obtain ⟨r, e⟩ := s.recordRegs_frame n; rw [e]; rfl
@[simp] theorem State.postNotice_vault (s : State) (n) : (s.postNotice n).vault = s.vault := by
  unfold State.postNotice; split
  · rfl
  · exact (State.recordRegs_vault ((s.setFld F.NTQ_STS_OVERRUN 1).incFld F.NTQ_LOST_LOST) _)
@[simp] theorem State.postOverrun_vault (s : State) : s.postOverrun.vault = s.vault := by
  unfold State.postOverrun; split <;> rfl
@[simp] theorem State.recordDom_vault (s : State) (a b o) : (s.recordDom a b o).vault = s.vault := by
  exact State.record_vault _ _
@[simp] theorem State.recordPort_vault (s : State) (p bl c) : (s.recordPort p bl c).vault = s.vault :=
  State.foldl_vault _ _ (fun _ _ => State.recordDom_vault _ _ _ _) _
@[simp] theorem State.resetBlock_vault (s : State) (b) : (s.resetBlock b).vault = s.vault := by
  unfold State.resetBlock; simp
@[simp] theorem State.setPort_vault (s : State) (p v) : (s.setPort p v).vault = s.vault := rfl
@[simp] theorem State.portReset_vault (s : State) (p) : (s.portReset p).vault = s.vault := by
  unfold State.portReset; rw [State.foldl_vault _ _ (fun u a => by simp)]; rfl
@[simp] theorem State.loseLink_vault (s : State) (p) : (s.loseLink p).vault = s.vault := by
  unfold State.loseLink; simp
@[simp] theorem State.linkWith_vault (s : State) (p) : (s.linkWith p).vault = s.vault := by
  unfold State.linkWith; split
  · rw [State.foldl_vault _ _ (fun u a => by simp)]; rfl
  · rfl
@[simp] theorem State.fecDegrade_vault (s : State) (p n) : (s.fecDegrade p n).vault = s.vault := by
  unfold State.fecDegrade; dsimp only; rw [State.ite_vault]
  have := State.foldl_vault (portBlocks s.portMode p) (fun s b => s.addFld (F.ETH_FEC_CNT_UNCORR b) n) (fun _ _ => rfl) s
  split <;> simp [this]
@[simp] theorem State.setCage_vault (s : State) (p v) : (s.setCage p v).vault = s.vault := rfl
@[simp] theorem State.setCageSt_vault (s : State) (p v) : (s.setCageSt p v).vault = s.vault := rfl
@[simp] theorem State.cageOff_vault (s : State) (n) : (s.cageOff n).vault = s.vault := by
  unfold State.cageOff; dsimp only; rw [State.foldl_vault _ _ (fun u a => by simp)]; rfl
@[simp] theorem State.cageDrop_vault (s : State) (n) : (s.cageDrop n).vault = s.vault := by
  unfold State.cageDrop; rw [State.cageOff_vault, State.foldl_vault _ _ (fun u a => by simp)]
@[simp] theorem State.cageFault_vault (s : State) (n f) : (s.cageFault n f).vault = s.vault := by
  unfold State.cageFault; simp only [State.setFld_vault, State.setCageSt_vault, State.cageOff_vault]
  rw [State.foldl_vault _ _ (fun u a => by simp), State.recordPort_vault]
@[simp] theorem State.cageProbe_vault (s : State) (n i) : (s.cageProbe n i).vault = s.vault := by
  unfold State.cageProbe; dsimp only; split
  · simp only [State.setFld_vault, State.setCage_vault, State.setCageSt_vault]
  · split
    · rw [State.cageFault_vault]; simp only [State.setFld_vault, State.setCage_vault, State.setCageSt_vault]
    · split
      · rw [State.cageFault_vault]; simp only [State.setFld_vault, State.setCage_vault, State.setCageSt_vault]
      · split <;> simp only [State.setFld_vault, State.setCage_vault, State.setCageSt_vault]
@[simp] theorem State.cageInsert_vault (s : State) (n i) : (s.cageInsert n i).vault = s.vault := by
  unfold State.cageInsert; dsimp only; split
  · simp only [State.setFld_vault, State.setCage_vault, State.setCageSt_vault]
  · split
    · simp only [State.setFld_vault, State.setCage_vault, State.setCageSt_vault]
    · rw [State.cageProbe_vault]; simp only [State.setFld_vault, State.setCage_vault, State.setCageSt_vault]
@[simp] theorem State.cageStart_vault (s : State) (n) : (s.cageStart n).vault = s.vault := by
  unfold State.cageStart; split <;> simp
@[simp] theorem State.stage_vault (s : State) (k v) : (s.stage k v).vault = s.vault := by
  unfold State.stage; dsimp only; split
  · rfl
  · split <;> rfl
@[simp] theorem State.storeReg_vault (s : State) (d a w) : (s.storeReg d a w).vault = s.vault := by
  unfold State.storeReg; simp
@[simp] theorem State.setPack_vault (s : State) (p) : (s.setPack p).vault = s.vault := by
  unfold State.setPack; simp
@[simp] theorem State.abortTest_vault (s : State) : s.abortTest.vault = s.vault := by
  unfold State.abortTest; split
  · exact State.setPack_vault _ _
  · rfl
theorem State.pst_lock {t : State} (h : t.locked = true) : t.pst = 6 := by simp [State.pst, h, pLOCK]
theorem State.inputLost_lock {s : State} (h : s.locked = true) : s.inputLost = s := by
  unfold State.inputLost; dsimp only; rw [if_pos (.inl (State.pst_lock h))]
theorem State.feedTo_lock {s : State} (h : s.locked = true) (f st mv) : (s.feedTo f st mv).vault = s.vault := by
  unfold State.feedTo; dsimp only
  rw [State.inputLost_lock]
  · simp
  · refine (State.vault_locked ?_).trans h; simp
theorem State.feedGood_lock {s : State} (h : s.locked = true) (f mv) : (s.feedGood f mv).vault = s.vault := by
  unfold State.feedGood; dsimp only; split
  · rfl
  · rw [if_pos (by rw [State.pst_lock (t := (s.setFld _ _).setFld _ _) h]; decide)]; rfl
theorem State.packFault_lock {s : State} (h : s.locked = true) : s.packFault.vault = s.vault := by
  unfold State.packFault; dsimp only; split
  · rfl
  · have e : ((({ s with sys.power.noDischarge := true }.setPack 5).record (occ bPMU Cause.pmu_PACK_FAULT)).vault = s.vault) := by
      rw [State.record_vault, State.setPack_vault]; rfl
    rw [if_pos (.inr ((State.vault_locked e).trans h)), e]

theorem State.dataUp_lock {s : State} (h : s.locked = true) : s.dataUp = false := by simp [State.dataUp, h]
theorem State.standing_lock {s : State} (h : s.locked = true) : s.standing = false := by simp [State.standing, h]
theorem State.act_lock {s : State} (h : s.locked = true) (f) : s.act f = s := by simp [State.act, State.dataUp_lock h]
theorem State.runs_lock {s : State} (h : s.locked = true) (k) : s.runs k = false := by simp [State.runs, State.dataUp_lock h, State.standing_lock h]
theorem State.linkAct_lock {s : State} (h : s.locked = true) (k f) : s.linkAct k f = s := by simp [State.linkAct, State.runs_lock h, State.dataUp_lock h]
theorem State.cagesLive_lock {s : State} (h : s.locked = true) : s.cagesLive = false := by simp [State.cagesLive, h]
theorem State.feedLow_lock {s : State} (h : s.locked = true) (f mv) : (s.feedLow f mv).vault = s.vault := by
  unfold State.feedLow; dsimp only; split
  · exact State.feedTo_lock h _ _ _
  · rfl
theorem State.feedAbsent_lock {s : State} (h : s.locked = true) (f mv) : (s.feedAbsent f mv).vault = s.vault := by
  unfold State.feedAbsent; split
  · exact State.feedTo_lock h _ _ _
  · rfl
@[simp] theorem State.setCut_vault (s : State) (f v) : (s.setCut f v).vault = s.vault := by cases f <;> rfl
@[simp] theorem State.overcurrent_vault (s : State) (f) : (s.overcurrent f).vault = s.vault := by unfold State.overcurrent; simp
@[simp] theorem State.rtUpdate_vault (s : State) (a b c d e) : (s.rtUpdate a b c d e).vault = s.vault := by
  unfold State.rtUpdate; simp
theorem State.drainDone_lock {s : State} (h : s.locked = true) : s.drainDone = s := by
  unfold State.drainDone; rw [if_pos]; left; rw [State.pst_lock h]; decide
theorem State.rideExpiry_lock {s : State} (h : s.locked = true) (b) : s.rideExpiry b = s := by
  unfold State.rideExpiry; rw [if_neg]; rw [State.pst_lock h]; simp [pRIDE]
theorem State.returnMs_lock {s : State} (h : s.locked = true) (b) : s.returnMs b = s := by
  unfold State.returnMs; rw [if_neg]; rw [State.pst_lock h]; simp [pRETENTION]
theorem State.exhausted_lock {s : State} (h : s.locked = true) : s.exhausted = s := by
  unfold State.exhausted; rw [if_neg]; rw [State.pst_lock h]; simp [pRETENTION]
@[simp] theorem State.capDone_vault (s : State) (a) : (s.capDone a).vault = s.vault := by
  unfold State.capDone; simp
theorem State.packTemp_lock {s : State} (h : s.locked = true) (a b) : (s.packTemp a b).vault = s.vault := by
  unfold State.packTemp; dsimp only; split
  · rfl
  · generalize (if b = true then packBand s.chem a else Band.cut) = band
    generalize hu : ({ s.setFld F.PMU_PACK_STS_TEMP (satSigned 8 a) with sys.power.noCharge := decide (band = .noCharge ∨ band = .hotStop ∨ band = .cut) } : State) = u
    have e : u.vault = s.vault := by rw [← hu]; rfl
    have hl : u.locked = true := (State.vault_locked e).trans h
    cases band <;> simp only <;> repeat' split
    all_goals first | exact (State.packFault_lock hl).trans e | simp [e]
theorem State.gaugePoll_lock {s : State} (h : s.locked = true) (a b) : (s.gaugePoll a b).vault = s.vault := by
  unfold State.gaugePoll; dsimp only; split
  · rfl
  · split
    · split
      · exact State.packFault_lock (s := { s with sys.power.gaugeMiss := 0 }) h
      · rfl
    · split
      · rfl
      · rw [State.record_vault]; rfl
@[simp] theorem State.chargeEnd_vault (s : State) : (s.chargeEnd).vault = s.vault := by
  unfold State.chargeEnd; dsimp only; split
  · split
    · rw [State.setPack_vault]; rfl
    · rfl
  · rfl
@[simp] theorem State.chargeAgain_vault (s : State) : (s.chargeAgain).vault = s.vault := by
  unfold State.chargeAgain; dsimp only; split
  · split
    · rw [State.setPack_vault]; rfl
    · rfl
  · rfl
theorem State.packCheck_lock {s : State} (h : s.locked = true) (a b c d e f) : (s.packCheck a b c d e f).vault = s.vault := by
  unfold State.packCheck; dsimp only; split
  · rfl
  · split
    · simp
    · split
      · exact State.packFault_lock h
      · rw [State.setPack_vault]; rfl
@[simp] theorem State.pmuRestart_vault (s : State) : s.pmuRestart.vault = s.vault := by unfold State.pmuRestart; simp
theorem State.islandFault_lock {s : State} (h : s.locked = true) : s.islandFault = s := by
  unfold State.islandFault; simp [h]
theorem State.resume_lock {s : State} (h : s.locked = true) (a b) : s.resume a b = s := by
  unfold State.resume; rw [if_pos (.inr h)]
theorem State.coldStart_lock {s : State} (h : s.sys.start.powered = true) (a) : s.coldStart a = s := by
  unfold State.coldStart; rw [if_pos (.inl h)]
theorem State.poolReady_lock {s : State} (h : s.locked = true) : s.poolReady = s := by
  unfold State.poolReady; split
  · rfl
  · rw [if_pos]; left; rw [State.pst_lock h]; decide
@[simp] theorem State.mcRestart_vault (s : State) (r) : (s.mcRestart r).vault = s.vault := by
  unfold State.mcRestart; split <;> rfl
theorem State.rstN_lock {s : State} (h : s.locked = true) (a b) : (s.rstN a b).vault = s.vault := by
  unfold State.rstN State.fresh; dsimp only; split
  · rfl
  · split
    · rfl
    · rw [if_pos (.inl h)]; rfl
theorem State.rstRelease_lock {s : State} (h : s.locked = true) : s.rstRelease.vault = s.vault := by
  unfold State.rstRelease; dsimp only; split
  · rfl
  · split
    · rw [if_neg]
      · rfl
      · rw [State.pst_lock (t := { s with sys.start.rstHeld := false }) h]; simp [pSTARTING]
    · rfl
theorem State.sendOwed_lock {s : State} (h : s.locked = true) (e) : s.sendOwed e = s := by
  unfold State.sendOwed; split
  · rw [State.runs_lock h]; rfl
  · rfl
theorem State.foldl_lock {α : Type} (l : List α) (f : State → α → State) (h : ∀ u a, u.locked = true → (f u a).vault = u.vault)
    {s : State} (hs : s.locked = true) : (l.foldl f s).vault = s.vault := by
  induction l generalizing s with
  | nil => rfl
  | cons a l ih => rw [List.foldl_cons, ih ((State.vault_locked (h s a hs)).trans hs), h s a hs]
@[simp] theorem State.sendMgt_vault (s : State) (o) : (s.sendMgt o).vault = s.vault := rfl
theorem State.mcBack_lock {s : State} (h : s.locked = true) : s.mcBack.vault = s.vault := by
  unfold State.mcBack; dsimp only; split
  · rfl
  · generalize hu : State.record _ _ = u
    have e : u.vault = s.vault := by rw [← hu, State.record_vault]; rfl
    have hl : u.locked = true := (State.vault_locked e).trans h
    have e2 := State.foldl_lock s.sys.csr.owed (fun s e => s.sendOwed e) (fun u a hu => by rw [State.sendOwed_lock hu]) hl
    split
    · rw [State.foldl_vault _ (fun s o => s.sendMgt o) (fun u a => rfl), e2, e]
    · rw [e2, e]
theorem State.sequencerCrash_lock {s : State} (h : s.locked = true) (e) : s.sequencerCrash e = s := by
  unfold State.sequencerCrash; rw [if_pos (.inr h)]
theorem State.linkUp_lock {s : State} (h : s.locked = true) (e) : s.linkUp e = s := by
  unfold State.linkUp; dsimp only; rw [if_pos]; left; rw [State.cagesLive_lock h]; rfl
theorem State.presence_lock {s : State} (h : s.locked = true) (n i) : s.presence n i = s := by
  unfold State.presence; rw [if_pos]; left; rw [State.cagesLive_lock h]; rfl
theorem State.moduleReady_lock {s : State} (h : s.locked = true) (n) : s.moduleReady n = s := by
  unfold State.moduleReady; dsimp only; split
  · rw [if_pos]; left; rw [State.cagesLive_lock h]; rfl
  · rfl
theorem State.dpActivated_lock {s : State} (h : s.locked = true) (n) : s.dpActivated n = s := by
  unfold State.dpActivated; simp [State.cagesLive_lock h]
theorem State.cageTimeout_lock {s : State} (h : s.locked = true) (n) : s.cageTimeout n = s := by
  unfold State.cageTimeout; simp [State.cagesLive_lock h]
theorem State.cmisPoll_lock {s : State} (h : s.locked = true) (n a b c d) : s.cmisPoll n a b c d = s := by
  unfold State.cmisPoll; simp [State.cagesLive_lock h]
theorem State.cageOver_lock {s : State} (h : s.locked = true) (n) : s.cageOver n = s := by
  unfold State.cageOver; simp [State.cagesLive_lock h]
@[simp] theorem State.presenceLost_vault (s : State) (n) : (s.presenceLost n).vault = s.vault := by
  unfold State.presenceLost; dsimp only; split
  · rfl
  · rw [State.ite_vault, State.cageStart_vault, State.setCageSt_vault, State.setFld_vault, ite_self, State.ite_vault,
      State.foldl_vault _ _ (fun u a => State.recordPort_vault _ _ _ _), ite_self]
    exact State.cageOff_vault _ _
@[simp] theorem State.cmisDone_vault (s : State) (n a b) : (s.cmisDone n a b).vault = s.vault := by
  unfold State.cmisDone; simp
@[simp] theorem State.setTemps_vault (s : State) (t) : (s.setTemps t).vault = s.vault := rfl
@[simp] theorem State.cool_vault (s : State) (t) : (s.cool t).vault = s.vault := by unfold State.cool; split <;> rfl
@[simp] theorem State.thermalWarn_vault (s : State) (t) : (s.thermalWarn t).vault = s.vault := by
  unfold State.thermalWarn; simp
theorem State.thermalTrip_lock {s : State} (h : s.locked = true) (t) : (s.thermalTrip t).vault = s.vault := by
  unfold State.thermalTrip; dsimp only; split
  · rfl
  · split
    · simp
    · have e : ({ (s.setTemps t).cool t with sys.power.hot := true } : State).vault = s.vault :=
        (State.cool_vault (s.setTemps t) t).trans rfl
      rw [if_neg]
      · exact e
      · rw [State.pst_lock ((State.vault_locked e).trans h)]; simp [pACTIVE, pRIDE]
theorem State.smbusData_vault (s : State) (c) : (s.smbusData c).1.vault = s.vault := by
  unfold State.smbusData; dsimp only; repeat' split
  all_goals rfl
@[simp] theorem State.smbusRead_vault (s : State) (c) : (s.smbusRead c).vault = s.vault := by
  unfold State.smbusRead; dsimp only; split
  · rfl
  · split
    · rfl
    · have := s.smbusData_vault c.command.toNat
      split <;> rename_i heq <;> rw [heq] at this <;> exact this
@[simp] theorem State.mgtLink_vault (s : State) : s.mgtLink.vault = s.vault := by unfold State.mgtLink; simp
theorem State.inHoop_lock {s : State} (h : s.locked = true) : s.inHoop = false := by
  unfold State.inHoop; rw [State.pst_lock h]; simp [pHOOP]
theorem State.wrq_lock {s : State} (h : s.locked = true) (a b c d e) : s.wrq a b c d e = s := by
  unfold State.wrq; simp [State.inHoop_lock h]
theorem State.rrq_lock {s : State} (h : s.locked = true) (a b c d) : s.rrq a b c d = s := by
  unfold State.rrq; simp [State.inHoop_lock h]
theorem State.tftpAgain_lock {s : State} (h : s.locked = true) : s.tftpAgain = s := by
  unfold State.tftpAgain; dsimp only; split
  · rfl
  · simp [State.inHoop_lock h]
theorem State.recover_lock {s : State} (h : s.locked = true) (a) : s.recover a = s := by
  unfold State.recover; simp [State.inHoop_lock h]

theorem State.rxPause_lock {s : State} (h : s.locked = true) (f) : s.rxPause f = s := by
  unfold State.rxPause; dsimp only; rw [if_pos (.inr h)]
@[simp] theorem State.rxFilter_vault (s : State) (f) : (s.rxFilter f).1.vault = s.vault := by
  unfold State.rxFilter; repeat' split
  · exact State.foldl_vault _ _ (fun u a => by simp) _
  all_goals rfl
@[simp] theorem State.syncOffset_vault (s : State) (f o) : (s.syncOffset f o).vault = s.vault := by
  unfold State.syncOffset; dsimp only
  rw [State.ite_vault, State.record_vault, ite_self, State.ite_vault]
  refine (if_congr Iff.rfl rfl rfl).trans (ite_self _)
@[simp] theorem State.sync_vault (s : State) (f o) : (s.sync f o).vault = s.vault := by
  unfold State.sync; simp
@[simp] theorem State.endRefused_vault (s : State) (a b) : (s.endRefused a b).vault = s.vault := by
  unfold State.endRefused; simp
@[simp] theorem State.setSlotRec_vault (s : State) (a b) : (s.setSlotRec a b).vault = s.vault := by
  unfold State.setSlotRec; split <;> rfl
@[simp] theorem State.modSlot_vault (s : State) (a b) : (s.modSlot a b).vault = s.vault := by
  unfold State.modSlot; simp
@[simp] theorem State.tornGroup_vault (s : State) : s.tornGroup.vault = s.vault := by
  unfold State.tornGroup; dsimp only; split
  · rfl
  · exact State.foldl_vault _ _ (fun u a => by simp) _
@[simp] theorem State.writeGroup_vault (s : State) : s.writeGroup.vault = s.vault := by
  unfold State.writeGroup; dsimp only
  have h2 := State.foldl_vault s.persistSlots (fun t b => t.setSlotRec b ((t.nvSlot b).addGroup (t.groupFor b s.sys.bank.marking))) (fun u a => by simp) s
  split <;> split <;> simp [h2]
theorem State.checkDone_lock {s : State} (h : s.locked = true) : s.checkDone.vault = s.vault := by
  unfold State.checkDone State.checkBank State.commitBarred; dsimp only; rw [h]
  simp
theorem State.notNow_lock {s : State} (h : s.locked = true) : s.notNow = true := by
  unfold State.notNow; rw [State.pst_lock h]; decide
theorem State.groupProgrammed_lock {s : State} (h : s.locked = true) (b) : (s.groupProgrammed b).vault = s.vault := by
  unfold State.groupProgrammed; rw [State.notNow_lock h]; simp
theorem State.commitInstant_lock {s : State} (h : s.locked = true) : s.commitInstant.vault = s.vault := by
  unfold State.commitInstant; rw [State.notNow_lock h]; simp
@[simp] theorem State.startCheck_vault (s : State) (w) : (s.startCheck w).vault = s.vault := rfl
@[simp] theorem State.badCtl_vault (s : State) : (s.badCtl).vault = s.vault := rfl
@[simp] theorem State.wrCfgCtl_vault (s : State) (w) : (s.wrCfgCtl w).vault = s.vault := by
  unfold State.wrCfgCtl; dsimp only; repeat' split
  all_goals rfl
@[simp] theorem State.appliedRecord_vault (s : State) (b) : (s.appliedRecord b).vault = s.vault := by
  unfold State.appliedRecord; dsimp only; split
  · rfl
  · have e : (if b = true then s.record (occ bCFG Cause.cfg_NVM_PROGRAM) else
        { (s.persistSlots.foldl (fun t x => t.setSlotRec x ((t.nvSlot x).markGroup (t.groupFor x s.sys.bank.marking))) s) with
          sys.bank.vol := s.sys.bank.vol.filter fun k => (tget s.sys.bank.marking k).isNone }).vault = s.vault := by
      split
      · simp
      · exact (State.foldl_vault s.persistSlots (fun t x => t.setSlotRec x ((t.nvSlot x).markGroup (t.groupFor x s.sys.bank.marking))) (fun u a => by simp) s)
    split
    · rw [State.wrCfgCtl_vault]; exact e
    · exact e
@[simp] theorem State.setFwu_vault (s : State) (n) : (s.setFwu n).vault = s.vault := rfl
@[simp] theorem State.fusesOut_vault (s : State) (n) : (s.fusesOut n).vault = s.vault := by
  unfold State.fusesOut; split
  · rw [State.record_vault]; rfl
  · rfl
@[simp] theorem State.fwuOpDone_vault (s : State) (b) : (s.fwuOpDone b).vault = s.vault := by
  unfold State.fwuOpDone; dsimp only; split
  · rfl
  · repeat' split
    all_goals simp
    all_goals rfl
theorem State.key_lock {s : State} (h : s.mem.keys = []) (k) : (s.key k).valid = false := by
  unfold State.key; rw [h]; rfl
theorem State.keyReload_lock {s : State} (h : s.mem.keys = []) (a b c) : s.keyReload a b c = s := by
  unfold State.keyReload; dsimp only; rw [if_pos]; left; rw [State.key_lock h]; rfl
@[simp] theorem State.rollAlarm_vault (s : State) : s.rollAlarm.vault = s.vault := by
  unfold State.rollAlarm; dsimp only; split <;> rfl
@[simp] theorem State.prfAdd_vault (s : State) (a b c) : (s.prfAdd a b c).vault = s.vault := by
  unfold State.prfAdd; dsimp only; repeat' split
  all_goals rfl
theorem State.snapshot_lock {s : State} (h : s.locked = true) : s.snapshot = s := by
  unfold State.snapshot State.boundaryDue; simp [h]
theorem State.dump_lock {s : State} (h : s.locked = true) : s.dump = s := by
  unfold State.dump State.dumpDue State.fabUp; simp [h, State.dataUp_lock h]
theorem State.cycleTick_lock {s : State} (h : s.locked = true) : s.cycleTick = s := by
  unfold State.cycleTick; exact if_pos (Or.inl h)
theorem State.tick_lock {s : State} (h : s.locked = true) : s.tick = { s with now := s.nextTick } := by
  unfold State.tick; dsimp only; rw [State.snapshot_lock h, State.dump_lock h,
    State.cycleTick_lock (s := { s with now := s.nextTick }) h]
  exact if_pos h
@[simp] theorem State.ppsEdge_vault (s : State) (b) : (s.ppsEdge b).vault = s.vault := by
  unfold State.ppsEdge; dsimp only; repeat' split
  all_goals rfl
@[simp] theorem State.ppsRise_vault (s : State) : (s.ppsRise).vault = s.vault := by
  unfold State.ppsRise; dsimp only; split <;> rfl
@[simp] theorem State.takeSample_vault (s : State) (a b c d e) : (s.takeSample a b c d e).vault = s.vault := by
  unfold State.takeSample; dsimp only; split
  · rfl
  · rw [State.postOcc_vault]; rfl
@[simp] theorem State.endHoldoff_vault (s : State) (k) : (s.endHoldoff k).vault = s.vault := by
  obtain ⟨r, q, e⟩ := s.endHoldoff_frame k; rw [e]; rfl
@[simp] theorem State.dimmTemp_vault (s : State) (a b) : (s.dimmTemp a b).vault = s.vault := by
  unfold State.dimmTemp; simp
@[simp] theorem State.ntqParity_vault (s : State) : s.ntqParity.vault = s.vault := by
  unfold State.ntqParity; dsimp only; split
  · rfl
  · rw [State.foldl_vault _ _ (fun u a => by simp), State.postOverrun_vault]; rfl
-- CSR
@[simp] theorem State.ntqPop_vault (s : State) : (s.ntqPop).1.vault = s.vault := by
  unfold State.ntqPop; dsimp only; split
  · exact State.ntqParity_vault s
  · rename_i n _
    exact (State.foldl_vault _ (fun t i => t.setReg (F.NTQ_NREC i).key (n.word i)) (fun u a => rfl) _).trans
      (State.ntqParity_vault s)
@[simp] theorem State.etNext_vault (s : State) : s.etNext.vault = s.vault :=
  (apply_ite State.vault _ _ _).trans (ite_self _)
theorem pick_vault {s : State} {p q : Prop} [Decidable p] [Decidable q] {a b c : State × CsrAns} (ha : a.1.vault = s.vault)
    (hb : b.1.vault = s.vault) (hc : c.1.vault = s.vault) : (if p then a else if q then b else c).1.vault = s.vault := by
  split
  · exact ha
  · split <;> assumption
@[simp] theorem State.rdEtData_vault (s : State) : s.rdEtData.1.vault = s.vault := by
  unfold State.rdEtData
  exact pick_vault (State.etNext_vault _) ((State.etNext_vault _).trans (State.record_vault _ _)) (State.etNext_vault _)
@[simp] theorem State.rdLrd_vault (s : State) (i) : (s.rdLrd i).1.vault = s.vault := by
  unfold State.rdLrd; dsimp only; split
  · rfl
  · dsimp only; rw [State.ite_vault, State.record_vault, ite_self]; rfl
@[simp] theorem State.rdTacc_vault (s : State) (i) : (s.rdTacc i).1.vault = s.vault := by
  unfold State.rdTacc; dsimp only; generalize BitVec.ofNat 1024 _ = r; split <;> rfl
@[simp] theorem State.rdDrd_vault (s : State) (i) : (s.rdDrd i).1.vault = s.vault := by
  unfold State.rdDrd; dsimp only; split <;> rfl
theorem State.readAct_vault {s : State} {n i j w r} (h : s.readAct n i j w = some r) : r.1.vault = s.vault := by
  unfold State.readAct at h; dsimp only at h
  split at h
  all_goals first | (obtain rfl := Option.some.inj h; first | rfl | simp) | skip
  · split at h <;> (obtain rfl := Option.some.inj h; rfl)
  · cases h
@[simp] theorem State.csrReadAt_vault (s : State) (a) : (s.csrReadAt a).1.vault = s.vault := by
  unfold State.csrReadAt State.readReg; split
  · dsimp only; split
    · rename_i h; exact State.readAct_vault h
    · rfl
  · rfl
theorem State.csrWriteAt_lock (s : State) (a w) (h : ∀ d, regAt a = some d → lockWritable d = true) : (s.csrWriteAt a w).1.vault = s.vault := by
  unfold State.csrWriteAt; split
  · rename_i d hd
    have hn := h d hd
    unfold lockWritable at hn
    simp only [List.contains_cons, List.contains_nil, Bool.or_false, Bool.or_eq_true, beq_iff_eq] at hn
    unfold State.writeReg; dsimp only
    obtain hn | hn | hn | hn | hn := hn <;> rw [hn] <;> simp only [State.writeData, Option.some_or, Option.getD_some]
    · unfold State.wrFltsts State.lowerMax; simp
    · unfold State.wrFltfirst; simp
    · unfold State.wrFltovf; simp
    · unfold State.ntqRelease; dsimp only; repeat' split
      all_goals first | (simp; done) | (rw [State.postOverrun_vault]; exact State.storeReg_vault _ _ _ _)
    · unfold State.ntqCtl State.ntqMark State.ntqRewind; dsimp only; repeat' split
      all_goals (first | (simp; done) | exact State.storeReg_vault _ _ _ _)
  · rfl

theorem State.crossbar_lock {s : State} (h : s.locked = true) (r : CsrReq) (eff : State → State × CsrAns)
    (he : (∀ d, regAt r.addr.toNat = some d → r.write = true → lockWritable d = true) → ∀ u : State, u.locked = true → (eff u).1.vault = u.vault) :
    (s.crossbar r eff).1.vault = s.vault := by
  unfold State.crossbar; dsimp only; split
  · rfl
  · split
    · rfl
    · split
      · unfold State.xbarParity; rw [State.record_vault]; rfl
      · split
        · rfl
        · split
          · rfl
          · split
            · rfl
            · rename_i d hd
              split
              · rfl
              · rename_i hn
                rw [State.dataUp_lock (s := s.incFld F.GBL_CSRCNT_SERVED) h, Bool.false_and]
                refine (he ?_ (s.incFld F.GBL_CSRCNT_SERVED) h)
                intro d' hd' hw
                rw [hd] at hd'; cases hd'
                by_contra hc
                exact hn ⟨h, hw, by simp [hc]⟩
@[simp] theorem State.keepAnswer_vault (s : State) (a b c d) : (s.keepAnswer a b c d).vault = s.vault := by rfl
theorem State.mgmtOne_lock {s : State} (h : s.locked = true) (ip port t) (r : CsrReq) (eff : State → State × CsrAns)
    (he : (∀ d, regAt r.addr.toNat = some d → r.write = true → lockWritable d = true) → ∀ u : State, u.locked = true → (eff u).1.vault = u.vault) :
    (s.mgmtOne ip port t r eff).1.vault = s.vault := by
  unfold State.mgmtOne; split
  · rfl
  · have := State.crossbar_lock h r eff he
    dsimp only; split
    · exact this
    · rw [State.keepAnswer_vault]; exact this
@[simp] theorem State.answerLater_vault (s0 s : State) (o) : (s0.answerLater s o).vault = s.vault := by
  unfold State.answerLater State.answerMgt; repeat' split
  all_goals rfl
theorem State.csrDo_lock {s : State} (h : s.locked = true) (r : CsrReq) (eff : State → State × CsrAns)
    (he : (∀ d, regAt r.addr.toNat = some d → r.write = true → lockWritable d = true) → ∀ u : State, u.locked = true → (eff u).1.vault = u.vault) :
    (s.csrDo r eff).vault = s.vault := by
  unfold State.csrDo; split
  · rfl
  · rename_i hr
    split
    · rename_i k t hs; simp [State.reaches, hs, h] at hr
    · dsimp only; rw [State.answerLater_vault]; exact State.mgmtOne_lock h _ _ _ _ _ he
theorem State.csrPut_lock {s : State} (h : s.locked = true) (src : CsrSrc) (a w) (act : State → State)
    (he : (∀ d, regAt (BitVec.ofNat 32 a).toNat = some d → lockWritable d = true) → ∀ u : State, u.locked = true → (act u).vault = u.vault) :
    (s.csrPut src a w act).vault = s.vault := by
  unfold State.csrPut; refine State.csrDo_lock h _ _ fun hd u hu => ?_
  split
  · dsimp only; rw [he (fun d h => hd d h rfl) _ ((State.vault_locked (State.storeReg_vault _ _ _ _)).trans hu), State.storeReg_vault]
  · rfl
theorem State.csrGet_lock {s : State} (h : s.locked = true) (src : CsrSrc) (a) (f : State → State × Word)
    (he : ∀ u, (f u).1.vault = u.vault) : (s.csrGet src a f).vault = s.vault := by
  unfold State.csrGet; exact State.csrDo_lock h _ _ fun _ u _ => he u
theorem State.csrTrig_lock {s : State} (h : s.locked = true) (src : CsrSrc) (a w tr) (act : State → State)
    (he : (∀ d, regAt (BitVec.ofNat 32 a).toNat = some d → lockWritable d = true) → ∀ u : State, u.locked = true → (act u).vault = u.vault) :
    (s.csrTrig src a w tr act).vault = s.vault := by
  unfold State.csrTrig; split
  · exact State.csrPut_lock h _ _ _ _ he
  · rfl
/-- A register that LOCK bars. -/
theorem barred {a : Nat} {P : Prop} (h : ((regAt a).map lockWritable) = some false)  (hd : ∀ d, regAt a = some d → lockWritable d = true) : P := by
  cases e : regAt a with
  | none => rw [e] at h; cases h
  | some d => rw [e] at h; simp [hd d e] at h
theorem State.mgmtMsg_lock {s : State} (h : s.locked = true) (ip port m) : (s.mgmtMsg ip port m).1.vault = s.vault := by
  unfold State.mgmtMsg; split
  · exact State.mgmtOne_lock h _ _ _ _ _ fun _ u _ => State.csrReadAt_vault _ _
  · exact State.mgmtOne_lock h _ _ _ _ _ fun hd u _ => State.csrWriteAt_lock _ _ _ fun d h => hd d h rfl
  · rfl
theorem State.mgmtAll_lock (l : List Msg) {s : State} (h : s.locked = true) (ip port) : (s.mgmtAll ip port l).1.vault = s.vault := by
  induction l generalizing s with
  | nil => rfl
  | cons m l ih =>
    have hm := State.mgmtMsg_lock h ip port m
    unfold State.mgmtAll; dsimp only; split
    · exact hm
    · exact (ih ((State.vault_locked hm).trans h)).trans hm
theorem State.mgtDatagram_lock {s : State} (h : s.locked = true) (ip port m) : (s.mgtDatagram ip port m).vault = s.vault := by
  unfold State.mgtDatagram; split
  · rfl
  · split
    · rfl
    · dsimp only; rw [State.answerLater_vault]; exact State.mgmtAll_lock _ h _ _

@[simp] theorem State.wrEthCtl_vault (s : State) (b w) : (s.wrEthCtl b w).vault = s.vault := by
  unfold State.wrEthCtl; simp
@[simp] theorem State.hostTakes_vault (s : State) (n) : (s.hostTakes n).vault = s.vault := by
  unfold State.hostTakes; dsimp only; split
  · rfl
  · rw [State.setCageSt_vault, State.setCage_vault, State.foldl_vault _ _ (fun u a => by simp)]
@[simp] theorem State.hostGives_vault (s : State) (n) : (s.hostGives n).vault = s.vault := by
  unfold State.hostGives; repeat' split
  all_goals simp
@[simp] theorem State.wrCageCtl_vault (s : State) (n o w) : (s.wrCageCtl n o w).vault = s.vault := by
  unfold State.wrCageCtl; simp
@[simp] theorem State.putCageCtl_vault (s : State) (n w) : (s.putCageCtl n w).vault = s.vault := by
  unfold State.putCageCtl; dsimp only; split
  · rw [State.wrCageCtl_vault, State.storeReg_vault]
  · rfl
@[simp] theorem State.putCmis_vault (s : State) (n w) : (s.putCmis n w).vault = s.vault := by
  unfold State.putCmis; split
  · rfl
  · split
    · dsimp only; repeat' split
      all_goals simp
    · rfl
@[simp] theorem State.wrPrfCtl_vault (s : State) (n w) : (s.wrPrfCtl n w).vault = s.vault := rfl
@[simp] theorem State.clearCounters_vault (s : State) : (s.clearCounters).vault = s.vault := by
  unfold State.clearCounters
  refine State.foldl_vault _ _ (fun u a => ?_) _
  exact State.foldl_vault _ (fun s i => s.setFld (F.PRF_CNT_COUNT a i) 0) (fun _ _ => rfl) _
@[simp] theorem State.wrGctl_vault (s : State) (w) : (s.wrGctl w).vault = s.vault := by unfold State.wrGctl; simp
@[simp] theorem State.wrFltsts_vault (s : State) (w) : (s.wrFltsts w).vault = s.vault := by
  unfold State.wrFltsts State.lowerMax; simp
@[simp] theorem State.wrFltfirst_vault (s : State) (b w) : (s.wrFltfirst b w).vault = s.vault := by
  unfold State.wrFltfirst; simp
@[simp] theorem State.wrFltovf_vault (s : State) (b w) : (s.wrFltovf b w).vault = s.vault := by
  unfold State.wrFltovf; simp
@[simp] theorem State.ntqRelease_vault (s : State) (w) : (s.ntqRelease w).vault = s.vault := by
  unfold State.ntqRelease; dsimp only; repeat' split
  all_goals first | rfl | (rw [State.postOverrun_vault]; rfl)
@[simp] theorem State.ntqCtl_vault (s : State) (w) : (s.ntqCtl w).vault = s.vault := by
  unfold State.ntqCtl State.ntqMark State.ntqRewind; dsimp only; repeat' split
  all_goals rfl
@[simp] theorem State.wrCons_vault (s : State) (w) : (s.wrCons w).vault = s.vault := by unfold State.wrCons; simp
@[simp] theorem State.wrBlind_vault (s : State) (w) : (s.wrBlind w).vault = s.vault := by
  unfold State.wrBlind; split <;> rfl

end Sys2Proof.Machine
end

