-- ==== Sys2Proof/Laws/Memory.lean ====
section
/-! SUPPORT. Every operation that writes a DRAM line keeps the canonical form of memory. -/

namespace Sys2Proof.Machine

/-- Recording and counting leave memory. -/
theorem State.prfAdd_mem (s : State) (b c n : Nat) : (s.prfAdd b c n).mem = s.mem := by
  unfold State.prfAdd
  dsimp only
  repeat' split
  all_goals rfl

@[simp] theorem State.count_mem (s : State) (b e n : Nat) (t : Option Nat) : (s.count b e n t).mem = s.mem := by
  unfold State.count
  split
  · rfl
  · rename_i hf
    clear hf
    generalize upto 8 = l
    induction l generalizing s with
    | nil => rfl
    | cons i l ih =>
      rw [List.foldl_cons, ih]
      dsimp only
      split
      · rfl
      · exact State.prfAdd_mem ..

@[simp] theorem State.takePflip_mem (s : State) (c d u : Nat) : (s.takePflip c d u).2.mem = s.mem := by
  unfold State.takePflip
  dsimp only
  repeat' split
  all_goals rfl

/-- Storing a line keeps the canonical form (R343, R360). -/
theorem State.storeLine_wf {s : State} (h : Memory.wf s.mem = true) (f l : Nat) (d : Line) :
    Memory.wf (s.storeLine f l d).mem = true := by
  simp only [Memory.wf, Bool.and_eq_true] at h ⊢
  unfold State.storeLine
  dsimp only
  split
  · exact ⟨swf_sput _ _ h.1, swf_sput _ _ h.2⟩
  · exact ⟨swf_sput _ _ h.1, swf_sput _ _ h.2⟩

/-- A command/address parity error changes registers, the queue and its own flag, and no line. -/
theorem State.caCheck_wf {s : State} (h : Memory.wf s.mem = true) (c : Nat) : Memory.wf (s.caCheck c).mem = true := by
  unfold State.caCheck
  split
  · rw [State.record_mem, State.incFld_mem]; exact h
  · exact h

/-- Where a write is not lost, what it leaves in memory is the stored line (R343, R353, R354). -/
theorem State.writeRaw_wf {s : State} (h : Memory.wf s.mem = true) (w : Who) (f l : Nat) (d : Line) :
    Memory.wf (s.writeRaw w f l d).1.mem = true := by
  unfold State.writeRaw
  dsimp only
  split
  · exact h
  · have h2 : Memory.wf (((s.caCheck (frameChan f)).count (8 + frameChan f / 4) 2 1 w.tenant).takePflip 2 0
        (frameChan f)).2.mem = true := by
      rw [State.takePflip_mem, State.count_mem]; exact State.caCheck_wf h _
    split
    · rw [State.record_mem]; exact h2
    · exact State.storeLine_wf h2 _ _ _

theorem State.logUe_mem (s : State) (f l src kind : Nat) : (s.logUe f l src kind).mem = s.mem := rfl

@[simp] theorem State.recordUe_mem (s : State) (w : Who) (f l src : Nat) : (s.recordUe w f l src).mem = s.mem := by
  unfold State.recordUe
  repeat' split
  all_goals simp

/-- Counting a device changes its count and registers, and no line (R355). -/
theorem State.countDevice_wf {s : State} (h : Memory.wf s.mem = true) (f l d : Nat) :
    Memory.wf (s.countDevice f l d).mem = true := by
  unfold State.countDevice
  dsimp only
  split
  · rw [State.record_mem]; exact h
  · exact h

/-- Checking a codeword keeps the canonical form (R342, R350). -/
theorem State.checkLine_wf {s : State} (h : Memory.wf s.mem = true) (w : Who) (f l src : Nat) (d : Line) (e : BitVec 640) :
    Memory.wf (s.checkLine w f l src d e).1.mem = true := by
  unfold State.checkLine
  dsimp only
  split
  · exact h
  · split
    · rw [State.recordUe_mem, State.logUe_mem]; exact h
    · rw [State.count_mem, State.incFld_mem]
      apply State.storeLine_wf
      apply State.countDevice_wf
      rw [State.record_mem, State.incFld_mem]
      exact h
  · rw [State.recordUe_mem, State.logUe_mem]; exact h

/-- A read keeps the canonical form, also where it writes a corrected line back (R350). -/
theorem State.readRaw_wf {s : State} (h : Memory.wf s.mem = true) (w : Who) (f l src : Nat) :
    Memory.wf (s.readRaw w f l src).1.mem = true := by
  unfold State.readRaw
  dsimp only
  split
  · exact h
  · have hx : ∀ x : State, Memory.wf x.mem = true →
        Memory.wf (if x.misplaced (f * 64 + l) then ((x.logUe f l src ueADDRESS).recordUe w f l src, RawRead.bad)
          else x.checkLine w f l src (sget (fun _ => 0) x.mem.dram (f * 64 + l))
            (sget (fun _ => 0) x.mem.dramErr (f * 64 + l))).1.mem = true := by
      intro x hx
      split
      · rw [State.recordUe_mem, State.logUe_mem]; exact hx
      · exact State.checkLine_wf hx _ _ _ _ _ _
    apply hx
    split
    · rw [State.record_mem, State.takePflip_mem, State.count_mem]; exact State.caCheck_wf h _
    · rw [State.takePflip_mem, State.count_mem]; exact State.caCheck_wf h _

/-- An error pattern that a line acquires keeps the canonical form (LINE_READ_RETURN). -/
theorem Memory.wf_pattern {m : Mem} (h : Memory.wf m = true) (k : Nat) (e : BitVec 640) :
    Memory.wf { m with dramErr := sput (fun _ => 0) m.dramErr k e } = true := by
  simp only [Memory.wf, Bool.and_eq_true] at h ⊢
  exact ⟨h.1, swf_sput _ _ h.2⟩

/-- DRAM stands over a module reset as it was (R390). -/
theorem State.moduleMem_wf {s : State} (h : Memory.wf s.mem = true) (g : BitVec 32) : Memory.wf (s.moduleMem g) = true := h

end Sys2Proof.Machine
end

