-- ==== Sys2Proof/WellFormed.lean ====
section
/-! DEFINITION. Which commands name units and quantities that the module can have. Ports are named in the widest mode
(R76); the port mode of a state narrows them further. -/

namespace Sys2Proof

/-- A frame arrives on one of the ports of the widest mode (R76). -/
def RxFrame.wf (f : RxFrame) : Bool := decide (f.port < 16)

/-- A path record's engine and port (R15, R76). -/
def PathKey.wf (p : PathKey) : Bool := decide (p.engine < 8) && decide (p.port < 16)

/-- What start finds on a channel: DIMM capacities of R334, at most two DIMMs (R333). -/
def ChanPop.wf (c : ChanPop) : Bool :=
  decide (c.dpc ≤ 2) && (c.missing || [32, 64, 96, 128, 256].contains c.capGib)

/-- What a start meets: 24 channels (R333). -/
def StartIn.wf (i : StartIn) : Bool := decide (i.pop.length = 24) && i.pop.all ChanPop.wf

/-- The fault block whose registers a command names (R426): bits [31:16] of its addresses are within the map (R519). -/
def faultBlock (b : BitVec 16) : Bool := decide (b.toNat < 0x700)

/-- Each operand lies in the range of the unit or quantity that it names. -/
def Instr.wf : Instr → Bool
  | .data f => f.wf
  | .ack f => f.wf
  | .nak f => f.wf
  | .heartbeat f => f.wf
  | .connect f _ => f.wf
  | .close f => f.wf
  | .audit f => f.wf
  | .pause f => f.wf
  | .sync f _ => f.wf
  | .heartbeatSend p => p.wf
  | .pathBroken p => p.wf
  | .pathUp p => p.wf
  | .mgtDatagram _ _ payload => decide (payload.length ≤ 65507)
  | .icmpEcho _ _ _ _ payload => decide (payload.length ≤ 65507)
  | .picotFrame f => f.wf
  | .lineReadReturn _ line _ _ => decide (line < 64)
  | .dimmTempRead c _ => decide (c < 24)
  | .chanHalt c => decide (c < 24)
  | .memRetireClear _ c _ => decide (c < 24)
  | .memFlipctl _ c _ => decide (c < 24)
  | .segmentStore _ k => decide (k < 4)
  | .segmentFill _ k => decide (k < 4)
  | .keySlotReload die _ _ => decide (die < 2)
  | .counterOverflow bank ctr _ _ _ => decide (bank < 17) && decide (ctr < 8)
  | .prfCtl _ bank ctr _ => decide (bank < 17) && decide (ctr < 8)
  | .causeClear _ b _ => faultBlock b
  | .fltfirstClear _ b _ => faultBlock b
  | .fltovfClear _ b _ => faultBlock b
  | .holdoffExpiry b _ => faultBlock b
  | .rtavailUpdate _ soc _ _ _ => decide (soc ≤ 10000)
  | .moduleReset _ _ i => i.wf
  | .warmReset _ _ i => i.wf
  | .rstN _ i => i.wf
  | .coldStart i => i.wf
  | .resumeComplete _ i => i.wf
  | .start _ _ i => i.wf
  | .recoveryWritten i => i.wf
  | .sequencer e => decide (e < 8)
  | .resetA _ b _ => decide (b < 8)
  | .resetB _ b _ => decide (b < 8)
  | .linkDown p => decide (p < 16)
  | .linkUp p => decide (p < 16)
  | .fecDegrade p _ => decide (p < 16)
  | .presence c _ => decide (c < 8)
  | .moduleReady c => decide (c < 8)
  | .dpActivated c => decide (c < 8)
  | .cageTimeout c => decide (c < 8)
  | .cmisPoll c _ _ _ _ => decide (c < 8)
  | .presenceLost c => decide (c < 8)
  | .cageOvercurrent c => decide (c < 8)
  | .cageReset _ c _ => decide (c < 8)
  | .hostown _ c _ => decide (c < 8)
  | .cmisTransfer _ c _ => decide (c < 8)
  | .cmisTransferDone c _ _ => decide (c < 8)
  | .holdover | .standaloneAck _ | .sendData _ _ | .replayTimerExpiry _ | .creditTimeout _ _ | .auditSend _ | .holdFlush _
  | .csrRead _ _ | .csrWrite _ _ _ | .rwsWrite _ _ _ | .csrTimeout _ _ _ | .arp _ _ _ | .mgtLink
  | .readShared _ _ | .readOwn _ _ | .upgrade _ _ | .readNoCache _ _ | .writeNoCache _ _ _ _ | .writeBack _ _ _
  | .evictClean _ _ | .fetchAdd _ _ _ | .swap _ _ _ | .compareSwap _ _ _ _ | .fence _ _
  | .snpRsp _ _ _ _ _ _ _ | .snpRspData _ _ _ _ _ _ _ _ | .fwdToHome _ _ _ | .fwdToOrigin _ _ _
  | .resultRelease _ _ _ _ | .declareDead _ _ | .deadNotice _ _ _ _ _ | .picotReplayTimer _ | .picotIdleUnit _
  | .picotPathBroken _ | .chanStart _ _ _ _ _ _ _ _ | .chanstartResend _ | .seqReq _ _ _ _ _ _ _ _ | .seqGrant _ _ _ _ _ _
  | .seqBusyResend _ | .replApply _ _ _ _ _ _ _ _ | .replDone _ _ _ _ _ | .lendReq _ _ _ _ _ _ | .lendGrant _ _ _ _ _ _ _
  | .remAccess _ _ _ _ _ _ _ _ _ _ _ _ _ | .remAnswer _ _ _ _ _ _ _ _ | .roleState _ _ _ _ _ | .roleResend _ _ _ _
  | .hoffGo _ _ | .hoffAbort _ _ | .hoffCopyDone | .hoffLost | .handoffWindowClose | .trnAssignAssign _ _
  | .trnAssignReassign _ _ | .trnAssignRelease _ _ | .assignDone | .trnInvTenantRange _ _ | .trnInvTenant _ _
  | .trnInvAll _ _ | .trnInvDone | .trnEtDataWrite _ _ | .trnEtDataRead _ | .mergeEntryClose _ _ | .patrolRead
  | .eccPflip _ _ | .dirPflip _ _ | .dirBlindClr _ _ | .scan | .heatEpoch | .migrationComplete _ | .migAbandon _
  | .cmpTestDecode _ _ | .cmpTestCompress _ _ | .cmpTestDone | .cmpPflip _ _ | .load _ _ | .clearSlot _ _ | .xtsZeroise _ _
  | .alarmWindow | .rekeyDone _ | .tick | .snapshot | .mtrCons _ _ | .mtrLrdRead _ | .mtrTaccRead _ | .ppsIn _ | .ppsOut
  | .freeze _ _ | .clear _ _ | .dump | .prfDrdRead _ | .ntqPop _ | .ntqRelease _ _ | .mark _ _ | .rewind _ _
  | .feedGood _ _ | .feedLow _ _ | .feedAbsent _ _ | .feedOvercurrent _ | .rideExpiry _ | .drainComplete | .returnMs _
  | .retentionExhausted | .stbyEnter _ _ | .stbyExit _ _ | .captest _ _ | .capabort _ _ | .captestDone _ | .packTempRead _ _
  | .gaugePoll _ _ _ | .chargeTermination | .packCheck _ _ _ _ _ _ | .mcRestart _ | .poolReady | .pmuRestart
  | .tierSequencer | .thermalWarn _ | .thermalTrip _ | .smbusBlockRead _ | .commit _ _ | .check _ _ | .cancel _ _
  | .discard _ _ | .checkDone | .groupProgrammed _ | .commitInstant | .appliedRecord _ | .eraseDone | .erase _ _
  | .program _ _ | .verify _ _ | .revert _ _ | .updateStep | .stepFail | .fwuConfirm _ _ _ | .wrq _ _ _ _ _ | .rrq _ _ _ _
  | .tftpRetransmit | .islandFault | .powerCycleOutOfLock | .mcRestartDone | .rstNRelease | .picotGraceExpiry _
  | .chargeRestart | .cutBackRelease _ | .fwuOperationDone _ => true

end Sys2Proof
end

