-- ==== Sys2Proof/Tests/Slice0.lean ====
section
/-! SUPPORT. Tests: for every statement a state and operands that meet its hypotheses, the checks of well-formedness, and the
worked examples of the spec. -/

namespace Sys2Proof.Tests

open Sys2Proof Sys2Proof.Machine

set_option Elab.async false

/-! Registers of translation, faults, notices, metering, keys and memory. -/

/-- `s` with these fields stored. -/
def setAll (s : State) (l : List (Fld × Nat)) : State := l.foldl (fun s p => s.setFld p.1 p.2) s

/-- A module in ACTIVE whose pool is ready. -/
def live : State :=
  { setAll State.reset [(F.PMU_STATE_STATE, 1), (F.FWU_BOOT_PHASE, 8), (F.GBL_STATUS_POOL_READY, 1)] with
    sys.start.powered := true }

/-- `live` with these fields stored. -/
def liveWith (l : List (Fld × Nat)) : State := setAll live l

/-- A management host. -/
def host : CsrSrc := .mgmt 1 2 3

theorem witness_translation_assign :
    [(0, 1), (1, 1), (2, 1)].all (fun p : Nat × Nat =>
      let s := liveWith [(F.TRN_ASSIGN_ARG0_OP, p.1)]
      let u := s.stored F.TRN_ASSIGN.key 1
      s.admitsWrite host F.TRN_ASSIGN.key 1 && decide (s.fld F.TRN_ASSIGN_ARG0_OP = p.1)
        && decide (u.fld F.TRN_ASSIGN_ARG0_OP = p.1) && !u.bit F.TRN_ASSIGN_STS_BUSY) = true := by decide +kernel

theorem witness_translation_inv :
    let v := live.stored F.TRN_INV.key 0
    v.bit F.TRN_INV_STS_BUSY = false ∧ live.admitsWrite host F.TRN_INV.key 0 = true ∧ wbits 0 0 2 = 0 ∧ wbits 1 0 2 = 1 ∧
      wbits 2 0 2 = 2 := by decide +kernel

/-- The last entry of the translation region, and its first entry, below the slots' end. -/
theorem witness_translation_entry :
    let s := liveWith [(F.TRN_ET_ADDR_OFF, 2 ^ 25 - 1)]
    (s.counted.slotCount ≤ s.counted.fld F.TRN_ET_ADDR_OFF ∧ s.counted.fld F.TRN_ET_ADDR_OFF < s.counted.etrBytes / 8) ∧
      s.admitsWrite host F.TRN_ET_DATA.key 0 = true ∧ s.admitsRead host F.TRN_ET_DATA.key = true ∧
      s.mem.etrBad.contains (s.counted.fld F.TRN_ET_ADDR_OFF) = false := by decide +kernel

theorem witness_fault_registers :
    (0x600 : Nat) ∈ faultBlocks ∧ 0 ∈ faultBlocks ∧ wbit 1 0 = true ∧
      live.admitsWrite host 0x6000f00 1 = true ∧ live.admitsWrite host 0xf08 1 = true ∧ live.admitsWrite host 0xf10 1 = true := by
  decide +kernel

/-- A notice, and a queue that has delivered one and holds another. -/
def note1 : Notice := (occ bPMU Cause.pmu_RST_IGNORED).notice 0 true
def queued : State := { live with ntq := ⟨[⟨note1, some 0⟩, ⟨{ note1 with nseq := 1 }, none⟩], 2, 1, none, 0,
  [(pairKey bPMU Cause.pmu_RST_IGNORED, ⟨0, 1, note1⟩)], []⟩ }

theorem witness_notice_queue :
    live.ntq.bad = [] ∧ queued.ntq.bad = [] ∧ firstPending live.ntq.entries = none ∧ live.admitsRead host F.NTQ_POP.key = true ∧
      firstPending queued.ntq.entries = some { note1 with nseq := 1 } ∧ queued.admitsRead host F.NTQ_POP.key = true ∧
      wbit (2 ^ 32) 32 = true ∧ queued.ntq.delivered (wbits (2 ^ 32) 0 32) = true ∧ queued.ntq.mark = none ∧
      queued.admitsWrite host F.NTQ_RELEASE.key (2 ^ 32) = true ∧ wbit 1 0 = true ∧ wbit 1 1 = false ∧ wbit 2 0 = false ∧ wbit 2 1 = true ∧
      queued.admitsWrite host F.NTQ_CTL.key 1 = true ∧ ({ queued with ntq.mark := some 0 } : State).ntq.mark = some 0 := by
  decide +kernel

theorem witness_holdoff :
    tget queued.ntq.holdoffs (pairKey (0x30 : BitVec 16).toNat (BitVec.ofNat 8 Cause.pmu_RST_IGNORED).toNat) =
      some ⟨0, 1, note1⟩ ∧ (0 : Nat) ≤ queued.now := by decide +kernel

/-- Metering with one tenant, one dump and room in the ledger. -/
def metered : State := { liveWith [(F.MTR_PROD, 5), (F.MTR_CONS, 2)] with
  meter.tens := [(0, freshTen 0)], meter.dumpRing := [(0, [1, 2, 3])] }

theorem witness_metering_writes :
    (metered.counted.fld F.MTR_CONS ≤ (5 : Word).toNat ∧ (5 : Word).toNat ≤ metered.counted.fld F.MTR_PROD ∧
      metered.counted.fld F.MTR_CONS ≤ (2 : Word).toNat) ∧ metered.admitsWrite host F.MTR_CONS.key 5 = true ∧
      metered.locked = false ∧ metered.meter.bad.contains (4096 + metered.counted.fld F.MTR_LRD_SEL_INDEX) = false ∧
      metered.admitsRead host (F.MTR_LRD 0).key = true ∧
      tget metered.meter.tens (metered.counted.fld F.MTR_TSEL_TENANT) = some (freshTen 0) ∧
      metered.admitsRead host (F.MTR_TACC 0).key = true ∧
      tget metered.meter.dumpRing (metered.counted.fld F.PRF_DRD_SEL_SLOT) = some [1, 2, 3] ∧
      metered.admitsRead host (F.PRF_DRD 0).key = true := by decide +kernel

theorem witness_counter_writes :
    live.admitsWrite host (F.PRF_CTL 16 7).key 0 = true ∧ live.admitsWrite host (F.PRF_CTL 0 0).key 0 = true ∧
      live.admitsWrite host F.PRF_GCTL.key 2 = true ∧ wbit 1 1 = false ∧ wbit 2 1 = true := by decide +kernel

/-- Slot 0 with a bad copy on one die. -/
def badKey (die : Nat) : KeySlot := ⟨5, true, false, 0, 0, false, die == 0, die == 1⟩

theorem witness_key_writes :
    wbit 1 0 = true ∧ wbit 1 1 = false ∧ wbit 7 0 = true ∧ wbit 7 1 = true ∧ wbits 7 2 12 ≠ 0 ∧ live.admitsWrite host F.XTS_KEYCTL.key 7 = true ∧
      wbit 0xC1EA0001 0 = true ∧ wbits 0xC1EA0001 16 16 = 0xC1EA ∧ live.locked = false ∧
      live.admitsWrite host F.XTS_ZEROISE.key 0xC1EA0001 = true := by decide +kernel

theorem witness_key_reload : ∀ die, die < 2 → ∃ (s : State) (k : KeySlot) (key : BitVec 512),
    k = s.key (0 : BitVec 12).toNat ∧ k.valid = true ∧ k.failed = false ∧
      (if die = 0 then k.bad0 = true ∧ k.bad1 = false else k.bad1 = true ∧ k.bad0 = false) ∧
      s.storedKey (0 : BitVec 12).toNat = some key := by
  intro die hd
  refine ⟨live.setKey 0 (badKey die), badKey die, slot0Key, rfl, rfl, rfl, ?_, rfl⟩
  have : die = 0 ∨ die = 1 := by omega
  obtain rfl | rfl := this <;> decide

/-- Tenant 1 has been moved to its other key slot. -/
def rekeyed : State := { liveWith [(F.TRN_TENANT_KSLOT0 1, 1), (F.TRN_TENANT_KSLOT1 1, 2)] with mem.rekeyClean := [1] }

theorem witness_key_events :
    ({ live with now := 60000000000 } : State).mem.alarmWin ≠ ({ live with now := 60000000000 } : State).minute ∧
      rekeyed.dataUp = true ∧ rekeyed.rekeyReady 1 = true := by decide +kernel

theorem witness_memory_writes :
    (0x10 : Word) &&& 0x8421084210 ≠ 0 ∧ live.admitsWrite host (F.MEM_RETIRE 23).key 0x10 = true ∧
      live.admitsWrite host (F.MEM_RETIRE 0).key 0x10 = true ∧ live.admitsWrite host (F.MEM_FLIPCTL 23).key 0 = true ∧
      live.admitsWrite host F.ECC_PFLIP.key 0 = true ∧ live.admitsWrite host F.DIR_PFLIP.key 0 = true ∧
      live.admitsWrite host F.CMP_PFLIP.key 0 = true ∧ wbit 0x100 8 = true ∧ live.admitsWrite host F.DIR_BLIND.key 0x100 = true ∧
      wbit 1 0 = true ∧ wbits 1 1 1 = 0 ∧ wbit 3 0 = true ∧ wbits 3 1 1 = 1 ∧ live.counted.bit F.CMP_TCTL_BUSY = false ∧
      live.admitsWrite host F.CMP_TCTL.key 1 = true := by decide +kernel

/-! Registers of power, ports, configuration and update. -/

def standby : State := liveWith [(F.PMU_STATE_STATE, 5)]
/-- Both feeds GOOD and a full pack in READY. -/
def packed : State := liveWith [(F.PMU_STATE_FEEDA, 2), (F.PMU_STATE_FEEDB, 2), (F.PMU_STATE_PACK, 3),
  (F.PMU_PACK_STS_SOC, 10000), (F.PMU_STATE_RTAVAIL, 1), (F.PMU_PACK_CFG_CHEM, 1)]

theorem witness_power_writes :
    (let u := packed.stored F.PMU_CTL.key 1
     wbits 1 0 4 = 1 ∧ u.pst = pACTIVE ∧ u.fld F.FWU_STS_STATE ≠ 3 ∧ u.fld F.FWU_STS_STATE ≠ 5 ∧
       packed.home.hoff.phase = .idle ∧ u.bit F.PMU_STATE_RTAVAIL = true ∧ 2 ≤ u.goodFeeds ∧ wbits 4 0 4 = 4 ∧ u.pack = 3 ∧
       u.fld F.PMU_PACK_STS_SOC = 10000 ∧ packed.admitsWrite host F.PMU_CTL.key 1 = true) ∧
    (let u := standby.stored F.PMU_CTL.key 2
     wbits 2 0 4 = 2 ∧ u.pst = pSTANDBY ∧ u.sys.power.hot = false ∧ standby.admitsWrite host F.PMU_CTL.key 2 = true) ∧
    (wbits 8 0 4 = 8 ∧ ((packed.setPack 6).stored F.PMU_CTL.key 8).pack = 6) ∧
    (let v := standby.stored F.PMU_RESET.key 0x5E7A0001
     wbits 0x5E7A0001 16 16 = 0x5E7A ∧ wbits 0x5E7A0001 0 2 = 1 ∧ wbits 0x5E7A0002 0 2 = 2 ∧ v.pst = pSTANDBY ∧
       standby.admitsWrite host F.PMU_RESET.key 0x5E7A0001 = true) := by decide +kernel

/-- A plugged module that answers. -/
def plugged : CmisInfo := ⟨true, 0x1E, 0x50, 24, false, 2, 1⟩
/-- Cage 7 READY with a module. -/
def caged (l : List (Fld × Nat)) : State :=
  (liveWith ([(F.CAGE_STS_STATE 7, 4), (F.CAGE_CTL_EN 7, 1)] ++ l)).setCage 7 ⟨some plugged, 0, 0, true⟩

theorem witness_port_writes :
    (wbit 1 0 = true ∧ wbit 1 1 = false ∧ live.admitsWrite host (F.ETH_CTL 7).key 1 = true) ∧
    (let s := liveWith [(F.ETH_MODE_APPLIED, 2)]
     wbit 2 0 = false ∧ wbit 2 1 = true ∧ (s.stored (F.ETH_CTL 7).key 2).portMode = 2 ∧
       s.admitsWrite host (F.ETH_CTL 7).key 2 = true) := by decide +kernel

theorem witness_cage_writes :
    (let s := caged []
     wbit 5 2 = true ∧ s.counted.bit (F.CAGE_CTL_HOSTOWN 7) = false ∧
       (s.stored (F.CAGE_CTL 7).key 5).bit (F.CAGE_CTL_HOSTOWN 7) = false ∧ s.admitsWrite host (F.CAGE_CTL 7).key 5 = true) ∧
    (let s := caged []
     let v := s.stored (F.CAGE_CTL 7).key 3
     s.counted.bit (F.CAGE_CTL_HOSTOWN 7) = false ∧ v.bit (F.CAGE_CTL_HOSTOWN 7) = true ∧ v.cageSt 7 ≠ cFAULT ∧
       v.cageSt 7 ≠ cOFF) ∧
    (let s := caged [(F.CAGE_CTL_HOSTOWN 7, 1)]
     let v := s.stored (F.CAGE_CTL 7).key 1
     s.counted.bit (F.CAGE_CTL_HOSTOWN 7) = true ∧ v.bit (F.CAGE_CTL_HOSTOWN 7) = false ∧ wbit 1 2 = false ∧
       v.cageSt 7 ≠ cFAULT ∧ (v.cage 7).info = some plugged ∧ v.cageMay 7 = true) ∧
    (let s := caged []
     wbit 0x8F8000001 0 = true ∧ s.counted.bit (F.CAGE_CMIS_CTL_BUSY 7) = false ∧
       (s.stored (F.CAGE_CMIS_CTL 7).key 0x8F8000001).cmisResult 7 = 0 ∧
       s.admitsWrite host (F.CAGE_CMIS_CTL 7).key 0x8F8000001 = true) := by decide +kernel

theorem witness_commit_writes :
    let u := live.stored F.CFG_CTL.key 1
    (u.fld F.CFG_STS_STATE = 0 ∧ wbits 1 0 4 = 1 ∧ wbits 2 0 4 = 2 ∧ wbits 8 0 4 = 8 ∧
      live.admitsWrite host F.CFG_CTL.key 1 = true) ∧
    (((liveWith [(F.CFG_STS_STATE, 1)]).stored F.CFG_CTL.key 1).fld F.CFG_STS_STATE = 1) ∧
    (((liveWith [(F.CFG_STS_STATE, 4)]).stored F.CFG_CTL.key 4).fld F.CFG_STS_STATE = 4 ∧ wbits 4 0 4 = 4) := by decide +kernel

/-- A component entry of a manifest that accepts every level. -/
def openComp (t : Nat) : List Byte :=
  leBytes 12 t ++ (upto 5).flatMap (fun _ => leBytes 4 0xFFFF0000) ++ List.replicate 48 0
/-- A slot whose manifest lists the five components. -/
def openSlot : Slot := { emptySlot with pages := pagesOf (List.replicate 120 0 ++ (upto 5).flatMap fun i => openComp (i + 1)) }
def openOf (t : Nat) : Comp := ⟨t, 0, 0, 0, List.replicate 5 (0, 65535), List.replicate 48 0⟩
/-- The module runs such an image from slot A and holds another in slot B. -/
def blank (st : Nat) : State := { liveWith [(F.FWU_STS_STATE, st), (F.FWU_STS_TARGET, 1)] with
  sys.fwu := { live.sys.fwu with a := openSlot, b := openSlot } }
theorem openSlot_levels : openSlot.levels = ⟨some (openOf 1), some (openOf 2), some (openOf 3), some (openOf 4)⟩ ∧
    openSlot.comp 5 = some (openOf 5) := by decide +kernel
theorem openSlot_sequence : sequenceOk openSlot openSlot = true := by
  have h : accepts (some (openOf 1)) 4 Config.hwLevel.toNat = true ∧ accepts (some (openOf 2)) 4 Config.hwLevel.toNat = true ∧
    accepts (some (openOf 3)) 4 Config.hwLevel.toNat = true ∧ accepts (some (openOf 4)) 4 Config.hwLevel.toNat = true := by
    have := Config.hwLevel.isLt
    simp [accepts, openOf, within]; omega
  obtain ⟨h1, h2, h3, h4⟩ := h
  have e : ∀ t i, i < 4 → accepts (some (openOf t)) i 0 = true := by
    intro t i hi
    have : i = 0 ∨ i = 1 ∨ i = 2 ∨ i = 3 := by omega
    obtain rfl | rfl | rfl | rfl := this <;> rfl
  have p : ∀ t, provided (some (openOf t)) = 0 := fun _ => rfl
  unfold sequenceOk Slot.cfgLevel
  rw [openSlot_levels.1, openSlot_levels.2, show openSlot.named = false from rfl]
  simp [mixLevels, Levels.ok, hwOk, h1, h2, h3, h4, portsMix, p, e]

theorem witness_update_writes :
    (let u := live.stored F.FWU_CTL.key 0x11
     wbit 0x11 4 = true ∧ u.fwuSt ≠ uUPDATING ∧ u.fwuSt ≠ uTRIAL ∧ u.fwuSt ≠ uREVERTING ∧ u.bit F.FWU_STS_BUSY = false ∧
       wbits 0x11 0 4 = 1 ∧ wbits 0x12 0 4 = 2 ∧ wbit 0x12 4 = true ∧ wbits 0x13 0 4 = 3 ∧ wbit 0x13 4 = true ∧
       live.admitsWrite host F.FWU_CTL.key 0x11 = true) ∧
    (let u := (liveWith [(F.FWU_ADDR_OFFSET, imageSize - 256)]).stored F.FWU_CTL.key 0x12
     u.fld F.FWU_ADDR_OFFSET % 256 = 0 ∧ u.fld F.FWU_ADDR_OFFSET < imageSize) := by decide +kernel

theorem witness_update_start :
    let s := blank 2
    let u := s.stored F.FWU_CTL.key 0x14
    wbit 0x14 4 = true ∧ wbits 0x14 0 4 = 4 ∧ wbit 0x14 5 = false ∧ wbit 0x14 6 = false ∧ u.bit F.FWU_STS_BUSY = false ∧
      u.fwuSt = uVERIFIED ∧ u.pst = pACTIVE ∧ s.home.hoff.phase = .idle ∧ u.fld F.CFG_STS_STATE ≤ 1 ∧
      u.nvSlot u.booted = openSlot ∧ u.nvSlot u.target = openSlot ∧ s.admitsWrite host F.FWU_CTL.key 0x14 = true := by decide +kernel

theorem witness_update_trial :
    (let u := (blank 4).stored F.FWU_CTL.key 0x15
     wbit 0x15 4 = true ∧ wbits 0x15 0 4 = 5 ∧ u.fwuSt = uTRIAL ∧ u.dataUp = true ∧
       (blank 4).admitsWrite host F.FWU_CTL.key 0x15 = true) ∧
    (let y := (blank 4).stored F.FWU_CONFIRM.key 0xF1C00001
     wbit 0xF1C00001 0 = true ∧ wbits 0xF1C00001 16 16 = 0xF1C0 ∧ y.fwuSt = uTRIAL ∧
       (blank 4).admitsWrite host F.FWU_CONFIRM.key 0xF1C00001 = true) := by decide +kernel

/-! Frames, without evaluating a CRC. -/

/-- The checks of R111 but the CRC. -/
def passesBut (s : State) (f : RxFrame) (h : CHdr) (p : List Byte) : Bool :=
  let e := engineOf s.portMode f.port 0
  s.hasPort f.port && (s.port f.port).ready && s.dstAccepted f && f.fcsGood && decide (f.tag ≠ .other) && !(s.takePflip 8 0 e).1
    && decide (f.etherType = 0x88B5) && decide (s.fld F.CDL_ETYPE_COLDEL = 0x88B5) && decide (s.fld F.CDL_ETYPE_PICOT ≠ 0x88B5)
    && decide (CHdr.parse f.body = h) && decide (h.plen = 8) && decide (h.ver = 1) && decide (h.type < 8)
    && decide (p.length = 64)

theorem takesFrame_of {s : State} {f : RxFrame} {h : CHdr} {p : List Byte} (hp : passesBut s f h p = true)
    (h15 : f.body = coldelBytes h p) :
    s.takesFrame f h p = true := by
  simp only [passesBut, Bool.and_eq_true, decide_eq_true_eq, Bool.not_eq_true'] at hp
  obtain ⟨⟨⟨⟨⟨⟨⟨⟨⟨⟨⟨⟨⟨h1, h2⟩, h3⟩, h4⟩, h5⟩, h6⟩, h7⟩, h8⟩, h9⟩, h10⟩, h11⟩, h12⟩, h13⟩, h14⟩ := hp
  have hl : (h.bytes ++ p).length = 88 := by simp [CHdr.bytes, h14]
  have ht : f.body.take 88 = h.bytes ++ p := by
    rw [h15]; unfold coldelBytes; exact List.take_left' hl
  have hc : crc32c (f.body.take 88) = BitVec.ofNat 32 (bytesAt f.body 88 4) := by
    rw [ht, h15]; unfold coldelBytes
    have := bytesAt_append_right (h.bytes ++ p) (leBytes 4 (crc32c (h.bytes ++ p)).toNat) 0 4
    rw [hl] at this
    rw [this, bytesAt_leBytes]
    apply BitVec.eq_of_toNat_eq
    have := (crc32c (h.bytes ++ p)).isLt
    simp only [BitVec.toNat_ofNat]
    omega
  have hn : f.body.length = 92 := by rw [h15]; unfold coldelBytes; rw [List.length_append, hl, length_leBytes]
  have hd : (f.body.take 88).drop 24 = p := by
    rw [ht]; exact List.drop_left' (by simp [CHdr.bytes])
  have hx : s.rxChecks f = (s, some (h, p)) := by
    have h13' : ¬ (8 ≤ h.type) := by omega
    simp [State.rxChecks, State.rxFilter, h3, h10, h11, h12, h7, h8, h4, h6, hc, hd, hn, h5, h13', Ne.symm h9]
  simp [State.takesFrame, h1, h2, h3, hx]

/-! Connections. -/

/-- The registers of a module that is node 1 and alone in its pool (member 0 holds extents 0 and 1), with connection 5 to node 2's agent 3
over ports 0 and 1, and tenant 1 allowed everything in extent 0, which slot 7 holds. -/
def wires : List (Fld × Nat) :=
  [(F.CDL_NODE_NODE, 1), (F.CDL_CONN_A_EN 5, 1), (F.CDL_CONN_A_PEER 5, 2), (F.CDL_CONN_A_AGENT 5, 3),
    (F.CDL_CONN_A_AGV 5, 1), (F.CDL_CONN_P 5, 0xA0010), (F.CDL_CONN_Q 5, 0xB0011), (F.TRN_CONN_BIND_BOUND 5, 1),
    (F.TRN_BSET_DATA 0, 2), (F.TRN_TENANT_EN 1, 1), (F.TRN_TENANT_KSLOT0 1, 1), (F.TRN_TENANT_KSLOT1 1, 1),
    (F.TRN_WIN_A 16, 0x1F), (F.TRN_WIN_B_SIZE 16, 1), (F.TRN_WIN_B_ETOFF 16, 0x1000000), (F.POOL_MEM_A_VALID 0 0, 1),
    (F.POOL_MEM_A_NODE 0 0, 1), (F.POOL_MAPDATA 0 0, 0x400040), (F.POOL_AGENT_INUSE 0 3, 1)]

/-- The path records of the connection's two paths. -/
def pathP : PathKey := ⟨0, 0, 0xA, 1⟩
def pathQ : PathKey := ⟨0, 1, 0xB, 1⟩

/-- The connection as it was opened at time 0. -/
def conn5 : Conn :=
  { engine := 0, peer := 2, agv := true, agent := 3, snoop := true, rcid := 9, risn := 0, maxpay := 65, opened := 0, isn := 0
    sndNxt := 0, sndUna := 0, rcvNxt := 0, sent := per4 0, got := per4 100, gotAt := per4 0, recv := per4 0
    grant := ⟨64, 512, 0, 256⟩, freed := per4 0, stored := [], rxq := [], replay := [], txq := per4 [], onAlt := false
    viewP := none, viewQ := none, holding := none, flushed := false, naks := [], rto := 0, grantAck := none, audit := none
    auditDue := false, lastAudit := 0 }

/-- The module with the connection open, at time `now`. -/
def wired (c : Conn) (now : Nat) : State :=
  let s := liveWith wires
  { s with
    now := now
    mem.etr := [(0x1000000, 0x701)]
    link.ports := [(0, ⟨true, true, true⟩), (1, ⟨true, true, true⟩)]
    link.conns := [(5, c)]
    link.paths := [(pathNum pathP, ⟨pathP, .up, 0, 0, 0, [], 0⟩), (pathNum pathQ, ⟨pathQ, .up, 0, 0, 0, [], 0⟩)] }

/-- A Coldel frame of a type that arrives from node 2 on the primary path. -/
def frameOf (type : Nat) (payload : List Byte) : RxFrame :=
  ⟨0, true, 0xFFFFFFFFFFFF, 0xA, .ctag 1 0, 0x88B5,
    coldelBytes ⟨1, type, 0, false, false, false, 5, 0, 0, 8, 100, 100, 100, 100⟩ payload⟩
/-- The header of such a frame. -/
def hdrOf (type : Nat) : CHdr := ⟨1, type, 0, false, false, false, 5, 0, 0, 8, 100, 100, 100, 100⟩
/-- 64 bytes of payload. -/
def noPayload : List Byte := List.replicate 64 0

theorem witness_frames : ∀ t, t ∈ [0, 1, 2, 3, 5, 6, 7] →
    (wired conn5 0).takesFrame (frameOf t noPayload) (hdrOf t) noPayload = true ∧
      (wired conn5 0).pathOfConn 5 (frameOf t noPayload) = true := by
  have h : [0, 1, 2, 3, 5, 6, 7].all (fun t => passesBut (wired conn5 0) (frameOf t noPayload) (hdrOf t) noPayload
      && (wired conn5 0).pathOfConn 5 (frameOf t noPayload)) = true := by decide +kernel
  intro t ht
  have := List.all_eq_true.mp h t ht
  rw [Bool.and_eq_true] at this
  exact ⟨takesFrame_of this.1 rfl, this.2⟩

theorem witness_open : (wired conn5 0).conn 5 = some conn5 ∧ (wired conn5 0).dataUp = true ∧
    ((((wired conn5 0).rxGrants 5 (hdrOf 3)).rxAck 5 0 pathP).conn 5).isSome = true := by decide +kernel

/-- The payload of a CONNECT of node 2's agent 3 with its connection ID 9. -/
def connectBytes : List Byte :=
  pad64 (leBytes 12 (2 + 2 ^ 16 * 1 + 2 ^ 32 * 9 + 2 ^ 48 * 0 + 2 ^ 72 * 65 + 2 ^ 80 * 3 + 2 ^ 90 * 1))

theorem witness_connect :
    let s := wired conn5 0
    let f := frameOf 4 connectBytes
    let p := parseConnect connectBytes
    passesBut s f (hdrOf 4) connectBytes = true ∧ s.bit (F.CDL_CONN_A_EN 5) = true ∧ s.pathOfConn 5 f = true ∧
      p.srcNode.toNat = s.fld (F.CDL_CONN_A_PEER 5) ∧ p.dstNode = s.node ∧ s.node ≠ 0xfff ∧ p.agv = true ∧
      s.bit (F.CDL_CONN_A_AGV 5) = true ∧ p.agent.toNat = s.fld (F.CDL_CONN_A_AGENT 5) ∧ p.maxpay = 65 ∧
      grantsShort p (hdrOf 4) = false ∧ s.conn 5 = some conn5 ∧ conn5.rcid = p.srcCid ∧ conn5.risn = p.isn ∧
      ({ s with link.conns := [] } : State).conn 5 = none ∧
      passesBut { s with link.conns := [] } f (hdrOf 4) connectBytes = true ∧
      countIf (({ s with link.conns := [] } : State).closeConn 5 8).link.conns (fun e => decide (e.2.engine = 0)) < 2048 := by
  decide +kernel

theorem witness_connect_taken : (wired conn5 0).takesFrame (frameOf 4 connectBytes) (hdrOf 4) connectBytes = true :=
  takesFrame_of witness_connect.1 rfl

/-- A pause frame and a PFC frame; a Sync of domain 0. -/
def pauseFrame (hi : Byte) : RxFrame := ⟨0, true, 0x0180C2000001, 0xA, .none, 0x8808, [hi, 1]⟩
def syncFrame : RxFrame := ⟨0, true, 0x011B19000000, 0xA, .none, 0x88F7, [0x10, 0x02] ++ List.replicate 42 0⟩
theorem witness_port_frames :
    (let s := wired conn5 0
     s.hasPort 0 = true ∧ (s.port 0).link = true ∧ s.locked = false ∧ { pauseFrame 0 with fcsGood := false }.fcsGood = false ∧
       (pauseFrame 0).fcsGood = true ∧ s.dstAccepted (pauseFrame 0) = true ∧ (pauseFrame 0).tag ≠ .other ∧
       (pauseFrame 0).etherType = 0x8808 ∧ bytesAt (pauseFrame 0).body 1 1 + 256 * bytesAt (pauseFrame 0).body 0 1 = 0x0001 ∧
       bytesAt (pauseFrame 1).body 1 1 + 256 * bytesAt (pauseFrame 1).body 0 1 = 0x0101) ∧
    (let s := setAll (wired conn5 0) [(F.CDL_PTP_ROLE, 1), (F.CDL_PTP_PORTS, 1)]
     s.regsOk = true ∧ s.hasPort 0 = true ∧ (s.port 0).link = true ∧ syncFrame.fcsGood = true ∧ s.dstAccepted syncFrame = true ∧
       syncFrame.tag ≠ .other ∧ syncFrame.etherType = 0x88F7 ∧ isSync (s.fld F.CDL_PTP_DOMAIN) syncFrame.body = true ∧
       s.fld F.CDL_PTP_ROLE ≠ 0 ∧ bitsOf (s.fld F.CDL_PTP_PORTS) syncFrame.port 1 = 1) ∧
    (let s : State := { liveWith [(F.MTR_PTPSTS_STATE, 2)] with now := 2000000000 }
     s.fld F.MTR_PTPSTS_STATE = 2 ∧ s.sys.ptp.lastSync + 2000000000 ≤ s.now) ∧ live.fld F.MTR_PTPSTS_STATE ≠ 2 := by
  decide +kernel

/-- A message that waits in TC2. -/
def waitingAck : OutMsg := ⟨.resp ⟨.ack, 0, false, 1, 1, 3, 0, 0, 0, 0, 0, 0⟩, none, false⟩
/-- A sent packet that waits for its ACK. -/
def sentPkt : RepEntry := ⟨⟨0, 2, 0, 8, noPayload⟩, false, [], false⟩

theorem witness_connection_timers :
    (let c := { conn5 with grantAck := some 0 }
     (wired c 1000).conn 5 = some c ∧ c.grantAck = some 0 ∧ (0 : Nat) + 1000 ≤ (wired c 1000).now) ∧
    (let c := { conn5 with txq := conn5.txq.set 2 [waitingAck] }
     c.nextPack 2 ≠ [] ∧ c.holding = none ∧ (wired c 0).pathView 5 c c.onAlt = .up ∧ (wired c 0).mayFly 5 c = true) ∧
    (let c := { conn5 with replay := [sentPkt] }
     c.replay = [sentPkt] ∧ c.rto + 4000 ≤ (wired c 4000).now ∧ c.holding = none ∧ sentPkt.bad = false) ∧
    (let c := { conn5 with txq := conn5.txq.set 2 [waitingAck], got := per4 0 }
     let s := wired c (wired c 0 |>.fld F.CDL_TIMERS_CREDIT_TO |> (· * 1000))
     c.starved 2 = true ∧ c.holding = none ∧ c.gotAt.get 2 + s.fld F.CDL_TIMERS_CREDIT_TO * 1000 ≤ s.now) ∧
    (let c := { conn5 with auditDue := true }
     c.auditDue = true ∧ c.lastAudit + 100000 ≤ (wired c 100000).now) ∧
    (let c := { conn5 with holding := some 0 }
     let s := wired c (wired c 0).graceNs
     c.holding = some 0 ∧ c.flushed = false ∧ 0 + s.graceNs ≤ s.now) := by decide +kernel

theorem witness_path_timers :
    (let s := wired conn5 1000
     s.dataUp = true ∧ s.path pathP = some ⟨pathP, .up, 0, 0, 0, [], 0⟩ ∧ s.onPath pathP = [(5, false)] ∧ s.inFlight pathP = 0 ∧
       (wired conn5 6000).path pathP = some ⟨pathP, .up, 0, 0, 0, [], 0⟩) ∧
    (let r : PathRec := ⟨pathP, .returning, 0, 0, 0, [], 0⟩
     let s := (wired { conn5 with onAlt := true } 10000000).putPath { r with lastProof := 9999000 }
     s.dataUp = true ∧ s.path pathP = some { r with lastProof := 9999000 } ∧ s.now < 9999000 + 6000 ∧
       0 + s.failbackNs ((s.onPath pathP).any fun x => s.noUpPath x.1) ≤ s.now) := by decide +kernel

/-! Requests and what members forward. -/

/-- The header of a request of agent 3 for tenant 1 at line 1 of its address space. -/
def hdr0 : ReqHdr := ⟨0, false, false, 1, 7, 3, 0x40⟩

/-- Every request of tenant 1 is taken, bound and translated, and is not served by a replica. -/
theorem witness_requests : [ReqOp.readShared, .readOwn, .upgrade, .readNoCache, .writeNoCache, .writeBack, .evictClean, .fetchAdd,
      .swap, .compareSwap, .fence].all (fun op =>
      let r := mkReq op hdr0 0 0 0 0
      let s := wired conn5 0
      let u := s.takeMsg 5 1 (fun m => m = .req r)
      let x := { u with home.nextId := u.home.nextId + 1 }
      let y := { x with home.oreqs := x.home.oreqs ++ [(⟨u.home.nextId, 5, conn5.opened, r, 0, none, none⟩ : OReq)] }.translate
        (engineDie conn5.engine) hdr0.txid.toNat hdr0.tenant.toNat op hdr0.addr.toNat
      s.inTurn 5 1 (fun m => m = .req r) && conn5.msgsOk 1 [.req r] && decide (x.bound 5 1 = some true) && !x.isDetached conn5.agent && decide (y.2 = .ok 0x40 7 0)
        && !(y.1.serveReplica 5 r 0x40).2 && decide (u.home.oreqs = [])) = true := by decide +kernel

/-- A snoop that this home has sent to agent 3, and its answer. -/
def snoop0 : FwdSnp := ⟨none, ⟨.shared, 1, 0, 3, 0x40⟩, 3, true, none⟩
theorem witness_snoops :
    let s : State := { wired conn5 0 with home.fwdSnps := [snoop0] }
    let a : SnpResp := ⟨0, false, false, 1, 0, 3, 0x40, none⟩
    s.conn 5 = some conn5 ∧ s.dataUp = true ∧ s.inTurn 5 3 (fun m => m = .snpRsp a) = true ∧ conn5.msgsOk 3 [.snpRsp a] = true ∧
      conn5.msgsOk 3 [.snpRsp { a with data := some 0 }] = true ∧
      ((s.takeMsg 5 3 fun m => m = .snpRsp a).home.fwdSnps.find? fun g => g.relay.isNone && g.sent &&
        decide (g.snp.agent = 3) && decide (g.snp.snptx = 0) && decide (g.snp.pa = 0x40)) = some snoop0 := by decide +kernel

/-- The channel to node 2, as it starts. -/
def chan2 : Chan :=
  { id := ⟨false, 2⟩, state := .up, alt := false, brokenP := false, brokenQ := false, rgen := some 5, lastRgen := none, base := 0
    units := [], expect := 1, discarding := false, stream := [], rxq := [], txq := [], loose := [], msgs := [], lastGood := 0, lastSent := 0
    timer := 0, downSince := none, flushed := false, skew := false, dead := false }

/-- The module with node 2 as member 1, a home with extents 2 and 3, and its channel. -/
def pooled (c : Chan) (now : Nat) (l : List (Fld × Nat)) : State :=
  let s := setAll (wired conn5 now) ([(F.POOL_MEM_A_VALID 0 1, 1), (F.POOL_MEM_A_NODE 0 1, 2), (F.POOL_MAPDATA 0 0, 0x41004100400040)] ++ l)
  { s with home.chans := [c] }

theorem witness_forwarded :
    let s := pooled chan2 0 []
    let r := mkReq .readShared { hdr0 with agent := 3 } 0 0 0 0
    let env : Envelope := ⟨2, 5, 0, 7⟩
    let u := s.takeP ⟨false, 2⟩
    let h : HReq := ⟨⟨2, 5, 7⟩, false, s.chanRxEngine ⟨false, 2⟩, 7, r, 3, u.home.confGen⟩
    s.chanNext ⟨false, 2⟩ (fun m => m = .fwdToHome env (.req r)) = true ∧
    (u.home.hoff.phase = .idle ∧ u.home.hoff.newHolder = false ∧ u.tblBad (mapKey false h.pa) = false ∧
      u.mapMember false h.pa = some 0 ∧ u.poolOk false 0 r = true ∧ u.memNode false 0 = u.node ∧
      env.epoch.toNat = u.memEpoch false 0 ∧ u.memUplink false 0 = false) ∧
    tget s.home.relays env.oconn.toNat = none ∧ s.relayOf 2 5 7 = none ∧ s.movedKey ⟨2, 5, 7⟩ = false := by decide +kernel

/-! The pool. -/

/-- A Picot frame of one unit, the first after the start, from node 2 on the channel's path. -/
def picotOne : RxFrame :=
  ⟨0, true, 0xFFFFFFFFFFFF, 0xA, .ctag 1 0, 0x88B6,
    leBytes 8 (1 + 1 * 2 ^ 8 + 2 * 2 ^ 16 + 1 * 2 ^ 32 + 1 * 2 ^ 48) ++ List.replicate 64 0⟩

theorem witness_picot_frame :
    let s := pooled chan2 0 [(F.CDL_ETYPE_PICOT, 0x88B6), (F.POOL_MEM_P 0 1, 0xA0010)]
    let f := picotOne
    let n := bytesAt f.body 0 8
    s.dataUp = true ∧ s.chan ⟨false, 2⟩ = some chan2 ∧ s.hasPort f.port = true ∧ (s.port f.port).ready = true ∧ f.fcsGood = true ∧
      s.dstAccepted f = true ∧ f.tag ≠ .other ∧ (s.takePflip 8 0 (engineOf s.portMode f.port 0)).1 = false ∧
      f.etherType.toNat = s.fld F.CDL_ETYPE_PICOT ∧ bitsOf n 0 4 = 1 ∧ bitsOf n 8 8 = 1 ∧ f.body.length = 8 + 64 * bitsOf n 8 8 ∧
      bitsOf n 32 12 = s.node.toNat ∧ BitVec.ofNat 12 (bitsOf n 16 12) = (2 : NodeId) ∧ pathTaken f = s.chanPath ⟨false, 2⟩ false ∧
      bitsOf n 48 15 ≠ 0 ∧ chan2.state ≠ .start ∧ chan2.dead = false := by decide +kernel

theorem witness_channel_timers :
    (let c := { chan2 with units := [List.replicate 60 0] }
     (pooled c 4000 []).chan ⟨false, 2⟩ = some c ∧ c.state ≠ .start ∧ c.dead = false ∧ c.units ≠ [] ∧
       c.timer + 4000 ≤ (pooled c 4000 []).now) ∧
    (let c := { chan2 with state := .down, units := [List.replicate 60 0], brokenP := true, brokenQ := true }
     (pooled c 4000 []).chan ⟨false, 2⟩ = some c ∧ c.state = .down ∧ c.units ≠ [] ∧ c.timer + 4000 ≤ (pooled c 4000 []).now ∧
       c.lastSent + 1000 ≤ (pooled c 4000 []).now) ∧
    (let s := pooled chan2 6000 []
     chan2.state ≠ .start ∧ chan2.txq = [] ∧ chan2.units.length < 1024 ∧ chan2.lastSent + 1000 ≤ s.now ∧ chan2.lastGood + 6000 ≤ s.now ∧
       s.chanHasAlt ⟨false, 2⟩ = false ∧ (pooled chan2 0 [(F.POOL_MEM_Q 0 1, 0xB0011)]).chanHasAlt ⟨false, 2⟩ = true) ∧
    (let c := { chan2 with state := .start }
     (pooled c 100000 []).chan ⟨false, 2⟩ = some c ∧ c.lastSent + 100000 ≤ (pooled c 100000 []).now) ∧
    (let c := { chan2 with state := .down, downSince := some 0 }
     let s := pooled c ((pooled c 0 []).graceNs) []
     s.chan ⟨false, 2⟩ = some c ∧ c.downSince = some 0 ∧ c.flushed = false ∧ c.state ≠ .up ∧ 0 + s.graceNs ≤ s.now) := by decide +kernel

theorem witness_chan_start :
    let c := { chan2 with state := .start }
    let s := pooled c 0 []
    let u := s.takeP ⟨false, 2⟩
    s.chanNext ⟨false, 2⟩ (fun m => m = .chanStart true 2 s.node false 5 s.home.rgen 0) = true ∧ u.chan ⟨false, 2⟩ = some c ∧
      c.dead = false ∧ (0 : BitVec 32).toNat = u.fld (F.POOL_VER_VERSION (bankNo false)) ∧ c.rgen = some 5 ∧ c.rgen ≠ some 6 ∧
      c.lastRgen = none := by decide +kernel

/-- A write that waits for its sequence number. -/
def seqTx : HTx := { freshTx 0x40 7 0 ⟨0, .free, false, false, 0, [], 0⟩ none .seq with tag := 9, due := 5 }
theorem witness_sequencing :
    let s := pooled chan2 0 [(F.POOL_ROLES_BOBV 0, 1), (F.POOL_ROLES_BOBBIN 0, 0)]
    (s.isBobbin = true ∧ (0 : BitVec 16).toNat = s.fld (F.POOL_ROLES_BEPOCH 0) ∧ s.gsnKnown = true ∧ s.dataUp = true ∧
      (2 : NodeId) ≠ s.node ∧ s.appliedOf 2 = none) ∧
    (({ s with home.applied := [(false, 2, 4)] } : State).appliedOf 2 = some 4 ∧ follows48 5 4 = true) ∧
    ((s.setApplied 2 5).applyReplica 0x40 0).1.node = s.node := by decide +kernel

theorem witness_seq_resend :
    let t : State := { pooled chan2 5 [] with home.txs := [(0x40, seqTx)] }
    (0x40, seqTx) ∈ t.home.txs ∧ seqTx.phase = .seq ∧ seqTx.tag = 9 ∧ seqTx.due ≠ 0 ∧ seqTx.due ≤ t.now :=
  ⟨List.mem_singleton.mpr rfl, rfl, rfl, by decide, by decide⟩

/-- Channel 0 in service with 64 GiB, and 512 frames to lend. -/
def withDram : State :=
  pooled chan2 0 [(F.MEM_STS_READY 0, 1), (F.MEM_CFG_CAPGIB 0, 64), (F.MEM_CFG_DPC 0, 1), (F.MEM_CFG_RANKS 0, 1), (F.TIER_LEND_LEND, 1)]

theorem withDram_lends : withDram.lent < 512 * withDram.fld F.TIER_LEND_LEND ∧ withDram.lowLevel 0 < withDram.freeFrames 0 ∧
    (withDram.searchFrame 0 (24 * (withDram.mem.ftab.length + 2)) (24 * withDram.reservedDie 0)).isSome = true ∧
    withDram.entryOf false 2 = some 1 ∧ withDram.isHomeEntry false 1 = true ∧ withDram.dataUp = true := by decide +kernel

theorem searchFrame_allocatable (s : State) (d : Nat) : ∀ n f g, s.searchFrame d n f = some g →
    frameDie g = d ∧ s.allocatable g = true
  | 0, _, _, h => by simp [State.searchFrame] at h
  | n + 1, f, g, h => by
    unfold State.searchFrame at h
    split at h
    · next hf => cases h; exact hf
    · exact searchFrame_allocatable s d n _ _ h

/-- A lender has a frame to give, whichever it is. -/
theorem witness_lend : ∃ (s v : State) (f n : Nat), s = withDram ∧ s.entryOf false 2 = some 1 ∧ s.isHomeEntry false 1 = true ∧
    s.pickFrame 0 = some f ∧ s.mayLend f = true ∧ s.lendRun 2 (min (1 : BitVec 32).toNat 512) f = (v, n) ∧ n ≠ 0 := by
  obtain ⟨h1, h2, h3, h4, h5, -⟩ := withDram_lends
  have hp : ∃ f, withDram.pickFrame 0 = some f ∧ frameDie f = 0 ∧ withDram.allocatable f = true := by
    unfold State.pickFrame
    by_cases hc : frameDie (Config.framePick withDram.free) = 0 ∧ withDram.allocatable (Config.framePick withDram.free) = true
    · exact ⟨_, if_pos hc, hc⟩
    · rw [if_neg hc]
      obtain ⟨g, hg⟩ := Option.isSome_iff_exists.mp h3
      exact ⟨g, hg, searchFrame_allocatable _ _ _ _ _ hg⟩
  obtain ⟨f, hf, hd, ha⟩ := hp
  have hm : withDram.mayLend f = true := by simp [State.mayLend, ha, h1, hd, h2]
  refine ⟨withDram, _, f, _, rfl, h4, h5, hf, hm, rfl, ?_⟩
  show (withDram.lendRun 2 1 f).2 ≠ 0
  simp [State.lendRun, hm]

/-- Frame 24 of a lender is lent to node 2; a read and an ask of its own wait. -/
def lending : State :=
  { withDram with
    mem.ftab := [(24, ftabWord fLENT 0 2)]
    mem.lendAsk := some 4
    home.rems := [⟨6, 0, 0x1000, 2, 0, 30, 0, false⟩] }

theorem witness_lending :
    lending.mem.lendAsk = some 4 ∧ lending.lentTo 24 2 = true ∧
      (match (lending.readRaw nobody 24 3 srcLender).2 with | .line _ _ => true | _ => false) = true ∧
      (lending.home.rems.find? fun x => decide (x.tag = 6) && decide (x.lender = 2)) = some ⟨6, 0, 0x1000, 2, 0, 30, 0, false⟩ ∧
      (0x1000 : Nat) ≠ 2 ^ 52 := by decide +kernel

/-- A handoff in a phase with node 2. -/
def handing (p : HoffPhase) : Hoff := { idleHoff with phase := p, peer := 2, toIdx := 1 }
theorem witness_handoff_steps :
    (let s : State := { pooled chan2 0 [(F.POOL_MEM_A_SPARE 0 0, 1)] with home.hoff := handing .receiving }
     s.mayReceive 2 = true ∧ s.home.hoff.phase = .receiving ∧ tget s.home.relays 5 = none) ∧
    (let s : State := { pooled chan2 0 [] with home.hoff := handing .copy }
     s.chan ⟨false, s.home.hoff.peer⟩ = some chan2 ∧ s.home.hoff.phase = .copy ∧ chan2.txq = []) ∧
    (let c := { chan2 with state := .down, downSince := some 0 }
     let s : State := { pooled c ((pooled c 0 []).graceNs + 1) [] with home.hoff := handing .ready }
     s.chan ⟨false, s.home.hoff.peer⟩ = some c ∧ 0 + s.graceNs < s.now) ∧
    (let s : State := { pooled chan2 1000000 [] with home.hoff := handing .window }
     s.home.hoff.phase = .window ∧ s.home.hoff.newHolder = false ∧ s.home.hoff.since + 1000000 ≤ s.now ∧
       ({ s with home.hoff := { handing .window with newHolder := true } } : State).home.hoff.newHolder = true) := by decide +kernel

theorem witness_declare :
    let s := pooled chan2 0 []
    let w : Word := BitVec.ofNat 64 (F.POOL_DECLARE_DEAD_GO.into (F.POOL_DECLARE_DEAD_NODE.into 0 2) 1).toNat
    let u := s.stored F.POOL_DECLARE_DEAD.key w
    s.dataUp = true ∧ F.POOL_DECLARE_DEAD_GO.of w = 1 ∧ u.bit F.POOL_DEAD_STS_BUSY = false ∧ F.POOL_DECLARE_DEAD_BANK.of w = 0 ∧
      s.admitsWrite host F.POOL_DECLARE_DEAD.key w = true := by decide +kernel

theorem witness_handoff_writes :
    (let s := pooled chan2 0 [(F.POOL_MEM_A_SPARE 0 1, 1)]
     let w : Word := F.POOL_HOFF_GO.into (F.POOL_HOFF_TO.into 0 1) 1
     let u := s.stored F.POOL_HOFF.key w
     F.POOL_HOFF_TO.of w = 1 ∧ F.POOL_HOFF_GO.of w = 1 ∧ u.home.hoff.phase = .idle ∧ u.chan ⟨false, u.memNode false 1⟩ = some chan2 ∧
       u.spareUp 1 = true ∧ s.admitsWrite host F.POOL_HOFF.key w = true) ∧
    (let s : State := { pooled chan2 0 [] with home.hoff := handing .copy }
     let w : Word := F.POOL_HOFF_ABORT.into 0 1
     F.POOL_HOFF_GO.of w = 0 ∧ F.POOL_HOFF_ABORT.of w = 1 ∧ (s.stored F.POOL_HOFF.key w).home.hoff.phase = .copy ∧
       s.admitsWrite host F.POOL_HOFF.key w = true) := by decide +kernel

theorem witness_assign :
    (let a : Assign := ⟨0, 0, 1, 1⟩
     let s : State := { withDram with home.assign := some a }
     s.home.assign = some a ∧ s.mapMember false (a.paext * 2 ^ 21) = some 0 ∧ s.memNode false 0 = s.node ∧
       s.slotsUsed + 1 ≤ s.effCapacity ∧ s.extentInUse a.paext = false ∧ s.lowestFree = some 0 ∧ s.dataUp = true) ∧
    (let a : Assign := ⟨1, 7, 1, 0⟩
     let s : State := { withDram with home.assign := some a, mem.etr := [(7, usedEntry 0)] }
     a.op = 1 ∧ s.recalls a = some 0 ∧ s.recalled a.slot 0 = true ∧ s.recalls { a with op := 2 } = some 0) := by decide +kernel

/-! Tiers, memory, metering and power. -/

/-- Page 5 of slot 7 stands in frame 24 (tier 0), page 6 is warm, and slot 7 is in use; a migration of each runs. -/
def mig0 (page : Nat) (k : MigKind) : Mig := ⟨page, page * 4096, k, 0, .trigger, true, false, [], [], [], .frame 48⟩
def tiered (page : Nat) (tier : Nat) (k : MigKind) (now : Nat) : State :=
  { withDram with
    now := now
    mem.etr := [(7, usedEntry 0)]
    mem.tmap := [(page, baseDesc 0 tier false 0 24)]
    mem.migs := [mig0 page k] }

theorem witness_tier :
    (withDram.dataUp = true ∧ ({ withDram with mem.scanAt := 0, mem.etr := [(7, usedEntry 0)] } : State).nextUsed 0 = some 7 ∧
      (let s : State := { withDram with now := 2000000000 }
       s.mem.heatEpoch ≠ s.epoch)) ∧
    (let s := tiered 3590 tierWARM .promote 4000
     s.migOf 3590 = some (mig0 3590 .promote) ∧ s.now ≤ (mig0 3590 .promote).since + 4000 ∧ dTier (s.desc 3590) = tierWARM ∧
       (mig0 3590 .promote).dest = .frame 48 ∧ (mig0 3590 .promote).waiting = [] ∧ (mig0 3590 .promote).since + 4000 ≤ s.now) ∧
    (let s := tiered 3589 tierHOT .demote 4000
     s.migOf 3589 = some (mig0 3589 .demote) ∧ dTier (s.desc 3589) = tierHOT ∧ (mig0 3589 .demote).sent = false ∧
       (mig0 3589 .demote).waiting = []) := by decide +kernel

/-- A DIRTY segment of the warm page, and a state without it. -/
def dirtySeg : SEntry := ⟨24, 0, some 0, 0, false⟩
theorem witness_segments :
    (let s : State := { tiered 3590 tierWARM .promote 20000 with mem.scache := [((pageDie 3590 * 128 + 24) * 16 + 2, dirtySeg)] }
     s.segEntry (pageDie 3590) ((s.pagePa 3590 + 1024 * 0) / 1024) = some ((pageDie 3590 * 128 + 24) * 16 + 2, dirtySeg) ∧
       s.isWarm 3590 = true ∧ s.storeDue (pageDie 3590) ((s.pagePa 3590 + 1024 * 0) / 1024) dirtySeg = true) ∧
    (let s := tiered 3590 tierWARM .promote 0
     s.segEntry (pageDie 3590) ((s.pagePa 3590 + 1024 * 3) / 1024) = none ∧ s.isWarm 3590 = true ∧
       s.segLost 3590 3 = false) ∧
    (let s : State := { setAll withDram [(F.CMP_ENGSTS_DEC0, 1), (F.CMP_ENGSTS_COMP1, 2)] with sys.test := some (0, 0) }
     s.dataUp = true ∧ s.sys.test = some (0, 0) ∧ s.decUp 0 ≠ 0 ∧ s.compUp 1 ≠ 0) := by decide +kernel

theorem witness_memory :
    (let s : State := { setAll withDram [(F.ECC_SCRUB_EN, 1)] with mem.layout := [1] }
     (63 : Nat) < 64 ∧ 48 / 24 < s.chanFrames (frameChan 48) ∧
       (match (s.readRaw nobody 48 63 (sourceCode .demand)).2 with | .line _ _ => true | _ => false) = true ∧
       s.bit F.ECC_SCRUB_EN = true ∧ s.nextPatrol 0 = some 0 ∧ s.chReady 0 = true) ∧
    (let e : MergeEntry := ⟨0, 9, 0, 1, 0, 0, 1, false⟩
     let s : State := { withDram with now := 250, mem.merge := [e] }
     s.mergeOf 9 = some e ∧ e.since + 250 ≤ s.now) ∧
    (decide ((85 : Int) < 86) = true ∧ decide ((85 : Int) < 85) = false ∧ (95 : Int) < 96 ∧ (89 : Int) < 90 ∧ (23 : Nat) < 24) := by
  decide +kernel

theorem witness_metering :
    (let s : State := { metered with now := 59999999500, meter.running := true }
     (setAll s [(F.MTR_CFG_INTERVAL, 60)]).boundaryDue = true ∧ (setAll s [(F.PRF_DUMP_MS, 1000)]).dumpDue = true) ∧
    (let s := liveWith [(F.MTR_PTPCFG_PPSIN, 1), (F.MTR_PTPCFG_PPSOUT, 1)]
     s.bit F.MTR_PTPCFG_PPSIN = true ∧ s.sys.ptp.ppsIn = none ∧
       ({ s with now := 600000000, sys.ptp.ppsIn := some 100000000 } : State).sys.ptp.ppsIn = some 100000000 ∧
       100000000 + 500000000 ≤ ({ s with now := 600000000 } : State).now ∧ s.bit F.MTR_PTPCFG_PPSOUT = true ∧
       s.sys.ptp.ppsOut < ({ s with now := 1000000000 } : State).now / 1000000000) ∧
    ({ live with samples := [16 * 8 + 7] } : State).samples.contains (16 * 8 + 7) = true := by decide +kernel

/-- The module in a power state with its feeds. -/
def powered (st a b : Nat) : State := liveWith [(F.PMU_STATE_STATE, st), (F.PMU_STATE_FEEDA, a), (F.PMU_STATE_FEEDB, b)]
theorem witness_power :
    ((powered 2 0 1).fld (feedFld .a) ≠ 2 ∧ (powered 2 0 1).fld (feedFld .b) ≠ 2) ∧
    ((powered 1 2 2).fld (feedFld .a) = 2 ∧ (powered 1 2 2).sys.start.powered = true ∧ (10799 : Nat) < 10800 ∧ (5999 : Nat) < 6000) ∧
    (let s : State := { powered 2 1 1 with now := (live.fld F.PMU_CFG_RIDE_MS) * 1000000 }
     s.pst = 2 ∧ s.sys.power.windowAt + s.fld F.PMU_CFG_RIDE_MS * 1000000 ≤ s.now) ∧
    ((powered 3 0 0).pst = 3 ∧ (powered 3 0 0).sys.power.resuming = false ∧ (powered 3 0 0).inputGood = false) ∧
    (let s : State := { powered 3 2 2 with sys.power.toStby := true }
     s.pst = 3 ∧ s.inputGood = true ∧ s.sys.power.toStby = true) ∧
    ((powered 4 0 2).pst = 4 ∧ (powered 4 0 2).fld (feedFld .b) = 2) ∧
    ((powered 4 0 0).pst = 4 ∧ (powered 4 0 0).inputGood = false) ∧ live.locked = false ∧
    (let s : State := { powered 6 0 0 with locked := true }
     s.locked = true ∧ s.fld F.PMU_STATE_FEEDA = 0 ∧ s.fld F.PMU_STATE_FEEDB = 0) := by decide +kernel

/-- A module with a LiFePO4 pack in a state. -/
def packIn (st : Nat) : State := liveWith [(F.PMU_STATE_PACK, st), (F.PMU_PACK_CFG_CHEM, 1), (F.PMU_PACK_CFG_GAUGE, 1)]
theorem witness_pack :
    ((packIn 6).pack = 6 ∧ (packIn 3).chem ≠ 0 ∧ packBand (packIn 3).chem 20 = .normal ∧
      (packIn 3).bit F.PMU_PACK_CFG_GAUGE = true ∧ (packIn 3).sys.power.gaugeOff = false ∧ (packIn 3).sys.start.powered = true ∧
      2 ≤ ({ packIn 3 with sys.power.gaugeMiss := 2 } : State).sys.power.gaugeMiss ∧ (packIn 2).pack = 2 ∧
      (packIn 2).sys.power.noCharge = false ∧ (packIn 1).pack = 1) ∧
    (let s : State := { packIn 3 with sys.power.charged := true }
     s.chem = 1 ∧ s.sys.power.charged = true ∧ s.fld F.PMU_PACK_STS_SOC < 9700 ∧ s.pack = 3) := by decide +kernel

/-! Start, ports, cages, commits, updates and CSR access. -/

/-- A start at which shelf 1's straps are read and no channel is populated. -/
def noStart : StartIn := ⟨1, true, [], 0, 0, 0, 1, 1⟩
/-- The module starts, in a phase. -/
def starting (phase : Nat) : State :=
  { setAll (powered 7 2 2) [(F.FWU_BOOT_PHASE, phase), (F.MEM_STS_READY 0, 1), (F.MEM_STS_READY 12, 1)] with
    sys.start := { live.sys.start with inp := some noStart, kind := 2 } }

theorem witness_start :
    (let s := setAll State.reset [(F.PMU_STATE_FEEDA, 1)]
     s.sys.start.powered = false ∧ s.fld F.PMU_STATE_FEEDA ≠ 0) ∧
    (let s := starting 5
     let u := (s.setFld F.TRN_CFG_SLOTS s.slotCount).setFld F.FWU_BOOT_PHASE 8
     s.sys.start.inp = some noStart ∧ s.pst = 7 ∧ s.fld F.FWU_BOOT_PHASE = 5 ∧ s.inputGood = true ∧ s.sys.start.kind = 2 ∧
       u.diesUp = true) ∧
    (live.csrUp = true ∧ live.sys.csr.mcDown = false ∧ live.sys.csr.owed = [] ∧ live.sys.csr.owedMgt = [] ∧
      ({ live with sys.csr := { live.sys.csr with mcDown := true } } : State).sys.csr.mcDown = true) ∧
    ((powered 1 2 2).pst = 1 ∧ (powered 2 2 2).pst = 2 ∧ (powered 2 2 2).sys.start.powered = true) ∧
    (let s : State := { starting 1 with sys.start.rstHeld := true }
     s.sys.start.rstHeld = true ∧ s.sys.start.inp = some noStart ∧ s.pst = 7 ∧ s.sys.start.powered = true ∧
       s.fld F.FWU_BOOT_PHASE = 1) := by decide +kernel

theorem witness_resume :
    let s : State := { setAll (powered 4 2 2) [(F.GBL_STATUS_POOL_READY, 0)] with sys.power.resuming := true }
    let u := { s with sys.power.resuming := false }.setPst 1
    s.sys.power.resuming = true ∧ s.locked = false ∧ s.sys.power.toStby = false ∧ u.fld F.FWU_STS_STATE ≠ 3 ∧
      u.fld F.FWU_STS_STATE ≠ 5 ∧ u.clearNtq.resumeChans.inputGood = true ∧ u.clearNtq.resumeChans.dataUp = false := by
  decide +kernel

theorem witness_ports :
    (let s := wired conn5 0
     s.hasPort 0 = true ∧ (s.port 0).link = true ∧ s.sys.start.powered = true ∧ s.locked = false ∧ s.dataUp = true) ∧
    (let s := (wired conn5 0).setCage 1 ⟨some plugged, 9, 0, true⟩
     s.hasPort 2 = true ∧ s.cagesLive = true ∧ (s.port 2).link = false ∧ cageOf s.portMode 2 = 2 ∧
       (s.setCage 2 ⟨some plugged, 9, 0, true⟩ |>.cage 2).step = 9 ∧ (s.setCageSt 2 4).cageSt 2 = 4) := by decide +kernel

/-- Cage 7 in a state, with a module in a step of its insertion. -/
def inserting (st step now : Nat) : State :=
  { (liveWith [(F.CAGE_STS_STATE 7, st), (F.CAGE_CTL_EN 7, 1), (F.CAGE_CMIS_CTL_BUSY 7, 1)]).setCage 7 ⟨some plugged, step, 0, true⟩ with
    now := now }
theorem witness_cages :
    (live.cagesLive = true ∧ (live.cage 7).info = none ∧ ((inserting 3 7 0).cage 7).info = some plugged ∧
      ((inserting 3 7 0).cage 7).step = 7 ∧ ((inserting 3 8 0).cage 7).step = 8 ∧
      (∀ k, k ∈ [3, 7, 8] → ((inserting 3 k 2000000000).cage 7).since + 2000000000 ≤ (inserting 3 k 2000000000).now) ∧
      (inserting 4 0 0).cageSt 7 = 4) ∧
    (let s := inserting 6 0 0
     let u := (s.cageOff 7).setCage 7 { (s.cageOff 7).cage 7 with info := none }
     (s.cage 7).info ≠ none ∧ s.cageSt 7 = 6 ∧ u.bit (F.CAGE_CTL_HOSTOWN 7) = false) ∧
    (let u := (inserting 4 0 0).setFld (F.CAGE_CMIS_CTL_BUSY 7) 0
     (inserting 4 0 0).bit (F.CAGE_CMIS_CTL_BUSY 7) = true ∧ ((inserting 4 0 0).cage 7).info ≠ none ∧
       (u.setFld (F.CAGE_CMIS_CTL_RESULT 7) 0).bit (F.CAGE_CMIS_CTL_WRITE 7) = false) := by decide +kernel

theorem tget_none {α : Type} (P : Nat → Bool) {k : Nat} (hk : P k = true) : ∀ {t : Table α}, (t.all fun e => !P e.1) = true → tget t k = none
  | [], _ => rfl
  | (j, v) :: t, h => by
    simp only [List.all_cons, Bool.and_eq_true, Bool.not_eq_true'] at h
    have : j ≠ k := fun e => by subst e; simp [hk] at h
    simp only [tget, if_neg this]
    split
    · rfl
    · exact tget_none P hk h.2

/-- The registers of P hold their reset values. -/
theorem reg_reset (P : Nat → Bool) {s : State} {k : Nat} (hk : P k = true) (h : (s.regs.all fun e => !P e.1) = true) :
    s.reg k = regReset k := by
  show sget regReset s.regs k = _
  rw [sget, tget_none P hk h]; rfl

theorem regReset_zero (P : Nat → Bool) {k : Nat} (hk : P k = true) (h : (regResetTab.all fun e => !P e.1) = true)
    (h1 : ¬ (0x3110000 ≤ k ∧ k < 0x3118000)) (h2 : ¬ (k ≤ 0x1702000 ∧ k % 0x100000 = 0x2000 ∧ 0x1002000 ≤ k)) : regReset k = 0 := by
  rw [regReset, if_neg h1, if_neg h2, tget_none P hk h]; rfl

def isTenant (k : Nat) : Bool := decide (0x3010000 ≤ k) && decide (k < 0x3018000)
def isWindow (k : Nat) : Bool := decide (k % 0x100000000 = 0x3000108)

theorem no_tenants {s : State} (h : (s.regs.all fun e => !isTenant e.1) = true) : s.enabledTenants = [] := by
  refine List.filter_eq_nil_iff.mpr fun t ht => ?_
  have ht : t < 4096 := List.mem_range.mp ht
  have hk : isTenant (0x3010000 + 0x8 * t) = true := by simp [isTenant]; omega
  have : s.reg (F.TRN_TENANT_EN t).key = 0 :=
    (reg_reset isTenant hk h).trans (regReset_zero isTenant hk (by decide +kernel) (by omega) (by omega))
  simp [State.bit, State.fld, this, Fld.of]

theorem no_windows {s : State} (h : (s.regs.all fun e => !isWindow e.1) = true) : s.enabledWindows = [] := by
  refine List.filter_eq_nil_iff.mpr fun t ht => ?_
  have hk : isWindow (0x3000108 + 0x100000000 * t) = true := by simp [isWindow]
  have : s.reg (F.TRN_WIN_A_EN t).key = 0 :=
    (reg_reset isWindow hk h).trans (regReset_zero isWindow hk (by decide +kernel) (by omega) (by omega))
  simp [State.bit, State.fld, this, Fld.of]

/-- A commit of an empty bank in a state of CFG_STS, with a CFG_CTL word. -/
def committing (st : Nat) (ctl : Word) : State :=
  { liveWith [(F.CFG_STS_STATE, st)] with sys.bank := { live.sys.bank with ctl := ctl, wasEmpty := true } }

theorem committing_passes : ∀ ctl, ctl ∈ ([2, 1, 0x11] : List Word) →
    (committing 2 ctl).checkBank false = none ∧ (committing 2 ctl).checkBank true = none := by
  have h : ([2, 1, 0x11] : List Word).all (fun ctl =>
      let s := committing 2 ctl
      !s.commitBarred && (s.regs.all fun e => !isTenant e.1) && (s.regs.all fun e => !isWindow e.1) && decide (rangeCheck s = none)
        && decide (connCheck s = none) && decide (etypeCheck s = none) && decide (provCheck s s [] false = none)
        && decide (provCheck s s [] true = none)) = true := by decide +kernel
  intro ctl hc
  have := List.all_eq_true.mp h ctl hc
  simp only [Bool.and_eq_true, decide_eq_true_eq, Bool.not_eq_true'] at this
  obtain ⟨⟨⟨⟨⟨⟨⟨hb, ht⟩, hw⟩, h3⟩, h7⟩, h8⟩, h12⟩, h12'⟩ := this
  have ht := no_tenants ht
  have hw := no_windows hw
  have hs : (committing 2 ctl).sys.bank.staged = [] := rfl
  have hl : (committing 2 ctl).sys.bank.lost = false := rfl
  generalize committing 2 ctl = s at *
  have ho : s.overlayRegs [] = s := rfl
  constructor <;>
  simp [State.checkBank, configChecks, hb, hs, hl, ho, h3, h7, h8, h12, h12', tenantCheck, rekeyCheck, windowCheck, ht, hw, firstFail,
    nodeCheck, poolCheck, stagesPool, portmodeCheck, packTestCheck]

/-- With `committing_passes`. -/
theorem witness_commit :
    ((committing 2 2).fld F.CFG_STS_STATE = 2 ∧ (committing 2 2).csrUp = true ∧ wbit (2 : Word) 4 = false ∧ wbit (2 : Word) 1 = true ∧
      wbit (1 : Word) 1 = false ∧ wbit (1 : Word) 4 = false ∧ wbit (1 : Word) 5 = false ∧ wbit (0x11 : Word) 1 = false ∧
      wbit (0x11 : Word) 4 = true ∧ (committing 2 0x11).compactDue (committing 2 0x11).groupValues = false) ∧
    (let s : State := { committing 2 1 with sys.bank := { (committing 2 1).sys.bank with lost := true } }
     s.checkBank false = some (2, 0)) ∧
    ((committing 3 0x11).fld F.CFG_STS_STATE = 3 ∧ (committing 3 0x11).notNow = false) ∧
    ((committing 4 1).fld F.CFG_STS_STATE = 4 ∧ (committing 4 1).sys.bank.instant ≤ (committing 4 1).now ∧
      (committing 4 1).notNow = false) ∧
    ((committing 5 0x11).fld F.CFG_STS_STATE = 5 ∧ (committing 5 0x11).sys.bank.next = none) := by decide +kernel

/-- An operation of the update unit under way. -/
def updating (op st step now : Nat) : State :=
  { liveWith [(F.FWU_STS_BUSY, 1), (F.FWU_STS_TARGET, 1), (F.FWU_STS_STATE, st), (F.FWU_STS_STEP, step)] with
    now := now, sys.fwu := { live.sys.fwu with op := op } }
/-- The module waits in Hoop mode with a bundle; a peer's last packet is unanswered. -/
def hooped : State :=
  { powered 8 2 2 with now := 1000000000, sys.fwu := { live.sys.fwu with bundle := [1], peer := some (7, 69), sentAt := 0 } }

theorem witness_update :
    ((updating 1 0 0 0).bit F.FWU_STS_BUSY = true ∧ (updating 1 0 0 0).csrUp = true ∧ (updating 1 0 0 0).sys.fwu.op = 1 ∧
      (updating 2 0 0 0).sys.fwu.op = 2 ∧
      (let u := { updating 3 0 0 0 with sys.fwu.op := 0 }.setFld F.FWU_STS_BUSY 0
       u.verifyTarget ≠ 0)) ∧
    (let s := updating 0 3 2 20000000000
     s.fwuSt = 3 ∧ s.fld F.FWU_STS_STEP ≠ 0 ∧ s.fld F.FWU_STS_STEP < 12 ∧ s.stepDone (s.fld F.FWU_STS_STEP) = true ∧
       s.dataUp = true) ∧
    (let s := updating 0 3 2 100000000000000
     s.fwuSt = 3 ∧ s.sys.fwu.stepAt + stepBound (s.fld F.FWU_STS_STEP) ≤ s.now) ∧
    (hooped.inHoop = true ∧ octet "octet" = true ∧ hooped.sys.fwu.bundle ≠ [] ∧ hooped.sys.fwu.peer = some (7, 69) ∧
      hooped.sys.fwu.sentAt + 1000000000 ≤ hooped.now ∧ hooped.sys.fwu.tries < 5) := by decide +kernel

theorem witness_management :
    ((regAt (0x300038 : BitVec 32).toNat).isSome = true ∧ live.admits ⟨host, true, 0x300038, some 0⟩ = true ∧
      live.admits ⟨host, false, 0x300038, none⟩ = true ∧ (regAt F.XTS_CFG_ALARM_LIMIT.key).any (fun d => d.rws ≠ 0) = true ∧
      live.admits ⟨host, true, BitVec.ofNat 32 F.XTS_CFG_ALARM_LIMIT.key, some 0⟩ = true ∧ live.csrUp = true ∧ live.mgtUp = true) ∧
    (live.sys.start.powered = true ∧ live.pst = 1 ∧ (115 : Int) ≤ 115 ∧ (live.smbusData 5).2.isSome = true ∧
      parseMgt (mgtBytes [.csrRead 7 0x300038]) = some [.csrRead 7 0x300038]) := by decide +kernel

/-! The laws. -/

theorem witness_step : ({ live with pending := [.tick] } : State).pending = [.tick] ∧ live.pending = [] := ⟨rfl, rfl⟩

theorem witness_missing : live.hasPort 16 = false ∧ ((0 : Seq24) - 5).toNat ≠ 2 ^ 23 ∧ ((5 : Seq24) - 5).toNat ≠ 2 ^ 23 := by
  decide +kernel

theorem witness_grants : tsorted (wired conn5 0).link.conns = true ∧
    (∀ e cls, cls < 4 → (wired conn5 0).reserved e cls ≤ poolUnits cls) ∧
    (∀ cls, cls ∈ [0, 1, 3] → (conn5.grant.get cls - conn5.recv.get cls).toNat ≤ (wired conn5 0).window cls) := by
  refine ⟨rfl, fun e cls hc => ?_, by decide +kernel⟩
  have h0 : ∀ cls, cls < 4 → (conn5.grant.get cls - conn5.freed.get cls).toNat ≤ poolUnits cls := by decide +kernel
  show (if 0 = e then (conn5.grant.get cls - conn5.freed.get cls).toNat else 0) + 0 ≤ poolUnits cls
  split
  · exact h0 cls hc
  · omega

theorem witness_messages :
    (∀ m, m ∈ [Msg.req (mkReq .writeNoCache hdr0 1 5 0 0), .req (mkReq .compareSwap hdr0 0 0 5 6), .csrRead 7 0x300038] → m.canon = true) ∧
    (PMsg.roleState 1 2 0 [.dirent 0x40 0]).canon = true ∧ (PMsg.roleState 7 2 0 [.endMark]).canon = true ∧
    (PMsg.seqReq 1 2 3 4 5 0 0).canon = true ∧ (PMsg.remAccess 2 2 3 0 0 0 0x1000 1 0 false 0 0).canon = true ∧
    (PMsg.remAccess 0 2 3 0 24 1 0 0 0 false 0 0).canon = true ∧
    (PMsg.remAnswer 0 2 3 0 24 1 (some 5)).tagRead (fun t => t = 3) = true ∧
    (PMsg.remAnswer 4 2 3 0 24 1 none).tagRead (fun _ => false) = true ∧ (hdrOf 0).inRange = true ∧
    (DirEnt.mk 5 .s false false 0 [1, 2, 3] 0).canon = true ∧ (DirEnt.mk 5 .o false true 9 [] 7).canon = true := by decide +kernel

theorem witness_set_and_tag : lineSet ((0x40 : Addr).toNat / 64) = lineSet ((0x7F : Addr).toNat / 64) ∧
    lineTag ((0x40 : Addr).toNat / 64) = lineTag ((0x7F : Addr).toNat / 64) := by decide +kernel

theorem witness_atomics : [ReqOp.fetchAdd, .swap, .compareSwap].all (fun op => [false, true].all fun sz =>
    let h : HReq := ⟨⟨1, 5, 7⟩, false, 0, 7, mkReq op { hdr0 with sz16 := sz, addr := 0x70 } 0 0 5 6, 3, 0⟩
    h.req.op.isAtomic && decide (h.pa % ((if h.req.hdr.sz16 then 128 else 64) / 8) = 0)) = true := by decide +kernel

theorem witness_dram : withDram.regsOk = true ∧ Memory.wf withDram.mem = true ∧ withDram.bit F.ECC_PFLIP_ARM = false ∧
    withDram.bit (F.MEM_FLIPCTL_ARM (frameChan 24)) = false ∧ withDram.chReady (frameChan 24) = true ∧
    withDram.bit (F.MEM_FLIPCTL_ARM (frameChan 25)) = false ∧ withDram.chReady (frameChan 25) = false := by decide +kernel

/-- A register without RWS fields, and one with them while the bank takes writes. -/
theorem witness_writes : live.regsOk = true ∧ (regAt (F.MEM_RETIRE 23).key).any (fun d => d.rws = 0) = true ∧
    (F.MEM_RETIRE 23).key ≠ F.CFG_STS.key ∧ (regAt F.XTS_CFG_ALARM_LIMIT.key).any (fun d =>
      decide (d.rws ≠ 0) && decide (live.regKey d F.XTS_CFG_ALARM_LIMIT.key ≠ F.CFG_STS.key)) = true ∧
    live.fld F.CFG_STS_STATE ∈ [0, 1, 5] ∧ live.sys.bank.staged.length < 131072 := by decide +kernel

theorem witness_faults :
    (let o := occ bPMU Cause.pmu_RST_IGNORED
     let p := occ bPMU Cause.pmu_PACK_FAULT
     live.regsOk = true ∧ o.code < 64 ∧ live.bit (F.BLK_FLTFIRST_V (o.block * 0x10000)) = false ∧
       (live.recordRegs o).2.bit (F.BLK_FLTFIRST_V (o.block * 0x10000)) = true ∧ (live.recordRegs o).2.regsOk = true ∧
       (∀ q, q ∈ [o, p] → q.block * 0x10000 = bPMU * 0x10000 ∧ q.code < 64) ∧ bPMU * 0x10000 ≠ bNTQ * 0x10000) := by
  decide +kernel

/-- A full queue whose first notice is delivered, with notices lost. -/
def fullQueue : State := { live with ntq := { live.ntq with
  entries := ⟨note1, some 0⟩ :: List.replicate 4095 ⟨note1, none⟩, dseq := 1, overrun := 3 } }
theorem witness_queue : queued.regsOk = true ∧ (∃ e ∈ queued.ntq.entries, e.dseq = none) ∧
    queued.ntq.bad = [] ∧ live.ntq.bad = [] ∧ (∀ e ∈ live.ntq.entries, e.dseq.isSome = true) ∧ fullQueue.regsOk = true ∧ fullQueue.ntq.entries.length = 4096 ∧
    (2 ^ 32 : Word).getLsbD 32 = true ∧ fullQueue.ntq.delivered (wbits (2 ^ 32) 0 32) = true ∧ 0 < fullQueue.ntq.overrun ∧
    fullQueue.ntq.overrun ≤ 65535 ∧
    (∃ e ∈ fullQueue.ntq.entries, ∃ k, e.dseq = some k ∧ dseqUpTo k (wbits (2 ^ 32) 0 32) = true) := by
  refine ⟨by decide +kernel, by decide +kernel, rfl, rfl, by decide +kernel, by decide +kernel, ?_, by decide +kernel, by decide +kernel,
    by decide, by decide, ⟨⟨note1, some 0⟩, List.mem_cons_self, 0, rfl, by decide +kernel⟩⟩
  exact (List.length_cons).trans (by rw [List.length_replicate])

/-- A connection with 65 CSR reads stored. -/
def flooded : Conn := { conn5 with rxq := [⟨0, 0, 9, (upto 65).map fun i => .csrRead (BitVec.ofNat 16 i) 0x300038⟩] }
theorem witness_crossbar :
    (live.reaches ⟨host, false, 0x300FF8, none⟩ = true ∧ live.uncached host = true ∧ live.sys.csr.mcDown = false ∧
      live.overLimit ⟨host, true, 8, some 0⟩ = false ∧ live.sys.csr.xbarBad = false ∧
      ({ live with sys.csr := { live.sys.csr with xbarBad := true } } : State).sys.csr.xbarBad = true ∧
      live.csrAllowed ⟨host, false, 0x300FF8, none⟩ = true ∧ regAt (0x300FF8 : BitVec 32).toNat = none ∧ mirrorsZero 0x300FF8 = false) ∧
    (let s : State := { live with sys.csr := { live.sys.csr with mcDown := true } }
     s.reaches ⟨host, true, 8, some 0⟩ = true ∧ s.uncached host = true ∧ s.sys.csr.mcDown = true) ∧
    ((wired flooded 0).reaches ⟨.inband 5 64, false, 0x300038, none⟩ = true ∧ (wired flooded 0).uncached (.inband 5 64) = true ∧
      (wired flooded 0).overLimit ⟨.inband 5 64, false, 0x300038, none⟩ = true) ∧
    ((wired conn5 0).reaches ⟨.inband 5 64, true, 0x300038, some 0⟩ = true ∧
      (wired conn5 0).overLimit ⟨.inband 5 64, true, 0x300038, some 0⟩ = false ∧
      (wired conn5 0).csrAllowed ⟨.inband 5 64, true, 0x300038, some 0⟩ = false) ∧
    ((live.keepAnswer 1 2 3 (wrote.msg 3)).cached 1 2 3).isSome = true := by decide +kernel

theorem witness_resets :
    (let u := standby.stored F.PMU_RESET.key 0x5E7A0001
     wbits 0x5E7A0001 0 2 = 1 ∧ wbits 0x5E7A0001 16 16 = 0x5E7A ∧ u.pst = 5 ∧ wbits 0x1 16 16 ≠ 0x5E7A ∧
       wbits 0x5E7A0000 0 2 = 0 ∧ wbits 0x5E7A0003 0 2 = 3 ∧ (standby.stored F.PMU_RESET.key 0x5E7A0003).pst = 5 ∧
       standby.admitsWrite host F.PMU_RESET.key 0x5E7A0001 = true) ∧
    (let s := powered 2 2 2
     let u := s.stored F.PMU_RESET.key 0x5E7A0002
     u.pst ≠ 1 ∧ u.pst ≠ 5 ∧ wbits 0x5E7A0002 0 2 = 2 ∧ s.admitsWrite host F.PMU_RESET.key 0x5E7A0002 = true ∧ s.pst = 2 ∧
       s.sys.start.powered = true) := by decide +kernel

theorem witness_lock : withDram.regsOk = true ∧ withDram.channelsUp ≠ 0 ∧
    (let s : State := { powered 6 2 2 with locked := true }
     s.locked = true ∧ s.sys.start.powered = true ∧ s.mem.keys = [] ∧ s.mem.kek = none) := by decide +kernel

/-- A record in use; its copy, an erased one, and a slot that holds the record in copy 1 only. -/
def boot7 : Boot := ⟨2, 7, true, false, 9⟩
def oneCopy : Slot := { emptySlot with copy1 := boot7.copy }
theorem witness_boot : boot7.state < 4 ∧ boot7.seq < 2 ^ 32 ∧ boot7.gen < 2 ^ 32 ∧ erasedCopy.valid = false ∧
    boot7.copy.valid = true ∧ oneCopy.copy0.valid = false ∧ oneCopy.copy1.valid = true ∧ emptySlot.copy1.valid = false ∧
    (emptySlot.putBoot boot7).copy0.valid = true := by decide +kernel

/-! Well-formedness: for every check a command that it refuses, and one that passes. -/

def badFrame : RxFrame := ⟨16, true, 0, 0, .none, 0, []⟩
def badStart (p : ChanPop) : StartIn := { noStart with pop := List.replicate 24 p }
def dimm : ChanPop := ⟨1, 2, 0, 64, 8000, false, false, false, false⟩

theorem test_wf_refuses : [Instr.data badFrame, .ack badFrame, .nak badFrame, .heartbeat badFrame, .connect badFrame 0, .close badFrame,
    .audit badFrame, .pause badFrame, .sync badFrame 0, .picotFrame badFrame, .heartbeatSend ⟨8, 0, 0, 0⟩,
    .pathBroken ⟨0, 16, 0, 0⟩, .pathUp ⟨8, 16, 0, 0⟩, .lineReadReturn 0 64 .demand 0, .dimmTempRead 24 20,
    .chanHalt 24, .memRetireClear host 24 0, .memFlipctl host 24 0, .segmentStore 0 4, .segmentFill 0 4, .keySlotReload 2 0 false,
    .counterOverflow 17 0 0 0 false, .counterOverflow 0 8 0 0 false, .prfCtl host 17 0 0, .prfCtl host 0 8 0, .causeClear host 0x700 0,
    .fltfirstClear host 0xFFFF 0, .fltovfClear host 0x700 0, .holdoffExpiry 0x700 0, .rtavailUpdate 0 10001 0 0 0,
    .moduleReset host 0 noStart, .warmReset host 0 (badStart { dimm with dpc := 3 }), .rstN 10000 (badStart { dimm with capGib := 48 }),
    .coldStart noStart, .resumeComplete [] noStart, .start host 0 noStart, .recoveryWritten noStart, .sequencer 8, .resetA host 8 0,
    .resetB host 8 0, .linkDown 16, .linkUp 16, .fecDegrade 16 0, .presence 8 plugged, .moduleReady 8, .dpActivated 8, .cageTimeout 8,
    .cmisPoll 8 0 false false false, .presenceLost 8, .cageOvercurrent 8, .cageReset host 8 0, .hostown host 8 0,
    .cmisTransfer host 8 0, .cmisTransferDone 8 false 0].all (fun i => !i.wf) = true := by decide +kernel

theorem test_wf_refuses_long (p : List Byte) (h : p.length = 65508) : (Instr.mgtDatagram 0 0 p).wf = false ∧
    (Instr.icmpEcho 0 0 0 0 p).wf = false := by
  simp [Instr.wf, h]

theorem test_wf_accepts : [Instr.tick, .linkDown 15, .coldStart (badStart dimm), .lineReadReturn 0 63 .demand 0,
    .counterOverflow 16 7 0 0 false, .causeClear host 0x6FF 0, .rtavailUpdate 0 10000 0 0 0].all (fun i => i.wf) = true := by
  decide +kernel

/-! The spec's worked examples. -/

/-- R86's check value: the CRC of "123456789". -/
theorem test_crc : crc32c [0x31, 0x32, 0x33, 0x34, 0x35, 0x36, 0x37, 0x38, 0x39] = 0xE3069283 := by decide +kernel

/-- spec/11, "Worked example: a tweak". -/
theorem test_tweak : tweakOf 0x0031_8E40_1F80 0x42 = 0x0010_8000_C639_007E ∧ tweakOf 0x0031_8E40_1F80 0x43 = 0x0010_C000_C639_007E := by
  decide +kernel

/-- spec/06: the entry of a line in O, its set and its tag. -/
theorem test_directory_entry : lineSet (0x0052_3C63_4540 / 64) = 0xC5E4 ∧ lineTag (0x0052_3C63_4540 / 64) = 0x148F1 ∧
    entBits ⟨0x148F1, .o, false, false, 0x05A, [0x07C], 0⟩ = 0x0000_003E_22D0_C001_48F1 := by decide +kernel

/-- spec/03: the header of the request packet, and its message. -/
theorem test_coldel_request :
    CHdr.parse [0x01, 0x01, 0x07, 0x1C, 0x10, 0x3A, 0x00, 0x22, 0x0F, 0x00, 0x08, 0x00, 0x40, 0, 0, 0, 0x12, 0, 0, 0x80, 0x04, 0, 0x08, 0] =
      ⟨1, 0, 1, false, false, false, 0x1C07, 0x3A10, 0x0F22, 8, 0x40, 0x1200, 0x48000, 0x800⟩ ∧
    parsePayload 4 [0x10, 0, 0xA3, 0x02, 0x31, 0x0C, 0x5A, 0, 0x40, 0x45, 0x23, 0x01, 0, 0x01, 0, 0] =
      some [.req (mkReq .readShared ⟨0, false, false, 0x2A3, 0x0C31, 0x05A, 0x0000_0100_0123_4540⟩ 0 0 0 0)] := by decide +kernel

/-- spec/10: the channel, die and group of frame 0x01B4_E816. -/
theorem test_frame : frameChan 0x01B4E816 = 6 ∧ frameGroup 0x01B4E816 = 1 ∧ frameDie 0x01B4E816 = 0 := by decide

/-- spec/09: the 60-byte LZ body. -/
def lzBody : List Byte :=
  [0x80, 0x53, 0x45, 0x47, 0x31, 0xC4, 0x01, 0x00, 0x01, 0xD8, 0x00, 0x11, 0x22, 0x33, 0x44, 0x55,
   0x66, 0x77, 0x88, 0x00, 0x99, 0xAA, 0xBB, 0xCC, 0xDD, 0xEE, 0xFF, 0x00, 0xFF, 0x10, 0xFC, 0x10]
  ++ [0xFC, 0x10, 0xFC, 0x10, 0xFC, 0x10, 0xFC, 0x10, 0xFC, 0x10, 0x84, 0x01, 0xFC, 0x7F, 0x01, 0xFC,
   0x01, 0xFC, 0x01, 0xFC, 0x01, 0xFC, 0x01, 0xFC, 0x01, 0xFC, 0x01, 0xBC]

theorem test_lz : (lzDecode lzBody).code = 0 ∧ (lzDecode lzBody).outCnt = 1024 ∧
    ((lzDecode lzBody).out.drop 0x1F8).take 16 = [0x99, 0xAA, 0xBB, 0xCC, 0xDD, 0xEE, 0xFF, 0, 0, 0, 0, 0, 0, 0, 0, 0] := by decide +kernel

/-- The end of an erase, a command that names no port, and an empty queue, each as one step. -/
theorem test_steps :
    (match step { liveWith [(F.CFG_NVM_ERASING, 1)] with pending := [.eraseDone, .tick] } with
      | .next t => decide (t.fld F.CFG_NVM_ERASING = 0) && decide (t.pending.length = 1) | _ => false) = true ∧
    (match step { live with pending := [.linkDown 16, .tick] } with | .fault f => decide (f = .noSuchUnit) | _ => false) = true ∧
    (match step State.reset with | .next t => t.pending.isEmpty | _ => false) = true := by decide +kernel

end Sys2Proof.Tests
end

/-! The scope of the model: what a register write stores, what the writes of the fault registers do, and what reset leaves. -/

namespace Sys2Proof.Machine

/-! What a register write stores (R8). -/

/-- What a register that holds `old` holds after a write of `w`, staged bits apart (R8). -/
def RegDef.taken (d : RegDef) (old w : Word) : Word :=
  ((old &&& ~~~BitVec.ofNat 64 d.rw) ||| (w &&& BitVec.ofNat 64 d.rw)) &&& ~~~(w &&& BitVec.ofNat 64 d.w1c)

theorem RegDef.taken_getLsbD (d : RegDef) (old w : Word) {i : Nat} (hi : i < 64) : (d.taken old w).getLsbD i =
    (if d.w1c.testBit i && w.getLsbD i then false else if d.rw.testBit i then w.getLsbD i else old.getLsbD i) := by
  simp only [RegDef.taken, BitVec.getLsbD_and, BitVec.getLsbD_or, BitVec.getLsbD_not, BitVec.getLsbD_ofNat, hi, decide_true,
    Bool.true_and]
  cases d.w1c.testBit i <;> cases d.rw.testBit i <;> simp [Bool.and_comm]

/-- The state once a write has stored what its register takes. -/
def State.putTaken (s : State) (d : RegDef) (a : Nat) (w : Word) : State :=
  s.setReg (s.regKey d a) (d.taken (s.reg (s.regKey d a)) w)

theorem State.regsOk_putTaken {s : State} (hs : s.regsOk = true) (d : RegDef) (a : Nat) (w : Word) :
    (s.putTaken d a w).regsOk = true := State.regsOk_setReg hs _ _

theorem State.putTaken_reg_self {s : State} (hs : s.regsOk = true) (d : RegDef) (a : Nat) (w : Word) :
    (s.putTaken d a w).reg (s.regKey d a) = d.taken (s.reg (s.regKey d a)) w := State.reg_setReg_self hs _ _

theorem State.putTaken_reg_away {s : State} (hs : s.regsOk = true) (d : RegDef) (a : Nat) (w : Word) {l : Nat}
    (hl : l ≠ s.regKey d a) : (s.putTaken d a w).reg l = s.reg l := State.reg_setReg_ne hs _ hl

/-- A write stores what its register takes, then stages what the RWS fields get (R8, R489). -/
theorem State.storeReg_eq (s : State) (d : RegDef) (a : Nat) (w : Word) : s.storeReg d a w =
    if d.rws = 0 then s.putTaken d a w
    else (s.putTaken d a w).stage (s.regKey d a) (w &&& BitVec.ofNat 64 d.rws) := rfl

/-! What staging does (R489, R490). -/

/-- The state once a staged value is in the bank and STAGED counts it. -/
def State.inBank (s : State) (k : Nat) (v : Word) : State :=
  { s with sys.bank.staged := tput s.sys.bank.staged k v }.setFld F.CFG_STS_STAGED (tput s.sys.bank.staged k v).length

theorem State.regsOk_inBank {s : State} (hs : s.regsOk = true) (k : Nat) (v : Word) : (s.inBank k v).regsOk = true :=
  State.regsOk_setFld (s := { s with sys := _ }) hs _ _

theorem State.inBank_reg_away {s : State} (hs : s.regsOk = true) (k : Nat) (v : Word) {l : Nat} (hl : l ≠ F.CFG_STS.key) :
    (s.inBank k v).reg l = s.reg l :=
  State.reg_setFld_away (s := { s with sys := _ }) hs F.CFG_STS_STAGED _ l hl

theorem State.inBank_state {s : State} (hs : s.regsOk = true) (k : Nat) (v : Word) :
    (s.inBank k v).fld F.CFG_STS_STATE = s.fld F.CFG_STS_STATE :=
  State.fld_setFld_beside (s := { s with sys := _ }) hs F.CFG_STS_STAGED F.CFG_STS_STATE _ rfl (by decide) (by decide) (by decide)

/-- Staging stores fields of CFG_STS and no other register. -/
theorem State.stage_reg_away {s : State} (hs : s.regsOk = true) (k : Nat) (v : Word) {l : Nat} (hl : l ≠ F.CFG_STS.key) :
    (s.stage k v).reg l = s.reg l := by
  unfold State.stage
  dsimp only
  split
  · exact State.reg_setFld_away (s := { s with sys := _ }) hs F.CFG_STS_LOSTWR 1 l hl
  · split
    · exact State.inBank_reg_away hs k v hl
    · exact (State.reg_setFld_away (State.regsOk_inBank hs k v) F.CFG_STS_STATE 1 l hl).trans (State.inBank_reg_away hs k v hl)

/-- The bank takes writes: STATE is EMPTY, STAGED or MARKING, and there is room (R489, R490). -/
def State.bankOpen (s : State) : Prop := s.fld F.CFG_STS_STATE ∈ [0, 1, 5] ∧ s.sys.bank.staged.length < 131072

/-- An open bank takes the value; MARKING goes on, otherwise the bank is STAGED (R490). -/
theorem State.stage_of_bankOpen {s : State} (h : s.bankOpen) (k : Nat) (v : Word) : s.stage k v =
    if s.fld F.CFG_STS_STATE = 5 then s.inBank k v else (s.inBank k v).setFld F.CFG_STS_STATE 1 := by
  obtain ⟨hst, hroom⟩ := h
  simp only [List.mem_cons, List.not_mem_nil, or_false] at hst
  exact if_neg (by omega)

theorem State.stage_staged {s : State} (h : s.bankOpen) (k : Nat) (v : Word) :
    tget (s.stage k v).sys.bank.staged k = some v := by
  rw [State.stage_of_bankOpen h]
  split <;> exact tget_tput_self _ _ _

theorem State.stage_state {s : State} (hs : s.regsOk = true) (h : s.bankOpen) (k : Nat) (v : Word) :
    (s.stage k v).fld F.CFG_STS_STATE = if s.fld F.CFG_STS_STATE = 5 then 5 else 1 := by
  rw [State.stage_of_bankOpen h]
  split
  case isTrue h5 => rw [State.inBank_state hs, h5]
  case isFalse => exact State.fld_setFld_self (State.regsOk_inBank hs k v) F.CFG_STS_STATE 1

/-! The registers after a write, and the statement on access types. -/

theorem State.storeReg_reg_self {s : State} (hs : s.regsOk = true) (d : RegDef) (a : Nat) (w : Word)
    (hk : s.regKey d a ≠ F.CFG_STS.key) :
    (s.storeReg d a w).reg (s.regKey d a) = d.taken (s.reg (s.regKey d a)) w := by
  rw [State.storeReg_eq]
  split
  · exact State.putTaken_reg_self hs d a w
  · rw [State.stage_reg_away (State.regsOk_putTaken hs d a w) _ _ hk, State.putTaken_reg_self hs]

theorem State.storeReg_reg_away {s : State} (hs : s.regsOk = true) (d : RegDef) (a : Nat) (w : Word) {l : Nat}
    (hl : l ≠ s.regKey d a) (hc : l ≠ F.CFG_STS.key) : (s.storeReg d a w).reg l = s.reg l := by
  rw [State.storeReg_eq]
  split
  · exact State.putTaken_reg_away hs d a w hl
  · rw [State.stage_reg_away (State.regsOk_putTaken hs d a w) _ _ hc, State.putTaken_reg_away hs d a w hl]

/-- Settles O51: without RWS fields a write is one store of its register, with them that store and a staging, which stores
nothing but CFG_STS. -/
theorem writesFollowAccessTypes : Obligations.WritesFollowAccessTypes := by
  rintro s u d a k w hs rfl hk rfl
  have hsts : (s.putTaken d a w).reg F.CFG_STS.key = s.reg F.CFG_STS.key := State.putTaken_reg_away hs d a w hk.symm
  refine ⟨fun i hi => ?bits, fun l hl hc => State.storeReg_reg_away hs d a w hl hc, fun hrws => ?plain,
    fun hrws hst hroom => ?staged⟩
  case bits => rw [State.storeReg_reg_self hs d a w hk, d.taken_getLsbD _ _ hi]
  case plain =>
    rw [State.storeReg_eq, if_pos hrws]
    exact ⟨rfl, hsts⟩
  case staged =>
    have hstate : (s.putTaken d a w).fld F.CFG_STS_STATE = s.fld F.CFG_STS_STATE := congrArg F.CFG_STS_STATE.of hsts
    have hopen : (s.putTaken d a w).bankOpen := ⟨hstate ▸ hst, hroom⟩
    rw [State.storeReg_eq, if_neg hrws]
    refine ⟨State.stage_staged hopen _ _, ?_⟩
    rw [State.stage_state (State.regsOk_putTaken hs d a w) hopen, hstate]

/-! The fault registers' writes (R426, R427). -/

theorem exec_causeClear {block : BitVec 16} (hb : block.toNat ∈ faultBlocks) (src : CsrSrc) (w : Word) (s : State) :
    exec (.causeClear src block w) s =
      .next (s.csrPut src (block.toNat * 0x10000 + 0xf00) w fun t => t.wrFltsts block.toNat) := by
  change execCauseClear src block w s = _
  simp [execCauseClear, hb, fltAddr]

theorem exec_fltfirstClear {block : BitVec 16} (hb : block.toNat ∈ faultBlocks) (src : CsrSrc) (w : Word) (s : State) :
    exec (.fltfirstClear src block w) s =
      .next (s.csrTrig src (block.toNat * 0x10000 + 0xf08) w (wbit w 0) fun t => t.wrFltfirst block.toNat w) := by
  change execFltfirstClear src block w s = _
  simp [execFltfirstClear, hb, fltAddr]

theorem exec_fltovfClear {block : BitVec 16} (hb : block.toNat ∈ faultBlocks) (src : CsrSrc) (w : Word) (s : State) :
    exec (.fltovfClear src block w) s =
      .next (s.csrTrig src (block.toNat * 0x10000 + 0xf10) w (wbit w 0) fun t => t.wrFltovf block.toNat w) := by
  change execFltovfClear src block w s = _
  simp [execFltovfClear, hb, fltAddr]

theorem State.wrFltsts_eq (s : State) (block : Nat) : s.wrFltsts block =
    if s.reg (block * 0x10000 + 0xf00) = 0 then s.setFld (F.BLK_FLTOVF_MAXSEV (block * 0x10000)) 0 else s := rfl

theorem State.wrFltfirst_of_v {w : Word} (hw : wbit w 0 = true) (s : State) (block : Nat) :
    s.wrFltfirst block w = s.setReg (block * 0x10000 + 0xf08) 0 := if_pos hw

theorem State.wrFltovf_of_ovf {w : Word} (hw : wbit w 0 = true) (s : State) (block : Nat) : s.wrFltovf block w =
    (s.setFld (F.BLK_FLTOVF_OVF (block * 0x10000)) 0).setFld (F.BLK_FLTOVF_COUNT (block * 0x10000)) 0 := if_pos hw

/-- Settles O2: an admitted write stores its word and then does what its register says. -/
theorem faultRegisterWritesComplete : Obligations.FaultRegisterWritesComplete := by
  rintro s src block w _ hb rfl
  refine ⟨fun hadm => ?_, fun hw => ⟨fun hadm => ?_, fun hadm => ?_⟩⟩
  · rw [exec_causeClear hb, State.csrPut_admits _ hadm, State.wrFltsts_eq]
  · rw [exec_fltfirstClear hb, State.csrTrig_admits _ hadm hw, State.wrFltfirst_of_v hw]
  · rw [exec_fltovfClear hb, State.csrTrig_admits _ hadm hw, State.wrFltovf_of_ovf hw]

/-! What reset leaves (R8, R11). -/

theorem State.reset_reg (k : Nat) : State.reset.reg k = regReset k := rfl

theorem State.reset_fld (f : Fld) : State.reset.fld f = f.of (regReset f.key) := rfl

theorem Memory.wf_reset : Memory.wf State.reset.mem = true := rfl

/-- Settles O38: no register is stored at reset, so that each reads as its reset value, and every table and store is empty. -/
theorem resetLeaves : Obligations.ResetLeaves := by
  unfold Obligations.ResetLeaves
  simp only [State.reset_fld]
  refine ⟨rfl, State.reset_reg, State.regsOk_reset, ?_, ?_, ?_, ?_, ?_, ?_, ?_, ?_, ?_, ?_, ?_, rfl, rfl, rfl,
    Memory.wf_reset, rfl, rfl, rfl, rfl⟩
  all_goals decide

end Sys2Proof.Machine

/-! The ports: what their events do, each from the meaning of its command and the guard of its state function. -/

namespace Sys2Proof.Machine

/-! What the commands run, and the guards they pass (R121, R23, R480, R538). -/

theorem exec_linkDown {s : State} {p : Nat} (hp : s.hasPort p = true) : exec (.linkDown p) s = .next (s.loseLink p) := by
  change execLinkDown p s = _
  simp [execLinkDown, hp]

theorem exec_fecDegrade {s : State} {p : Nat} (hp : s.hasPort p = true) (n : BitVec 32) : exec (.fecDegrade p n) s =
    .next (if (s.port p).link then s.fecDegrade p n.toNat else s) := by
  change execFecDegrade p n s = _
  simp [execFecDegrade, hp]

theorem exec_linkUp {s : State} {p : Nat} (hp : s.hasPort p = true) : exec (.linkUp p) s = .next (s.linkUp p) := by
  change execLinkUp p s = _
  simp [execLinkUp, hp]

theorem exec_sequencer {e : Nat} (he : e < 8) (s : State) : exec (.sequencer e) s = .next (s.sequencerCrash e) :=
  if_neg (Nat.not_le.mpr he)

/-- A step of the datapath, where it runs. -/
theorem State.act_of_dataUp {s : State} (h : s.dataUp = true) (f : State → State) : s.act f = s.after (f s) := if_pos h

theorem State.loseLink_of_link {s : State} {p : Nat} (h : (s.port p).link = true) : s.loseLink p =
    (s.setPort p ⟨false, false, false⟩).recordPort p (portBlocks s.portMode p) Cause.port_LINK_DOWN := if_pos h

/-- Where a link can be trained: the cages run, the link is down, and its cage waits for its links or has had them. -/
def State.trains (s : State) (p : Nat) : Prop := s.cagesLive = true ∧ (s.port p).link = false ∧
  ((s.cage (cageOf s.portMode p)).step = 9 ∨ s.cageSt (cageOf s.portMode p) = 4)

/-- The state once a port's link is up, READY where the pool is. -/
def State.trained (s : State) (p : Nat) : State := s.setPort p ⟨true, true, s.bit F.GBL_STATUS_POOL_READY⟩

theorem State.linkUp_of_trains {s : State} {p : Nat} (h : s.trains p) : s.linkUp p =
    if (s.cage (cageOf s.portMode p)).step = 9 ∧
        ((cagePorts (s.trained p).portMode (cageOf s.portMode p)).all fun q => ((s.trained p).port q).link) = true
      then ((s.trained p).setCage (cageOf s.portMode p) { s.cage (cageOf s.portMode p) with step := 0 }).setCageSt
        (cageOf s.portMode p) 4
      else s.trained p := by
  obtain ⟨hlive, hdown, hcage⟩ := h
  refine if_neg ?_
  rcases hcage with h | h <;> simp [hlive, hdown, h, cREADY]

theorem State.sequencerCrash_of_powered {s : State} (hp : s.sys.start.powered = true) (hl : s.locked = false) (e : Nat) :
    s.sequencerCrash e = (enginePorts s.portMode e).foldl (fun s p => (s.linkWith p).portReset p)
      (s.recordPort ((enginePorts s.portMode e).headD e) [e] Cause.port_SEQUENCER) := by
  refine if_neg ?_
  simp [hp, hl]

/-- Settles O32: each event's command runs its state function, whose guard the state passes. -/
theorem portEventsComplete : Obligations.PortEventsComplete := by
  rintro s u p _ hp rfl
  refine ⟨fun hlink => ⟨?down, ?fec⟩, ?up, ?crash, ?tier⟩
  case down => rw [exec_linkDown hp, State.loseLink_of_link hlink]
  case fec =>
    rintro n rfl
    rw [exec_fecDegrade hp, if_pos hlink]
    rfl
  case up =>
    rintro hlive hdown hcage rfl
    rw [exec_linkUp hp, State.linkUp_of_trains ⟨hlive, hdown, hcage⟩]
    rfl
  case crash =>
    rintro e he hpow hunl rfl
    rw [exec_sequencer he, State.sequencerCrash_of_powered hpow hunl]
  case tier =>
    intro hup
    exact congrArg Host.Outcome.next (State.act_of_dataUp hup State.tierCrash)

end Sys2Proof.Machine

/-! DRAM: what a write stores and a read then returns (R20, R342, R343, R353), and the state in which the read fails. -/

namespace Sys2Proof.Machine

/-! A command on a channel leaves the control registers of DRAM: it stores fault registers, counters of the channel, performance
counters and registers of the notice queue. -/

/-- A register of the DRAM blocks that is no fault register and not MEM_ERRCNT. -/
def dramControl (k : Nat) : Prop := k / 0x1000000 = 4 ∧ k % 0x10000 < 0xf00 ∧ k % 0x10000 ≠ 0x10

/-- The registers of `t` are in canonical form, and its control registers of DRAM are those of `s`. -/
def State.KeepsControl (s t : State) : Prop := t.regsOk = true ∧ ∀ k, dramControl k → t.reg k = s.reg k

namespace State.KeepsControl

variable {s t : State}

theorem refl (hs : s.regsOk = true) : s.KeepsControl s := ⟨hs, fun _ _ => rfl⟩

theorem setReg (h : s.KeepsControl t) {k : Nat} (hk : ¬ dramControl k) (v : Word) : s.KeepsControl (t.setReg k v) :=
  ⟨State.regsOk_setReg h.1 k v, fun l hl =>
    (State.reg_setReg_ne h.1 v (by rintro rfl; exact hk hl)).trans (h.2 l hl)⟩

theorem of_regs {u : State} (h : s.KeepsControl t) (hu : u.regs = t.regs) : s.KeepsControl u := by
  unfold State.KeepsControl State.regsOk State.reg at h ⊢
  rwa [hu]

theorem setFld (h : s.KeepsControl t) (f : Fld) (hf : ¬ dramControl f.key) (v : Nat) : s.KeepsControl (t.setFld f v) :=
  h.setReg hf _

theorem incFld (h : s.KeepsControl t) (f : Fld) (hf : ¬ dramControl f.key) : s.KeepsControl (t.incFld f) := h.setFld f hf _

theorem bit (h : s.KeepsControl t) {f : Fld} (hf : dramControl f.key) : t.bit f = s.bit f := by
  unfold State.bit State.fld
  rw [h.2 _ hf]

theorem recordRegs (h : s.KeepsControl t) (o : Occ) : s.KeepsControl (t.recordRegs o).2 := by
  have hcause : ¬ dramControl (o.block * 0x10000 + 0xf00) := by unfold dramControl; omega
  have hfirst : ¬ dramControl (o.block * 0x10000 + 0xf08) := by unfold dramControl; omega
  have hovf : ¬ dramControl (o.block * 0x10000 + 0xf10) := by unfold dramControl; omega
  unfold State.recordRegs
  dsimp only
  split
  · refine setFld ?_ _ hovf _
    iterate 5 refine setFld ?_ _ hfirst _
    exact h.setReg hcause _
  · iterate 3 refine setFld ?_ _ hovf _
    exact h.setReg hcause _

theorem discardNotice (h : s.KeepsControl t) : s.KeepsControl t.discardNotice := by
  have hsts : ¬ dramControl F.NTQ_STS_OVERRUN.key := by simp [dramControl, F.NTQ_STS_OVERRUN]
  have hlost : ¬ dramControl F.NTQ_LOST_LOST.key := by simp [dramControl, F.NTQ_LOST_LOST]
  have hrec := ((h.setFld _ hsts 1).incFld _ hlost).recordRegs (occ bNTQ Cause.ntq_OVERRUN)
  unfold State.discardNotice
  exact hrec.of_regs rfl

theorem postNotice (h : s.KeepsControl t) (n : Notice) : s.KeepsControl (t.postNotice n) := by
  unfold State.postNotice
  split
  · exact h.of_regs rfl
  · exact h.discardNotice

theorem endHoldoff (h : s.KeepsControl t) (key : Nat) : s.KeepsControl (t.endHoldoff key) := by
  unfold State.endHoldoff
  split
  · exact h
  · split
    · exact h
    · dsimp only
      split
      · exact h.of_regs rfl
      · exact postNotice (t := { t with ntq.holdoffs := tdel t.ntq.holdoffs key }) (h.of_regs rfl) _

theorem record (h : s.KeepsControl t) (o : Occ) : s.KeepsControl (t.record o) := by
  have hend := (h.recordRegs o).endHoldoff (pairKey o.block o.code)
  unfold State.record State.postOcc
  dsimp only
  split
  · split
    · exact hend.of_regs rfl
    · exact hend.postNotice _
  · exact hend.postNotice _

theorem prfAdd (h : s.KeepsControl t) (bank ctr n : Nat) : s.KeepsControl (t.prfAdd bank ctr n) := by
  have hcnt : ¬ dramControl (F.PRF_CNT_COUNT bank ctr).key := by simp only [dramControl, F.PRF_CNT_COUNT]; omega
  have hovf : ¬ dramControl (F.PRF_OVF_OVF bank).key := by simp only [dramControl, F.PRF_OVF_OVF]; omega
  have hlost : ¬ dramControl F.PRF_SAMPLE1_LOST.key := by simp [dramControl, F.PRF_SAMPLE1_LOST]
  unfold State.prfAdd
  dsimp only
  split
  · exact h.setFld _ hcnt _
  · split
    · exact (h.setFld _ hcnt _).setFld _ hovf _
    · split
      · exact ((h.setFld _ hcnt _).setFld _ hovf _).incFld _ hlost
      · exact ((h.setFld _ hcnt _).setFld _ hovf _).of_regs rfl

theorem count (h : s.KeepsControl t) (bank ev n : Nat) (tenant : Option Nat) : s.KeepsControl (t.count bank ev n tenant) := by
  unfold State.count
  split
  · exact h
  · refine List.foldlRecOn (upto 8) _ h fun u hu i _ => ?_
    dsimp only
    split
    · exact hu
    · exact prfAdd hu bank i _

theorem caCheck (h : s.KeepsControl t) (c : Nat) : s.KeepsControl (t.caCheck c) := by
  unfold State.caCheck
  split
  · have hcap : ¬ dramControl (F.MEM_ERRCNT_CAPAR c).key := by simp only [dramControl, F.MEM_ERRCNT_CAPAR]; omega
    have hclear : s.KeepsControl { t with mem.caBad := t.mem.caBad.filter (· ≠ c) } := h.of_regs rfl
    exact (hclear.incFld _ hcap).record _
  · exact h

end State.KeepsControl

/-! A read and a write of a channel in service, with the injection registers disarmed. -/

/-- The state once a command on the channel of a frame has passed its check and is counted. -/
def State.commanded (s : State) (f ev : Nat) (w : Who) : State :=
  (s.caCheck (frameChan f)).count (8 + frameChan f / 4) ev 1 w.tenant

theorem State.keepsControl_commanded {s : State} (hs : s.regsOk = true) (f ev : Nat) (w : Who) :
    s.KeepsControl (s.commanded f ev w) :=
  ((State.KeepsControl.refl hs).caCheck _).count _ _ _ _

/-- A command leaves the stored lines, their error patterns and the addresses they were made for. -/
theorem State.commanded_mem (s : State) (f ev : Nat) (w : Who) : (s.commanded f ev w).mem.dram = s.mem.dram ∧
    (s.commanded f ev w).mem.dramErr = s.mem.dramErr ∧ (s.commanded f ev w).mem.dramAt = s.mem.dramAt := by
  unfold State.commanded State.caCheck
  rw [State.count_mem]
  split
  · rw [State.record_mem]
    exact ⟨rfl, rfl, rfl⟩
  · exact ⟨rfl, rfl, rfl⟩

theorem State.commanded_misplaced (s : State) (f ev : Nat) (w : Who) (key : Nat) :
    (s.commanded f ev w).misplaced key = s.misplaced key := by
  obtain ⟨-, -, hat⟩ := s.commanded_mem f ev w
  simp only [State.misplaced, hat]

/-- The injection registers that a command on the channel of a frame meets are disarmed (R359, R360). -/
def State.disarmed (s : State) (f : Nat) : Prop :=
  s.bit F.ECC_PFLIP_ARM = false ∧ s.bit (F.MEM_FLIPCTL_ARM (frameChan f)) = false

theorem frameChan_lt (f : Nat) : frameChan f < 24 := Nat.mod_lt _ (by decide)

theorem State.KeepsControl.disarmed {s t : State} (h : s.KeepsControl t) {f : Nat} (hd : s.disarmed f) : t.disarmed f := by
  obtain ⟨hpflip, hflip⟩ := hd
  have hc := frameChan_lt f
  constructor
  · rw [h.bit (by simp [dramControl, F.ECC_PFLIP_ARM]), hpflip]
  · rw [h.bit (by simp only [dramControl, F.MEM_FLIPCTL_ARM]; omega), hflip]

theorem State.KeepsControl.chReady {s t : State} (h : s.KeepsControl t) (f : Nat) :
    t.chReady (frameChan f) = s.chReady (frameChan f) := by
  have hc := frameChan_lt f
  exact h.bit (by simp only [dramControl, F.MEM_STS_READY]; omega)

theorem State.takePflip_of_disarmed {s : State} {f : Nat} (h : s.disarmed f) (cls die unit : Nat) :
    s.takePflip cls die unit = (false, s) := if_neg (by simp [h.1])

/-- A disarmed store puts the line and a valid codeword, made for its own address (R343). -/
theorem State.storeLine_of_disarmed {s : State} {f : Nat} (h : s.disarmed f) (line : Nat) (d : Line) :
    s.storeLine f line d = { s with
      mem.dram := sput (fun _ => 0) s.mem.dram (f * 64 + line) d
      mem.dramErr := sput (fun _ => 0) s.mem.dramErr (f * 64 + line) 0
      mem.dramAt := tdel s.mem.dramAt (f * 64 + line) } := by
  obtain ⟨_, hflip⟩ := h
  simp only [State.storeLine, hflip, Bool.false_and, Bool.false_eq_true, if_false]

/-- A write is stored (R343). -/
theorem State.writeRaw_of_ready {s : State} (hs : s.regsOk = true) {f : Nat} (hd : s.disarmed f)
    (hr : s.chReady (frameChan f) = true) (w : Who) (line : Nat) (d : Line) :
    s.writeRaw w f line d = ((s.commanded f 2 w).storeLine f line d, true) := by
  have hp := State.takePflip_of_disarmed ((s.keepsControl_commanded hs f 2 w).disarmed hd) 2 0 (frameChan f)
  unfold State.commanded at hp ⊢
  simp only [State.writeRaw, hr, hp, Bool.not_true, Bool.false_eq_true, if_false]

/-- A read meets a codeword of another address, or checks what is stored (R342). -/
theorem State.readRaw_of_ready {s : State} (hs : s.regsOk = true) {f : Nat} (hd : s.disarmed f)
    (hr : s.chReady (frameChan f) = true) (w : Who) (line src : Nat) : s.readRaw w f line src =
    if s.misplaced (f * 64 + line) then
      (((s.commanded f 1 w).logUe f line src ueADDRESS).recordUe w f line src, .bad)
    else (s.commanded f 1 w).checkLine w f line src (sget (fun _ => 0) s.mem.dram (f * 64 + line))
      (sget (fun _ => 0) s.mem.dramErr (f * 64 + line)) := by
  have hp := State.takePflip_of_disarmed ((s.keepsControl_commanded hs f 1 w).disarmed hd) 1 0 (frameChan f)
  obtain ⟨hdram, herr, -⟩ := s.commanded_mem f 1 w
  rw [← s.commanded_misplaced f 1 w, ← hdram, ← herr]
  unfold State.commanded at hp ⊢
  simp only [State.readRaw, hr, hp, Bool.not_true, Bool.false_eq_true, if_false]

/-- A codeword without an error is the line as stored (R342). -/
theorem State.checkLine_of_valid (s : State) (w : Who) (f line src : Nat) (d : Line) :
    s.checkLine w f line src d 0 = (s, .line d false) := by
  simp [State.checkLine, errDevices]

/-! What a write leaves, and the read after it. -/

/-- What a write leaves of the stored lines, their error patterns and the addresses they were made for (R343). -/
theorem State.writeRaw_mem {s : State} (hs : s.regsOk = true) {f : Nat} (hd : s.disarmed f)
    (hr : s.chReady (frameChan f) = true) (w : Who) (line : Nat) (d : Line) :
    (s.writeRaw w f line d).1.mem.dram = sput (fun _ => 0) s.mem.dram (f * 64 + line) d ∧
    (s.writeRaw w f line d).1.mem.dramErr = sput (fun _ => 0) s.mem.dramErr (f * 64 + line) 0 ∧
    (s.writeRaw w f line d).1.mem.dramAt = tdel s.mem.dramAt (f * 64 + line) := by
  obtain ⟨hdram, herr, hat⟩ := s.commanded_mem f 2 w
  rw [State.writeRaw_of_ready hs hd hr, State.storeLine_of_disarmed ((s.keepsControl_commanded hs f 2 w).disarmed hd), hdram,
    herr, hat]
  simp only [and_self]

theorem State.keepsControl_writeRaw {s : State} (hs : s.regsOk = true) {f : Nat} (hd : s.disarmed f)
    (hr : s.chReady (frameChan f) = true) (w : Who) (line : Nat) (d : Line) : s.KeepsControl (s.writeRaw w f line d).1 := by
  have hcmd := s.keepsControl_commanded hs f 2 w
  rw [State.writeRaw_of_ready hs hd hr, State.storeLine_of_disarmed (hcmd.disarmed hd)]
  exact hcmd.of_regs rfl

/-- Where the keys of `dramAt` rise, a line that was written reads as written (R342, R343). -/
theorem State.readRaw_writeRaw {s : State} (hs : s.regsOk = true) (hm : Memory.wf s.mem = true)
    (hat : tsorted s.mem.dramAt = true) {f : Nat} (hd : s.disarmed f) (hr : s.chReady (frameChan f) = true) (w v : Who)
    (line src : Nat) (d : Line) : ((s.writeRaw w f line d).1.readRaw v f line src).2 = .line d false := by
  have hkeep := State.keepsControl_writeRaw hs hd hr w line d
  obtain ⟨hdram, herr, hdel⟩ := State.writeRaw_mem hs hd hr w line d
  obtain ⟨hwf, hwfErr⟩ := Bool.and_eq_true_iff.mp hm
  have hown : (s.writeRaw w f line d).1.misplaced (f * 64 + line) = false := by
    simp only [State.misplaced, hdel, tget_tdel_self _ hat]
  rw [State.readRaw_of_ready hkeep.1 (hkeep.disarmed hd) ((hkeep.chReady f).trans hr), hown,
    if_neg Bool.false_ne_true, hdram, herr, sget_sput_self _ _ hwf, sget_sput_self _ _ hwfErr, State.checkLine_of_valid]

/-- A write leaves every other line and its error pattern. -/
theorem State.writeRaw_away {s : State} (hs : s.regsOk = true) (hm : Memory.wf s.mem = true) {f : Nat} (hd : s.disarmed f)
    (hr : s.chReady (frameChan f) = true) (w : Who) (line : Nat) (d : Line) {k : Nat} (hk : k ≠ f * 64 + line) :
    sget (fun _ => 0) (s.writeRaw w f line d).1.mem.dram k = sget (fun _ => 0) s.mem.dram k ∧
    sget (fun _ => 0) (s.writeRaw w f line d).1.mem.dramErr k = sget (fun _ => 0) s.mem.dramErr k := by
  obtain ⟨hdram, herr, -⟩ := State.writeRaw_mem hs hd hr w line d
  obtain ⟨hwf, hwfErr⟩ := Bool.and_eq_true_iff.mp hm
  rw [hdram, herr]
  exact ⟨sget_sput_ne _ hwf hk, sget_sput_ne _ hwfErr hk⟩

/-- While the channel is out of service a write is lost (R353). -/
theorem State.writeRaw_of_halted {s : State} {f : Nat} (h : s.chReady (frameChan f) = false) (w : Who) (line : Nat) (d : Line) :
    s.writeRaw w f line d = (s, false) := if_pos (by simp [h])

/-- While the channel is out of service a read answers that it is halted (R353). -/
theorem State.readRaw_of_halted {s : State} {f : Nat} (h : s.chReady (frameChan f) = false) (w : Who) (line src : Nat) :
    s.readRaw w f line src = (s, .halted) := if_pos (by simp [h])

/-- Where the keys of `dramAt` rise too, all of the statement holds: it lacks that premise alone. -/
theorem State.dramReadsAsWritten_of_tsorted {s t : State} {f line : Nat} (hs : s.regsOk = true) (hm : Memory.wf s.mem = true)
    (hat : tsorted s.mem.dramAt = true) (hl : line < 64) (hd : s.disarmed f) (w v : Who) (src : Nat) (d : Line) :
    (s.chReady (frameChan f) = true → t = (s.writeRaw w f line d).1 →
      (s.writeRaw w f line d).2 = true ∧ Memory.wf t.mem = true ∧ (t.readRaw v f line src).2 = .line d false ∧
      ∀ g k, k < 64 → (g, k) ≠ (f, line) →
        sget (fun _ => 0) t.mem.dram (g * 64 + k) = sget (fun _ => 0) s.mem.dram (g * 64 + k) ∧
        sget (fun _ => 0) t.mem.dramErr (g * 64 + k) = sget (fun _ => 0) s.mem.dramErr (g * 64 + k)) ∧
    (s.chReady (frameChan f) = false → s.writeRaw w f line d = (s, false) ∧ s.readRaw v f line src = (s, .halted)) := by
  refine ⟨?ready, fun hr => ⟨State.writeRaw_of_halted hr w line d, State.readRaw_of_halted hr v line src⟩⟩
  rintro hr rfl
  refine ⟨by rw [State.writeRaw_of_ready hs hd hr], State.writeRaw_wf hm w f line d,
    State.readRaw_writeRaw hs hm hat hd hr w v line src d, fun g k hk hgk => State.writeRaw_away hs hm hd hr w line d ?_⟩
  intro he
  exact hgk (Prod.ext (by dsimp only; omega) (by dsimp only; omega))

/-- Channel 0 in service, and line 0 of frame 0 listed twice in `dramAt` as made for another address. -/
def listedTwice : State := { State.reset.setFld (F.MEM_STS_READY 0) 1 with mem.dramAt := [(0, 1), (0, 1)] }

theorem listedTwice_regsOk : listedTwice.regsOk = true := by decide

theorem listedTwice_disarmed : listedTwice.disarmed 0 := by constructor <;> decide

theorem listedTwice_ready : listedTwice.chReady (frameChan 0) = true := by decide

/-- The write takes one of the two entries away, and the read meets the other. -/
theorem listedTwice_reads_bad : ((listedTwice.writeRaw nobody 0 0 0).1.readRaw nobody 0 0 0).2 = .bad := by
  have hkeep := State.keepsControl_writeRaw listedTwice_regsOk listedTwice_disarmed listedTwice_ready nobody 0 0
  obtain ⟨-, -, hdel⟩ := State.writeRaw_mem listedTwice_regsOk listedTwice_disarmed listedTwice_ready nobody 0 0
  have hother : (listedTwice.writeRaw nobody 0 0 0).1.misplaced (0 * 64 + 0) = true := by
    simp only [State.misplaced, hdel]
    decide
  rw [State.readRaw_of_ready hkeep.1 (hkeep.disarmed listedTwice_disarmed) ((hkeep.chReady 0).trans listedTwice_ready),
    if_pos hother]

/-- Refutes O48: `tdel` takes away one entry of a key, so that where `dramAt` lists a line twice the line stays misplaced after
the write and reads as uncorrectable. The premises put `dram` and `dramErr` in canonical form and leave `dramAt` free; no command
lists an entry there, so that no run reaches such a state. -/
theorem not_dramReadsAsWritten : ¬ Obligations.DramReadsAsWritten := by
  intro h
  obtain ⟨hpflip, hflip⟩ := listedTwice_disarmed
  obtain ⟨hready, -⟩ := h listedTwice _ nobody nobody 0 0 0 0 listedTwice_regsOk rfl (by decide) hpflip hflip
  obtain ⟨-, -, hread, -⟩ := hready listedTwice_ready rfl
  rw [listedTwice_reads_bad] at hread
  cases hread

end Sys2Proof.Machine

/-! The translation unit: what the writes of its registers start, and how its operations end. -/

namespace Sys2Proof.Machine

/-! The writes of TRN_ASSIGN and TRN_INV (R67, R71, R73). -/

/-- GO at an idle unit, with an operation that is not the reserved one, registers the operation of ARG0 and ARG1. -/
theorem State.wrAssign_of_idle {s : State} {w : Word} (hgo : wbit w 0 = true) (hidle : s.bit F.TRN_ASSIGN_STS_BUSY = false)
    (hop : s.fld F.TRN_ASSIGN_ARG0_OP ≠ 3) : s.wrAssign w =
      { s with home.assign := some ⟨s.fld F.TRN_ASSIGN_ARG0_OP, s.fld F.TRN_ASSIGN_ARG0_HSLOT,
        s.fld F.TRN_ASSIGN_ARG0_TENANT, s.fld F.TRN_ASSIGN_ARG1_PAEXT⟩ }.setFld F.TRN_ASSIGN_STS_BUSY 1 := by
  have hgo : w.getLsbD 0 = true := hgo
  simp only [State.wrAssign, hgo, hidle, if_neg hop, Bool.not_true, Bool.false_eq_true, if_false]

/-- An admitted write of TRN_ASSIGN with GO that finds its operation in ARG0 runs it. -/
theorem State.assignCmd_admits {s : State} {src : CsrSrc} {w : Word} {op : Nat} (hadm : s.admitsWrite src F.TRN_ASSIGN.key w = true)
    (hgo : wbit w 0 = true) (hop : s.fld F.TRN_ASSIGN_ARG0_OP = op) : s.assignCmd src w op =
      s.answered (writeReq src F.TRN_ASSIGN.key w) ((s.stored F.TRN_ASSIGN.key w).wrAssign w) wrote :=
  State.csrTrig_admits _ hadm (by simp [hgo, hop])

/-- The extents of a tenant whose cached translations a write of TRN_INV drops, by its scope (R71). -/
def State.invHits (s : State) (w : Word) (t ext : Nat) : Bool :=
  decide (wbits w 0 2 = 2) || (decide (t = wbits w 2 12) && (decide (wbits w 0 2 = 1)
    || (decide (s.fld F.TRN_INV_RANGE_START ≤ ext) && (decide (s.fld F.TRN_INV_RANGE_COUNT = 0)
      || decide (ext < s.fld F.TRN_INV_RANGE_START + s.fld F.TRN_INV_RANGE_COUNT)))))

theorem State.invHits_range {w : Word} (hw : wbits w 0 2 = 0) (s : State) : s.invHits w = fun t ext =>
    decide (t = wbits w 2 12) && (decide (s.fld F.TRN_INV_RANGE_START ≤ ext) && (decide (s.fld F.TRN_INV_RANGE_COUNT = 0)
      || decide (ext < s.fld F.TRN_INV_RANGE_START + s.fld F.TRN_INV_RANGE_COUNT))) := by
  funext t ext
  simp [State.invHits, hw]

theorem State.invHits_tenant {w : Word} (hw : wbits w 0 2 = 1) (s : State) :
    s.invHits w = fun t _ => decide (t = wbits w 2 12) := by
  funext t ext
  simp [State.invHits, hw]

theorem State.invHits_all {w : Word} (hw : wbits w 0 2 = 2) (s : State) : s.invHits w = fun _ _ => true := by
  funext t ext
  simp [State.invHits, hw]

/-- At an idle unit a scope that is not the reserved one drops what it names. -/
theorem State.wrInv_of_idle {s : State} {w : Word} (hscope : wbits w 0 2 ≠ 3) (hidle : s.bit F.TRN_INV_STS_BUSY = false) :
    s.wrInv w = (s.dropCached (s.invHits w)).setFld F.TRN_INV_STS_BUSY 1 := by
  simp only [State.wrInv, if_neg hscope, hidle, Bool.false_eq_true, if_false]
  rfl

/-- An admitted write of TRN_INV at an idle unit drops what its scope names. -/
theorem State.invCmd_admits {s : State} {src : CsrSrc} {w : Word} {scope : Nat} (hadm : s.admitsWrite src F.TRN_INV.key w = true)
    (hw : wbits w 0 2 = scope) (hscope : scope ≠ 3) (hidle : (s.stored F.TRN_INV.key w).bit F.TRN_INV_STS_BUSY = false) :
    s.invCmd src w scope = s.answered (writeReq src F.TRN_INV.key w)
      (((s.stored F.TRN_INV.key w).dropCached ((s.stored F.TRN_INV.key w).invHits w)).setFld F.TRN_INV_STS_BUSY 1) wrote := by
  rw [State.invCmd, State.csrTrig_admits _ hadm (decide_eq_true hw), State.wrInv_of_idle (hw ▸ hscope) hidle]

/-! The extent table's window (R55, R56, R73). -/

/-- A write past the slot table and within the region stores the entry. -/
theorem State.wrEtData_of_inRange {s : State} (hlo : s.slotCount ≤ s.fld F.TRN_ET_ADDR_OFF)
    (hhi : s.fld F.TRN_ET_ADDR_OFF < s.etrBytes / 8) (w : Word) :
    s.wrEtData w = (s.setSlot (s.fld F.TRN_ET_ADDR_OFF) w).etNext :=
  congrArg State.etNext (if_pos ⟨hlo, hhi⟩)

/-- A read within the region of an entry that can be read answers it. -/
theorem State.rdEtData_of_good {s : State} (hhi : s.fld F.TRN_ET_ADDR_OFF < s.etrBytes / 8)
    (hgood : s.mem.etrBad.contains (s.fld F.TRN_ET_ADDR_OFF) = false) :
    s.rdEtData = (s.etNext, ⟨0, 0, s.slotEntry (s.fld F.TRN_ET_ADDR_OFF)⟩) := by
  simp only [State.rdEtData, if_neg (Nat.not_le.mpr hhi), hgood, Bool.false_eq_true, if_false]

/-- Settles O1: an admitted write or read runs its register's operation, whose guards the state passes. -/
theorem translationWritesComplete : Obligations.TranslationWritesComplete := by
  rintro s u v src w rfl rfl
  refine ⟨?assign, fun hidle => ⟨fun hw hadm => ?range, fun hw hadm => ?tenant, fun hw hadm => ?all⟩, fun hlo hhi hadm => ?write,
    fun hhi hgood hadm => ?read⟩
  case assign =>
    intro op i hi hgo hop huop hidle hadm
    have hexec : exec i s = .next (s.assignCmd src w op) ∧ op ≠ 3 := by
      simp only [List.mem_cons, Prod.mk.injEq, List.not_mem_nil, or_false] at hi
      obtain ⟨rfl, rfl⟩ | ⟨rfl, rfl⟩ | ⟨rfl, rfl⟩ := hi <;> exact ⟨rfl, by decide⟩
    obtain ⟨hexec, hne⟩ := hexec
    rw [hexec, State.assignCmd_admits hadm hgo hop, State.wrAssign_of_idle hgo hidle (huop ▸ hne), huop]
  case range =>
    change Host.Outcome.next (s.invCmd src w 0) = _
    rw [State.invCmd_admits hadm hw (by decide) hidle, State.invHits_range hw]
  case tenant =>
    change Host.Outcome.next (s.invCmd src w 1) = _
    rw [State.invCmd_admits hadm hw (by decide) hidle, State.invHits_tenant hw]
  case all =>
    change Host.Outcome.next (s.invCmd src w 2) = _
    rw [State.invCmd_admits hadm hw (by decide) hidle, State.invHits_all hw]
  case write =>
    simp only [State.admitsWrite, Bool.and_eq_true] at hadm
    refine congrArg Host.Outcome.next ((State.csrDo_admits _ hadm.2).trans ?_)
    rw [State.wrEtData_of_inRange hlo hhi]
    rfl
  case read =>
    simp only [State.admitsRead, Bool.and_eq_true] at hadm
    refine congrArg Host.Outcome.next ((State.csrDo_admits _ hadm.2).trans ?_)
    rw [State.rdEtData_of_good hhi hgood]
    rfl

/-! The end of an operation (R67, R68). -/

/-- The end of an operation that completes. -/
theorem State.endAssign_ok (s : State) (slot : Nat) : s.endAssign asOK slot =
    (({ s with home.assign := none }.setFld F.TRN_ASSIGN_STS_BUSY 0).setFld F.TRN_ASSIGN_STS_RESULT 0).setFld
      F.TRN_ASSIGN_STS_HSLOT slot := rfl

/-- An ASSIGN of an extent that this module is home of, within the capacity and not in use, takes the lowest free slot. -/
theorem State.doAssign_of_free {s : State} {a : Assign} {m slot : Nat} (hm : s.mapMember false (a.paext * 2 ^ 21) = some m)
    (hnode : s.memNode false m = s.node) (hhome : s.isHomeEntry false m = true) (hcap : s.slotsUsed + 1 ≤ s.effCapacity)
    (huse : s.extentInUse a.paext = false) (hslot : s.lowestFree = some slot) :
    s.doAssign a = ((s.rewriteDescs slot (some a.tenant)).setSlot slot (usedEntry a.paext)).endAssign asOK slot := by
  simp only [State.doAssign, hm, hnode, hhome, Nat.not_lt.mpr hcap, huse, hslot, decide_true, Bool.and_self, Bool.not_true,
    Bool.false_eq_true, false_and, if_false]

/-- The state once REASSIGN or RELEASE has freed its slot's pages and rewritten its descriptors and its entry (R67 steps 4 to 6). -/
def State.reassigned (s : State) (a : Assign) (paext : Nat) : State :=
  (((upto 512).foldl (fun s p => s.freePage (512 * a.slot + p) (paext * 2 ^ 21 + p * 4096)) s).rewriteDescs a.slot
    (if a.op = 1 then some a.tenant else none)).setSlot a.slot (if a.op = 1 then usedEntry paext else 0)

/-- REASSIGN and RELEASE complete once every line is recalled. -/
theorem State.doReassign_of_recalled {s : State} {a : Assign} {paext : Nat} (hext : s.recalls a = some paext)
    (hdone : s.recalled a.slot paext = true) : s.doReassign a = (s.reassigned a paext).endAssign asOK a.slot := by
  simp only [State.doReassign, hext, hdone, Bool.not_true, Bool.false_eq_true, if_false]
  rfl

theorem State.assignDone_of_assign {s : State} {a : Assign} (ha : s.home.assign = some a) (hop : a.op = 0) :
    s.assignDone = s.doAssign a := by
  simp only [State.assignDone, ha, if_pos hop]

theorem State.assignDone_of_reassign {s : State} {a : Assign} (ha : s.home.assign = some a) (hop : a.op ≠ 0) :
    s.assignDone = s.doReassign a := by
  simp only [State.assignDone, ha, if_neg hop]

theorem exec_assignDone {s : State} (hup : s.dataUp = true) : exec .assignDone s = .next (s.after s.assignDone) :=
  congrArg Host.Outcome.next (State.act_of_dataUp hup State.assignDone)

/-- Settles O25: the operation completes by the rule of its OP, whose guards the state passes. -/
theorem translationOperationsComplete : Obligations.TranslationOperationsComplete := by
  intro s u a ha
  refine ⟨?assign, ?reassign, rfl⟩
  case assign =>
    rintro m slot hop hm hnode hhome hcap huse hslot rfl hup
    rw [exec_assignDone hup, State.assignDone_of_assign ha hop, State.doAssign_of_free hm hnode hhome hcap huse hslot,
      State.endAssign_ok]
  case reassign =>
    rintro paext hop hext hdone rfl hup
    rw [exec_assignDone hup, State.assignDone_of_reassign ha (by omega), State.doReassign_of_recalled hext hdone,
      State.endAssign_ok]
    rfl

end Sys2Proof.Machine

/-! Requests at the member that holds their connection (R57, R58, R153, R185, R195). -/

namespace Sys2Proof.Machine

/-- The request commands, each with the request that it carries. -/
def requestCommands (conn : ConnId) (hdr : ReqHdr) (mask : BitVec 64) (line : Line) (opa opb : BitVec 128) : List (Instr × Req) :=
  [(.readShared conn hdr, mkReq .readShared hdr 0 0 0 0), (.readOwn conn hdr, mkReq .readOwn hdr 0 0 0 0),
    (.upgrade conn hdr, mkReq .upgrade hdr 0 0 0 0), (.readNoCache conn hdr, mkReq .readNoCache hdr 0 0 0 0),
    (.writeNoCache conn hdr mask line, mkReq .writeNoCache hdr mask line 0 0),
    (.writeBack conn hdr line, mkReq .writeBack hdr 0 line 0 0), (.evictClean conn hdr, mkReq .evictClean hdr 0 0 0 0),
    (.fetchAdd conn hdr opa, mkReq .fetchAdd hdr 0 0 opa 0), (.swap conn hdr opa, mkReq .swap hdr 0 0 opa 0),
    (.compareSwap conn hdr opa opb, mkReq .compareSwap hdr 0 0 opa opb), (.fence conn hdr, mkReq .fence hdr 0 0 0 0)]

/-- Each of them is the arrival of its request, under its header. -/
theorem exec_requestCommand {conn : ConnId} {hdr : ReqHdr} {mask : BitVec 64} {line : Line} {opa opb : BitVec 128} {i : Instr}
    {r : Req} (h : (i, r) ∈ requestCommands conn hdr mask line opa opb) :
    (∀ s, exec i s = .next (s.request conn r)) ∧ r.hdr = hdr := by
  simp only [requestCommands, List.mem_cons, Prod.mk.injEq, List.not_mem_nil, or_false] at h
  obtain ⟨rfl, rfl⟩ | ⟨rfl, rfl⟩ | ⟨rfl, rfl⟩ | ⟨rfl, rfl⟩ | ⟨rfl, rfl⟩ | ⟨rfl, rfl⟩ | ⟨rfl, rfl⟩ | ⟨rfl, rfl⟩ | ⟨rfl, rfl⟩
    | ⟨rfl, rfl⟩ | ⟨rfl, rfl⟩ := h <;> exact ⟨fun _ => rfl, rfl⟩

/-- The state once a request has left its class buffer and has the number `nextId` had. -/
def State.numbered (s : State) (k : Nat) (r : Req) : State :=
  let u := s.takeMsg k 1 fun m => m = .req r
  { u with home.nextId := u.home.nextId + 1 }

/-- The number that the next request taken has. -/
def State.reqId (s : State) (k : Nat) (r : Req) : Nat := (s.takeMsg k 1 fun m => m = .req r).home.nextId

/-- The state once a request that is no Fence is in progress here. -/
def State.inProgress (s : State) (k : Nat) (c : Conn) (r : Req) : State :=
  let x := s.numbered k r
  { x with home.oreqs := x.home.oreqs ++ [(⟨s.reqId k r, k, c.opened, r, 0, none, none⟩ : OReq)] }

/-- The request is the next of its open connection, keeps the message rules, is bound, and its agent is attached. -/
structure State.TakesBound (s : State) (k : Nat) (c : Conn) (r : Req) : Prop where
  conn : s.conn k = some c
  dataUp : s.dataUp = true
  inTurn : s.inTurn k 1 (fun m => m = .req r) = true
  msgsOk : c.msgsOk 1 [.req r] = true
  bound : (s.numbered k r).bound k r.hdr.tenant.toNat = some true
  attached : (s.numbered k r).isDetached c.agent = false

/-- A request in progress on the connection has the TXID of `r`; an EvictClean, which has no answer, is none's duplicate (R153). -/
def State.Duplicate (s : State) (k : Nat) (r : Req) : Prop :=
  r.op ≠ .evictClean ∧ ∃ o ∈ s.home.oreqs, o.conn = k ∧ o.req.hdr.txid = r.hdr.txid ∧ o.req.op ≠ .evictClean

/-- A Fence waits, with what came before it on its connection. -/
theorem State.recvReq_fence {s : State} {k : Nat} {c : Conn} {r : Req} (h : s.TakesBound k c r) (hop : r.op = .fence) :
    s.recvReq k r = { s.numbered k r with
      home.fences := (s.numbered k r).home.fences ++ [(⟨s.reqId k r, k, c.opened, r, none, [], 0⟩ : FenceRec)] } := by
  obtain ⟨hconn, hup, hturn, hok, hbound, hatt⟩ := h
  unfold State.numbered at hbound hatt
  simp only [State.recvReq, hconn, hup, hturn, hok, hop, hbound, hatt, Bool.not_true, Bool.false_eq_true, or_self, if_false,
    if_true]
  rfl

/-- A request that is no Fence and no duplicate, translates, and is not served by a replica goes on to its home. -/
theorem State.recvReq_translated {s y z : State} {k : Nat} {c : Conn} {r : Req} {pa slot m : Nat} (h : s.TakesBound k c r)
    (hop : r.op ≠ .fence) (hdup : ¬ (s.numbered k r).Duplicate k r)
    (hxl : (s.inProgress k c r).translate (engineDie c.engine) r.hdr.txid.toNat r.hdr.tenant.toNat r.op r.hdr.addr.toNat =
      (y, .ok pa slot m)) (hrep : y.serveReplica k r pa = (z, false)) :
    s.recvReq k r = z.sendHome (s.reqId k r) (s.rxEngine k 1) k slot m (withPa r pa) := by
  obtain ⟨hconn, hup, hturn, hok, hbound, hatt⟩ := h
  have hbound : (s.inProgress k c r).bound k r.hdr.tenant.toNat = some true := hbound
  have hatt : (s.inProgress k c r).isDetached c.agent = false := hatt
  have hdup : ¬ (r.op ≠ .evictClean ∧ (s.numbered k r).home.oreqs.any (fun x =>
      decide (x.conn = k) && decide (x.req.hdr.txid = r.hdr.txid) && decide (x.req.op ≠ .evictClean)) = true) := by
    simpa [State.Duplicate, and_assoc] using hdup
  unfold State.inProgress State.numbered State.reqId at hbound hatt hxl
  unfold State.numbered at hdup
  simp only [State.recvReq, hconn, hup, hturn, hok, Bool.not_true, Bool.false_eq_true, or_self, if_false, if_neg hop, if_neg hdup,
    hbound, hatt, hxl, hrep]
  rfl

/-- Settles O16: the command is its request's arrival, and the request passes every check of the member. -/
theorem requestsComplete : Obligations.RequestsComplete := by
  rintro s u x y z conn hdr i r c mask line opa opb hconn hi hturn hok rfl rfl hbound hatt
  obtain ⟨hexec, rfl⟩ := exec_requestCommand hi
  have hruns (t : State) (ht : s.dataUp = true → s.recvReq conn.toNat r = t) : s.Moves i t := fun hup => by
    rw [hexec, State.request, State.act_of_dataUp hup, ht hup]
  have htakes (hup : s.dataUp = true) : s.TakesBound conn.toNat c r := ⟨hconn, hup, hturn, hok, hbound, hatt⟩
  refine ⟨fun hop => hruns _ fun hup => State.recvReq_fence (htakes hup) hop, fun pa slot m hop hfree hxl hrep =>
    hruns _ fun hup => State.recvReq_translated (htakes hup) hop ?_ hxl hrep⟩
  rintro ⟨hne, o, ho, hk, htx, hoe⟩
  exact hoe (hfree hne o ho hk htx)

end Sys2Proof.Machine

/-! The wire formats: reading a header, a Coldel message or a Picot message gives what was written (R83, R100, R103 to R108, R119,
R156, R161, R236, R249, R263, R300). Every one of them starts with fields at fixed bits of one number. -/

namespace Sys2Proof

open Sys2Proof.Machine

/-! The fields of a number that is a sum of fields. -/

@[simp] theorem bitsOf_add_low (a b : Nat) {k lo w : Nat} (h : lo + w ≤ k) : bitsOf (a + 2 ^ k * b) lo w = bitsOf a lo w := by
  obtain ⟨d, rfl⟩ := Nat.exists_eq_add_of_le h
  simp only [bitsOf, Nat.pow_add, Nat.mul_assoc]
  rw [Nat.add_mul_div_left _ _ (Nat.two_pow_pos lo), Nat.add_mul_mod_self_left]

@[simp] theorem bitsOf_add_high {a k lo : Nat} (b w : Nat) (ha : a < 2 ^ k) (h : k ≤ lo) :
    bitsOf (a + 2 ^ k * b) lo w = bitsOf b (lo - k) w := by
  obtain ⟨d, rfl⟩ := Nat.exists_eq_add_of_le h
  simp only [bitsOf, Nat.pow_add, ← Nat.div_div_eq_div_mul]
  rw [Nat.add_mul_div_left _ _ (Nat.two_pow_pos k), Nat.div_eq_of_lt ha, Nat.zero_add, Nat.add_sub_cancel_left]

theorem bitsOf_eq_zero {v lo : Nat} (w : Nat) (h : v < 2 ^ lo) : bitsOf v lo w = 0 := by
  rw [bitsOf, Nat.div_eq_of_lt h, Nat.zero_mod]

@[simp] theorem bitsOf_b2n (b : Bool) : bitsOf (b2n b) 0 1 = b2n b := by cases b <;> decide

@[simp] theorem ofNat_bitsOf_toNat {w : Nat} (x : BitVec w) : BitVec.ofNat w (bitsOf x.toNat 0 w) = x := by
  rw [bitsOf, Nat.pow_zero, Nat.div_one, Nat.mod_eq_of_lt x.isLt, BitVec.ofNat_toNat, BitVec.setWidth_eq]

/-- A bit vector of a wider field holds the field's low bits. -/
@[simp] theorem ofNat_bitsOf_wide (v lo : Nat) {w k : Nat} (h : w < k) :
    BitVec.ofNat w (bitsOf v lo k) = BitVec.ofNat w (bitsOf v lo w) := by
  apply BitVec.eq_of_toNat_eq
  simp only [BitVec.toNat_ofNat, bitsOf, Nat.mod_mod, Nat.mod_mod_of_dvd _ (Nat.pow_dvd_pow 2 h.le)]

theorem bitsOf_of_lt {b w : Nat} (h : b < 2 ^ w) : bitsOf b 0 w = b := by
  simp only [bitsOf, Nat.pow_zero, Nat.div_one, Nat.mod_eq_of_lt h]

theorem b2n_lt (b : Bool) : b2n b < 2 := by cases b <;> decide

@[simp] theorem b2n_eq_one (b : Bool) : b2n b = 1 ↔ b = true := by cases b <;> decide

/-! A list of bytes as a number: its parts, its fields, and the fields of a value's bytes. -/

theorem leNat_append (a b : List Byte) : leNat (a ++ b) = leNat a + 2 ^ (8 * a.length) * leNat b := by
  induction a with
  | nil => simp [leNat]
  | cons x a ih =>
    simp only [List.cons_append, leNat, ih, List.length_cons, Nat.mul_add, Nat.pow_add]
    ring

theorem leNat_take (l : List Byte) (n : Nat) : leNat (l.take n) = leNat l % 2 ^ (8 * n) := by
  obtain h | h := Nat.le_total n l.length
  · conv_rhs => rw [← List.take_append_drop n l, leNat_append, List.length_take_of_le h, Nat.add_mul_mod_self_left]
    have := leNat_lt (l.take n)
    rw [List.length_take_of_le h] at this
    rw [Nat.mod_eq_of_lt this]
  · rw [List.take_of_length_le h, Nat.mod_eq_of_lt]
    exact (leNat_lt l).trans_le (Nat.pow_le_pow_right (by decide) (by omega))

theorem leNat_drop (l : List Byte) (n : Nat) : leNat (l.drop n) = leNat l / 2 ^ (8 * n) := by
  induction n generalizing l with
  | zero => simp
  | succ n ih =>
    cases l with
    | nil => simp [leNat]
    | cons b l =>
      have := b.isLt
      rw [List.drop_succ_cons, ih, leNat, Nat.mul_succ, Nat.add_comm (8 * n), Nat.pow_add, ← Nat.div_div_eq_div_mul]
      congr 1
      omega

theorem bytesAt_eq_bitsOf (l : List Byte) (i n : Nat) : bytesAt l i n = bitsOf (leNat l) (8 * i) (8 * n) := by
  rw [bytesAt, leNat_take, leNat_drop, bitsOf]

@[simp] theorem bitsOf_bitsOf (v : Nat) {lo w lo' w' : Nat} (h : lo' + w' ≤ w) :
    bitsOf (bitsOf v lo w) lo' w' = bitsOf v (lo + lo') w' := by
  obtain ⟨d, rfl⟩ := Nat.exists_eq_add_of_le h
  simp only [bitsOf, Nat.pow_add, ← Nat.div_div_eq_div_mul]
  rw [Nat.mul_assoc, Nat.mod_mul_right_div_self, Nat.mod_mul_right_mod]

@[simp] theorem bitsOf_bytesAt_leBytes {n k v lo w : Nat} {rest : List Byte} (hn : lo + w ≤ 8 * n) (hk : lo + w ≤ 8 * k) :
    bitsOf (bytesAt (leBytes n v ++ rest) 0 k) lo w = bitsOf v lo w := by
  rw [bytesAt_eq_bitsOf, bitsOf_bitsOf _ hk, leNat_append, length_leBytes, Nat.mul_zero, Nat.zero_add, bitsOf_add_low _ _ hn,
    leNat_leBytes]
  have := bitsOf_bitsOf v (lo := 0) hn
  simpa [bitsOf] using this

@[simp] theorem bytesAt_leBytes_append {n i k v : Nat} {rest : List Byte} (h : i + k ≤ n) :
    bytesAt (leBytes n v ++ rest) i k = bitsOf v (8 * i) (8 * k) := by
  rw [bytesAt_append_left _ _ _ _ (by simpa using h), bytesAt_eq_bitsOf, leNat_leBytes]
  have := bitsOf_bitsOf v (lo := 0) (w := 8 * n) (lo' := 8 * i) (w' := 8 * k) (by omega)
  simpa [bitsOf] using this

@[simp] theorem bytesAt_leBytes_skip {n i k v : Nat} {rest : List Byte} (h : n ≤ i) :
    bytesAt (leBytes n v ++ rest) i k = bytesAt rest (i - n) k := by
  simpa [Nat.add_sub_cancel' h] using bytesAt_append_right (leBytes n v) rest (i - n) k

/-! Coldel messages (R100, R103 to R108). -/

theorem ReqOp.code_lt (op : ReqOp) : op.code < 2 ^ 8 := by cases op <;> decide

theorem RespOp.code_lt (op : RespOp) : op.code < 2 ^ 8 := by cases op <;> decide

theorem SnpOp.code_lt (op : SnpOp) : op.code < 2 ^ 8 := by cases op <;> decide

theorem ReqOp.ofCode_code (op : ReqOp) : ReqOp.ofCode op.code = some op := by cases op <;> rfl

/-- The request header reads back (R104). -/
theorem parseReqHdr_head (r : Req) (rest : List Byte) : parseReqHdr (leBytes 16 r.head ++ rest) = r.hdr := by
  have hsz := b2n_lt r.hdr.sz16
  have hscope := b2n_lt r.hdr.scope
  have hop := r.op.code_lt
  simp (disch := omega) only [parseReqHdr, bitsOf_bytesAt_leBytes, Req.head, bitsOf_add_low, bitsOf_add_high, Nat.sub_self,
    bitsOf_b2n, b2n_eq_one, ofNat_bitsOf_toNat, Bool.decide_eq_true]

/-- A request that uses only the fields of its opcode reads back (R103, R104). -/
theorem parseReq_bytes {r : Req} (h : r.canon = true) (rest : List Byte) : parseReq r.op (r.bytes ++ rest) = r := by
  obtain ⟨op, hdr, mask, data, opa, opb⟩ := r
  cases op <;>
  simp only [Req.canon, ReqOp.isAtomic, reduceCtorEq, decide_true, decide_false, Bool.true_or, Bool.or_true, Bool.false_or,
    Bool.true_and, Bool.and_true, Bool.and_eq_true, decide_eq_true_eq] at h <;>
  simp (disch := omega) [Req.bytes, parseReq, parseReqHdr_head, ReqOp.isAtomic, h]

/-- A response that uses only the fields of its opcode reads back (R106). -/
theorem parseResp_bytes {r : Resp} (h : r.canon = true) (rest : List Byte) : parseResp r.op (r.bytes ++ rest) = r := by
  obtain ⟨op, status, consumed, tenant, txid, agent, pa, hint, epoch, redirect, line, old⟩ := r
  have hcons := b2n_lt consumed
  cases op <;>
  simp only [Resp.canon, reduceCtorEq, if_true, if_false, decide_true, decide_false, Bool.true_or, Bool.or_true,
    Bool.false_or, Bool.and_true, Bool.and_eq_true, decide_eq_true_eq] at h <;>
  simp (disch := omega) [-Nat.reducePow, Resp.bytes, parseResp, h, RespOp.code]

/-- A snoop reads back (R107). -/
theorem parseSnp_bytes (p : Snp) (rest : List Byte) : parseSnp p.op (p.bytes ++ rest) = p := by
  have hop := p.op.code_lt
  have hno := b2n_lt false
  simp (disch := omega) only [parseSnp, Snp.bytes, snpHead, bitsOf_bytesAt_leBytes, bitsOf_add_low, bitsOf_add_high, Nat.sub_self,
    ofNat_bitsOf_toNat]

/-- A snoop response reads back, with its data or without (R107). -/
theorem parseSnpResp_bytes (p : SnpResp) (rest : List Byte) : parseSnpResp p.data.isSome (p.bytes ++ rest) = p := by
  obtain ⟨newState, wbif, dirty, tenant, snptx, agent, pa, data⟩ := p
  have hwbif := b2n_lt wbif
  have hdirty := b2n_lt dirty
  cases data <;>
  simp (disch := omega) [-Nat.reducePow, parseSnpResp, SnpResp.bytes, snpHead]

/-- The opcode of a message (R103). -/
def Msg.opc : Msg → Nat
  | .csrRead .. => 0x01
  | .csrWrite .. => 0x02
  | .csrRsp .. => 0x03
  | .req r => r.op.code
  | .resp r => r.op.code
  | .snp p => p.op.code
  | .snpRsp p => if p.data.isSome then 0x39 else 0x38

/-- A message has the bytes that its opcode fixes (R103). -/
theorem Msg.length_bytes (m : Msg) : m.bytes.length = opcSize m.opc := by
  match m with
  | .csrRead .. => rfl
  | .csrWrite .. => rfl
  | .csrRsp .. => rfl
  | .req r => cases hop : r.op <;> simp [Msg.bytes, Req.bytes, Msg.opc, opcSize, ReqOp.code, ReqOp.ofCode, ReqOp.tail, hop]
  | .resp r => cases hop : r.op <;> simp [Msg.bytes, Resp.bytes, Msg.opc, opcSize, RespOp.code, ReqOp.ofCode, hop]
  | .snp p => cases hop : p.op <;> simp [Msg.bytes, Snp.bytes, snpHead, Msg.opc, opcSize, SnpOp.code, ReqOp.ofCode, hop]
  | .snpRsp p => cases hd : p.data <;> simp [Msg.bytes, SnpResp.bytes, snpHead, Msg.opc, opcSize, ReqOp.ofCode, hd]

/-- That is whole 8-byte words, at most 11 of them (R100, R103). -/
theorem Msg.opcSize_opc (m : Msg) : 0 < opcSize m.opc ∧ opcSize m.opc % 8 = 0 ∧ opcSize m.opc ≤ 88 := by
  match m with
  | .csrRead .. | .csrWrite .. | .csrRsp .. => simp [Msg.opc, opcSize]
  | .req r => cases hop : r.op <;> simp [Msg.opc, hop] <;> decide
  | .resp r => cases hop : r.op <;> simp [Msg.opc, hop] <;> decide
  | .snp p => cases hop : p.op <;> simp [Msg.opc, hop] <;> decide
  | .snpRsp p => cases hd : p.data <;> simp [Msg.opc, hd] <;> decide

theorem Msg.bytesAt_opc (m : Msg) (rest : List Byte) : bytesAt (m.bytes ++ rest) 0 1 = m.opc := by
  match m with
  | .csrRead .. | .csrWrite .. | .csrRsp .. =>
    simp (disch := omega) [-Nat.reducePow, Msg.bytes, Msg.opc, bitsOf_of_lt]
  | .req r =>
    have := r.op.code_lt
    simp (disch := omega) [-Nat.reducePow, Msg.bytes, Msg.opc, Req.bytes, Req.head, bitsOf_of_lt]
  | .resp r =>
    have := r.op.code_lt
    simp (disch := omega) [-Nat.reducePow, Msg.bytes, Msg.opc, Resp.bytes, bitsOf_of_lt]
  | .snp p =>
    have := p.op.code_lt
    simp (disch := omega) [-Nat.reducePow, Msg.bytes, Msg.opc, Snp.bytes, snpHead, bitsOf_of_lt]
  | .snpRsp p =>
    cases hd : p.data <;>
    simp (disch := omega) [-Nat.reducePow, Msg.bytes, Msg.opc, SnpResp.bytes, hd, snpHead, bitsOf_of_lt]

/-- The bytes of a message that uses only the fields of its opcode read as the message, whatever follows (R103 to R108). -/
theorem parseMsg_bytes {m : Msg} (h : m.canon = true) (rest : List Byte) : parseMsg (m.bytes ++ rest) = some m := by
  obtain ⟨hpos, -, -⟩ := m.opcSize_opc
  have hlong : ¬ (opcSize m.opc = 0 ∨ (m.bytes ++ rest).length < opcSize m.opc) := by
    rw [List.length_append, m.length_bytes]
    omega
  rw [parseMsg, m.bytesAt_opc]
  simp only [if_neg hlong]
  cases m with
  | csrRead t a =>
    simp (disch := omega) [-Nat.reducePow, Msg.bytes, Msg.opc, ReqOp.ofCode]
  | csrWrite t a w =>
    simp (disch := omega) [-Nat.reducePow, Msg.bytes, Msg.opc, ReqOp.ofCode]
  | csrRsp st hint t d =>
    simp (disch := omega) [-Nat.reducePow, Msg.bytes, Msg.opc, ReqOp.ofCode]
  | req r =>
    simp only [Msg.opc, Msg.bytes, ReqOp.ofCode_code, parseReq_bytes h]
  | resp r =>
    have hr := parseResp_bytes h rest
    cases hop : r.op <;> rw [hop] at hr <;> simp [Msg.opc, Msg.bytes, hop, RespOp.code, ReqOp.ofCode, hr]
  | snp p =>
    have hp := parseSnp_bytes p rest
    cases hop : p.op <;> rw [hop] at hp <;> simp [Msg.opc, Msg.bytes, hop, SnpOp.code, ReqOp.ofCode, hp]
  | snpRsp p =>
    have hp := parseSnpResp_bytes p rest
    cases hd : p.data <;> rw [hd] at hp <;> simp at hp <;> simp [Msg.opc, Msg.bytes, hd, ReqOp.ofCode, hp]

/-- PAD up to the end holds no message (R100). -/
theorem parsePayload_zeros {fuel : Nat} (hfuel : 0 < fuel) (zeros : Nat) :
    parsePayload fuel (List.replicate zeros 0) = some [] := by
  obtain ⟨n, rfl⟩ := Nat.exists_eq_succ_of_ne_zero hfuel.ne'
  cases zeros with
  | zero => simp [parsePayload]
  | succ z => simp [parsePayload, bytesAt, leNat, List.replicate_succ]

/-- A payload that begins with a message's bytes reads as that message and what follows (R100). -/
theorem parsePayload_bytes {m : Msg} (h : m.canon = true) (fuel : Nat) (rest : List Byte) :
    parsePayload (fuel + 1) (m.bytes ++ rest) = (parsePayload fuel rest).map (m :: ·) := by
  obtain ⟨hpos, -, -⟩ := m.opcSize_opc
  have hopc : m.opc ≠ 0 := by rintro h0; rw [h0] at hpos; exact absurd hpos (by decide)
  have hne : m.bytes ++ rest ≠ [] := List.ne_nil_of_length_pos (by rw [List.length_append, m.length_bytes]; omega)
  rw [parsePayload, if_neg hne, m.bytesAt_opc, if_neg hopc, parseMsg_bytes h]
  simp [← m.length_bytes]

/-- Settles O42: a payload is read message by message, each from the bytes that its opcode says it has. -/
theorem messagesRoundTrip : Obligations.MessagesRoundTrip := by
  intro l zeros fuel hcanon hfuel
  refine ⟨fun m _ => ?aligned, ?reads⟩
  case aligned =>
    obtain ⟨-, hmod, -⟩ := m.opcSize_opc
    rwa [m.length_bytes]
  case reads =>
    induction l generalizing fuel with
    | nil => exact parsePayload_zeros hfuel zeros
    | cons m l ih =>
      obtain ⟨fuel, rfl⟩ := Nat.exists_eq_succ_of_ne_zero (Nat.ne_zero_of_lt hfuel)
      rw [List.flatMap_cons, List.append_assoc, parsePayload_bytes (hcanon m List.mem_cons_self),
        ih fuel (fun x hx => hcanon x (List.mem_cons_of_mem m hx)) (Nat.lt_of_succ_lt_succ hfuel), Option.map_some]

/-! The Coldel header and the CRC-32C (R82, R83, R86). -/

/-- A header whose fields lie within their widths reads back (R83). -/
theorem CHdr.parse_bytes {h : CHdr} (hr : h.inRange = true) (rest : List Byte) : CHdr.parse (h.bytes ++ rest) = h := by
  obtain ⟨ver, type, tc, ackreq, retx, alt, conn, seq, ack, plen, cg0, cg1, cg2, cg3⟩ := h
  have hackreq := b2n_lt ackreq
  have hretx := b2n_lt retx
  have halt := b2n_lt alt
  simp only [CHdr.inRange, Bool.and_eq_true, decide_eq_true_eq, and_assoc] at hr
  obtain ⟨hver, htype, htc, hconn, hplen⟩ := hr
  simp (disch := omega) [-Nat.reducePow, CHdr.parse, CHdr.bytes, CHdr.num, Nat.mod_eq_of_lt, bitsOf_of_lt]

theorem bytesAt_coldelBytes_crc (h : CHdr) (payload : List Byte) :
    bytesAt (coldelBytes h payload) (24 + payload.length) 4 = (crc32c (h.bytes ++ payload)).toNat := by
  have hskip := bytesAt_append_right (h.bytes ++ payload) (leBytes 4 (crc32c (h.bytes ++ payload)).toNat) 0 4
  have hlen : h.bytes.length = 24 := length_leBytes 24 _
  rw [List.length_append, hlen, Nat.add_zero, bytesAt_leBytes, Nat.mod_eq_of_lt (BitVec.isLt _)] at hskip
  exact hskip

/-- Settles O44: every field lies within its width, and the CRC-32C follows header and payload. -/
theorem coldelHeaderRoundTrip : Obligations.ColdelHeaderRoundTrip := by
  intro h payload hr
  refine ⟨length_leBytes 24 _, ?_, bytesAt_coldelBytes_crc h payload⟩
  rw [coldelBytes, List.append_assoc, CHdr.parse_bytes hr]

/-! The entries of a RoleState (R263). -/

theorem RoleEntry.length_bytes {kind : Nat} {e : RoleEntry} (h : e.ofKind kind = true) : e.bytes.length = roleEntrySize kind := by
  cases e <;> simp only [RoleEntry.ofKind, decide_eq_true_eq] at h <;> subst h <;> simp [RoleEntry.bytes, roleEntrySize]

theorem parseRoleEntry_bytes {kind : Nat} {e : RoleEntry} (h : e.ofKind kind = true) (rest : List Byte) :
    parseRoleEntry kind (e.bytes ++ rest) = e := by
  cases e <;> simp only [RoleEntry.ofKind, decide_eq_true_eq] at h <;> subst h <;>
  simp (disch := omega) [-Nat.reducePow, RoleEntry.bytes, parseRoleEntry]

theorem parseRoleEntries_bytes {kind : Nat} {l : List RoleEntry} (h : ∀ e ∈ l, e.ofKind kind = true) (rest : List Byte) :
    parseRoleEntries kind l.length (l.flatMap RoleEntry.bytes ++ rest) = l := by
  induction l with
  | nil => rfl
  | cons e l ih =>
    have he := h e List.mem_cons_self
    rw [List.length_cons, parseRoleEntries, List.flatMap_cons, List.append_assoc, parseRoleEntry_bytes he,
      ← RoleEntry.length_bytes he, List.drop_left, ih fun x hx => h x (List.mem_cons_of_mem e hx)]

theorem RoleEntry.length_flatMap_bytes {kind : Nat} {l : List RoleEntry} (h : ∀ e ∈ l, e.ofKind kind = true) :
    (l.flatMap RoleEntry.bytes).length = l.length * roleEntrySize kind := by
  induction l with
  | nil => simp
  | cons e l ih =>
    rw [List.flatMap_cons, List.length_append, RoleEntry.length_bytes (h e List.mem_cons_self),
      ih fun x hx => h x (List.mem_cons_of_mem e hx), List.length_cons, Nat.succ_mul, Nat.add_comm]

/-- The KINDs from 7 carry a mark or nothing (R263). -/
theorem RoleEntry.marks_eq {kind : Nat} {l : List RoleEntry} (hkind : 7 ≤ kind) (h : ∀ e ∈ l, e.ofKind kind = true)
    (hlen : l.length = if kind < 9 then 1 else 0) :
    (if kind = 7 then [RoleEntry.endMark] else if kind = 8 then [.abort] else []) = l := by
  match l with
  | [] =>
    have : ¬ kind < 9 := fun hlt => by simp [hlt] at hlen
    rw [if_neg (by omega), if_neg (by omega)]
  | [e] =>
    have he := h e List.mem_cons_self
    cases e <;> simp only [RoleEntry.ofKind, decide_eq_true_eq] at he <;> subst he <;> simp at hkind ⊢
  | _ :: _ :: _ => split at hlen <;> simp at hlen

/-! Picot messages: their opcodes, their lengths, and their fields. -/

theorem length_envelope_bytes (opc inner : Nat) (e : Envelope) : (e.bytes opc inner).length = 16 := length_leBytes 16 _

theorem bitVec2_cases (k : BitVec 2) : k = 0 ∨ k = 1 ∨ k = 2 ∨ k = 3 := by
  revert k
  decide

theorem PMsg.eight_le_length (m : PMsg) : 8 ≤ m.bytes.length := by
  match m with
  | .remAccess k .. =>
    obtain rfl | rfl | rfl | rfl := bitVec2_cases k <;> simp [PMsg.bytes]
  | .fwdToHome .. | .fwdToOrigin .. => simp [PMsg.bytes, Envelope.bytes]; omega
  | .resultRelease .. | .deadNotice .. | .seqReq .. | .seqGrant .. | .replApply .. | .replDone .. | .lendReq .. | .lendGrant ..
  | .remAnswer .. | .roleState .. | .roleResend .. | .chanStart .. => simp [PMsg.bytes] <;> omega

/-- The opcode of a Picot message (R119, R156, R161, R236, R249, R263, R300). -/
def PMsg.opc : PMsg → Nat
  | .fwdToHome .. => 0x40
  | .fwdToOrigin .. => 0x41
  | .resultRelease .. => 0x42
  | .deadNotice .. => 0x43
  | .seqReq .. => 0x44
  | .seqGrant .. => 0x45
  | .replApply .. => 0x46
  | .replDone .. => 0x47
  | .lendReq .. => 0x48
  | .lendGrant .. => 0x49
  | .remAccess .. => 0x4A
  | .remAnswer .. => 0x4B
  | .roleState .. => 0x4C
  | .roleResend .. => 0x4D
  | .chanStart .. => 0x4E

/-- What the byte after the opcode holds. -/
def PMsg.kind : PMsg → Nat
  | .seqReq k .. | .seqGrant k .. | .replApply k .. | .replDone k .. | .lendGrant k .. | .remAccess k ..
  | .remAnswer k .. => k.toNat
  | .deadNotice b .. | .lendReq b .. | .chanStart b .. => b2n b
  | .roleState k .. => k.toNat
  | .fwdToHome .. | .fwdToOrigin .. | .resultRelease .. | .roleResend .. => 0

theorem PMsg.bytesAt_opc_kind (m : PMsg) (rest : List Byte) :
    bytesAt (m.bytes ++ rest) 0 1 = m.opc ∧ bytesAt (m.bytes ++ rest) 1 1 = m.kind := by
  match m with
  | .fwdToHome e m | .fwdToOrigin e m =>
    simp (disch := omega) [-Nat.reducePow, PMsg.bytes, PMsg.opc, PMsg.kind, Envelope.bytes, bitsOf_of_lt, bitsOf_eq_zero]
  | .resultRelease .. | .roleResend .. | .seqReq .. | .seqGrant .. | .replApply .. | .replDone .. | .lendGrant .. | .remAnswer ..
  | .roleState .. =>
    simp (disch := omega) [-Nat.reducePow, -mul_ite, PMsg.bytes, PMsg.opc, PMsg.kind, bitsOf_of_lt, bitsOf_eq_zero]
  | .deadNotice b _ _ _ | .lendReq b _ _ _ _ | .chanStart b .. =>
    have hb := b2n_lt b
    simp (disch := omega) [-Nat.reducePow, PMsg.bytes, PMsg.opc, PMsg.kind, bitsOf_of_lt]
  | .remAccess k .. =>
    simp only [PMsg.bytes]
    split
    · simp (disch := omega) [-Nat.reducePow, PMsg.opc, PMsg.kind, bitsOf_of_lt]
    · split <;> simp (disch := omega) [-Nat.reducePow, PMsg.opc, PMsg.kind, bitsOf_of_lt]

/-- The length of a Picot message at the start of a stream is that of its bytes (R118). -/
theorem pmsgLen_bytes {m : PMsg} {reads : Nat → Bool} (h : m.canon = true) (htag : m.tagRead reads = true) (rest : List Byte) :
    pmsgLen reads (m.bytes ++ rest) = some m.bytes.length := by
  have hlong : ¬ (m.bytes ++ rest).length < 8 := by
    have := m.eight_le_length
    rw [List.length_append]
    omega
  obtain ⟨hopc, hkind⟩ := m.bytesAt_opc_kind rest
  rw [pmsgLen, hopc, hkind]
  simp only [if_neg hlong]
  match m with
  | .fwdToHome e m | .fwdToOrigin e m =>
    obtain ⟨-, hmod, hle⟩ := m.opcSize_opc
    rw [← m.length_bytes] at hmod hle
    simp (disch := omega) [-Nat.reducePow, PMsg.opc, PMsg.bytes, Envelope.bytes, bitsOf_of_lt]
    omega
  | .resultRelease .. | .deadNotice .. | .seqGrant .. | .replDone .. | .lendReq .. | .lendGrant ..
  | .roleResend .. | .chanStart .. =>
    simp [PMsg.opc, PMsg.bytes]
  | .seqReq k .. | .replApply k .. | .remAccess k .. =>
    obtain rfl | rfl | rfl | rfl := bitVec2_cases k <;> simp [PMsg.opc, PMsg.kind, PMsg.bytes]
  | .remAnswer st n r ln f g d =>
    have hreads : (st.toNat % 4 = 0 ∧ reads r.toNat = true) ↔ d.isSome = true := by
      simp only [PMsg.tagRead, decide_eq_true_eq] at htag
      rw [← htag, Bool.and_eq_true, decide_eq_true_eq]
    have hr : bytesAt ((PMsg.remAnswer st n r ln f g d).bytes ++ rest) 4 2 = r.toNat := by
      simp (disch := omega) [-Nat.reducePow, PMsg.bytes, bitsOf_of_lt]
    rw [PMsg.opc, PMsg.kind, hr]
    cases d <;> simp [PMsg.bytes, hreads]
  | .roleState k n e l =>
    simp only [PMsg.canon, Bool.and_eq_true, List.all_eq_true] at h
    obtain ⟨hents, hlen⟩ := h
    have hmod : k.toNat % 16 = k.toNat := Nat.mod_eq_of_lt k.isLt
    by_cases hk : k.toNat < 7
    · simp only [if_pos hk, decide_eq_true_eq] at hlen
      simp (disch := omega) [-Nat.reducePow, PMsg.opc, PMsg.kind, PMsg.bytes, bitsOf_of_lt, hk, hmod,
        RoleEntry.length_flatMap_bytes hents]
    · simp (disch := omega) [-Nat.reducePow, PMsg.opc, PMsg.kind, PMsg.bytes, bitsOf_eq_zero, hk]

theorem PMsg.bitsOf_opc (m : PMsg) (rest : List Byte) : bitsOf (bytesAt (m.bytes ++ rest) 0 24) 0 8 = m.opc := by
  rw [bytesAt_eq_bitsOf, bitsOf_bitsOf _ (by decide), ← (m.bytesAt_opc_kind rest).1, bytesAt_eq_bitsOf]
theorem PMsg.bitsOf_kind (m : PMsg) (rest : List Byte) {w : Nat} (h : w ≤ 8) :
    bitsOf (bytesAt (m.bytes ++ rest) 0 24) 8 w = bitsOf m.kind 0 w := by
  rw [bytesAt_eq_bitsOf, bitsOf_bitsOf _ (by omega), ← (m.bytesAt_opc_kind rest).2, bytesAt_eq_bitsOf,
    bitsOf_bitsOf _ (by omega)]

theorem PMsg.ofNat_kind (m : PMsg) (rest : List Byte) {k : BitVec 2} (h : m.kind = k.toNat) :
    BitVec.ofNat 2 (bitsOf (bytesAt (m.bytes ++ rest) 0 24) 8 2) = k := by
  rw [m.bitsOf_kind rest (by decide), h, ofNat_bitsOf_toNat]

/-- What an envelope carries reads back from the bytes after it (R119). -/
theorem parseMsg_enveloped {m : Msg} (h : m.canon = true) (opc : Nat) (e : Envelope) (rest : List Byte) :
    parseMsg (((e.bytes opc (m.bytes.length / 8) ++ m.bytes ++ rest).take
      (e.bytes opc (m.bytes.length / 8) ++ m.bytes).length).drop 16) = some m := by
  have hm := parseMsg_bytes h []
  rw [List.append_nil] at hm
  rw [List.take_left, ← length_envelope_bytes opc (m.bytes.length / 8) e, List.drop_left, hm]

/-- A REMACCESS that uses only the fields of its KIND reads back (R300). -/
theorem parsePMsg_remAccess {k : BitVec 2} {n : NodeId} {r : BitVec 16} {ln : BitVec 6} {f g : BitVec 32}
    {pa : Addr} {o : TenantId} {gen : BitVec 16} {ks : Bool} {ps : BitVec 64} {d : Line}
    (h : (PMsg.remAccess k n r ln f g pa o gen ks ps d).canon = true) (rest : List Byte) (len : Nat) :
    parsePMsg ((PMsg.remAccess k n r ln f g pa o gen ks ps d).bytes ++ rest) len =
      some (.remAccess k n r ln f g pa o gen ks ps d) := by
  simp only [parsePMsg, PMsg.bitsOf_opc, PMsg.opc, Nat.reduceEqDiff, if_true, if_false]
  rw [PMsg.ofNat_kind _ rest rfl, PMsg.bitsOf_kind _ rest (by decide), PMsg.kind, bitsOf_of_lt k.isLt]
  by_cases hlow : k.toNat < 2
  · simp only [PMsg.canon, if_pos hlow, Bool.and_eq_true, Bool.or_eq_true, decide_eq_true_eq, Bool.not_eq_true'] at h
    obtain ⟨⟨⟨⟨⟨rfl, rfl⟩, rfl⟩, rfl⟩, rfl⟩, hd⟩ := h
    simp only [PMsg.bytes, if_pos hlow]
    by_cases hk : k = 1
    · simp only [if_pos hk]
      simp (disch := omega) [-Nat.reducePow]
    · simp only [if_neg hk, hd.resolve_left hk]
      simp (disch := omega) [-Nat.reducePow]
  · simp only [PMsg.canon, if_neg hlow, Bool.and_eq_true, decide_eq_true_eq] at h
    obtain ⟨⟨rfl, rfl⟩, hrest⟩ := h
    have hks := b2n_lt ks
    simp only [PMsg.bytes, if_neg hlow]
    by_cases hk : k = 2
    · simp only [if_pos hk, decide_eq_true_eq] at hrest
      simp only [if_pos hk, hrest]
      simp (disch := omega) [-Nat.reducePow]
    · simp only [if_neg hk, Bool.and_eq_true, decide_eq_true_eq, Bool.not_eq_true'] at hrest
      obtain ⟨⟨⟨rfl, rfl⟩, rfl⟩, rfl⟩ := hrest
      simp only [if_neg hk]
      simp (disch := omega) [-Nat.reducePow]

/-- A RoleState whose entries are those of its KIND reads back (R263). -/
theorem parsePMsg_roleState {k : BitVec 4} {n : NodeId} {e : BitVec 16} {l : List RoleEntry}
    (h : (PMsg.roleState k n e l).canon = true) (rest : List Byte) (len : Nat) :
    parsePMsg ((PMsg.roleState k n e l).bytes ++ rest) len = some (.roleState k n e l) := by
  simp only [parsePMsg, PMsg.bitsOf_opc, PMsg.opc, Nat.reduceEqDiff, if_true, if_false]
  rw [PMsg.bitsOf_kind _ rest (by decide), PMsg.kind, bitsOf_of_lt k.isLt]
  simp only [PMsg.canon, Bool.and_eq_true, List.all_eq_true] at h
  obtain ⟨hents, hlen⟩ := h
  by_cases hk : k.toNat < 7
  · simp only [if_pos hk, decide_eq_true_eq] at hlen
    simp only [PMsg.bytes, if_pos hk]
    simp (disch := omega) [-Nat.reducePow, bitsOf_of_lt, List.drop_left' (length_leBytes 8 _), parseRoleEntries_bytes hents]
  · simp only [if_neg hk, decide_eq_true_eq] at hlen
    simp only [PMsg.bytes, if_neg hk]
    rw [RoleEntry.marks_eq (Nat.le_of_not_lt hk) hents hlen]
    simp (disch := omega) [-Nat.reducePow]

/-- The bytes of a Picot message whose unused fields are 0 read as the message, whatever follows. -/
theorem parsePMsg_bytes {m : PMsg} (h : m.canon = true) (rest : List Byte) :
    parsePMsg (m.bytes ++ rest) m.bytes.length = some m := by
  match m with
  | .remAccess .. => exact parsePMsg_remAccess h rest _
  | .roleState .. => exact parsePMsg_roleState h rest _
  | .fwdToHome e m | .fwdToOrigin e m =>
    simp only [parsePMsg, PMsg.bitsOf_opc, PMsg.opc, Nat.reduceEqDiff, if_true, if_false]
    simp only [PMsg.bytes, parseMsg_enveloped h, Option.map_some]
    simp (disch := omega) [-Nat.reducePow, Envelope.bytes]
  | .resultRelease .. | .seqGrant .. | .replDone .. | .lendGrant .. | .roleResend .. =>
    simp only [parsePMsg, PMsg.bitsOf_opc, PMsg.opc, Nat.reduceEqDiff, if_true, if_false]
    simp (disch := omega) [-Nat.reducePow, PMsg.bytes]
  | .deadNotice b _ _ _ | .lendReq b _ _ _ _ =>
    have hb := b2n_lt b
    simp only [parsePMsg, PMsg.bitsOf_opc, PMsg.opc, Nat.reduceEqDiff, if_true, if_false]
    simp (disch := omega) [-Nat.reducePow, PMsg.bytes]
  | .chanStart ev _ _ bk _ _ _ =>
    have hev := b2n_lt ev
    have hbk := b2n_lt bk
    simp only [parsePMsg, PMsg.bitsOf_opc, PMsg.opc, Nat.reduceEqDiff, if_true, if_false]
    simp (disch := omega) [-Nat.reducePow, PMsg.bytes]
  | .seqReq k .. | .replApply k .. =>
    simp only [parsePMsg, PMsg.bitsOf_opc, PMsg.opc, Nat.reduceEqDiff, if_true, if_false]
    rw [PMsg.ofNat_kind _ rest rfl]
    by_cases hk : k = 0
    · simp only [PMsg.bytes, if_pos hk]
      simp (disch := omega) [-Nat.reducePow]
    · simp only [PMsg.canon, hk, decide_false, Bool.false_or, Bool.and_eq_true, decide_eq_true_eq] at h
      simp only [PMsg.bytes, if_neg hk, h]
      simp (disch := omega) [-Nat.reducePow]
  | .remAnswer st n r ln f g d =>
    simp only [parsePMsg, PMsg.bitsOf_opc, PMsg.opc, Nat.reduceEqDiff, if_true, if_false]
    rw [PMsg.ofNat_kind _ rest rfl]
    cases d <;> simp (disch := omega) [-Nat.reducePow, PMsg.bytes]

/-- Settles O43: the opcode, the byte after it and the counts give the length, and every field is read from where it stands. -/
theorem poolMessagesRoundTrip : Obligations.PoolMessagesRoundTrip := fun _ rest _ hcanon htag =>
  ⟨pmsgLen_bytes hcanon htag rest, parsePMsg_bytes hcanon rest⟩

end Sys2Proof

/-! Port resets, cage resets, HOSTOWN and CMIS transfers (R120, R471, R540, R541): what an admitted write of each register does. -/

namespace Sys2Proof.Machine

/-- An admitted write names a register, so that the state it leaves stored is that register's. -/
theorem State.stored_of_admitsWrite {s : State} {src : CsrSrc} {k : Nat} {w : Word} (h : s.admitsWrite src k w = true) :
    ∃ d, regAt k = some d ∧ s.stored k w = s.counted.storeReg d k w := by
  simp only [State.admitsWrite, Bool.and_eq_true, decide_eq_true_eq] at h
  have hreg := State.admits_reg h.2
  rw [show (writeReq src k w).addr = BitVec.ofNat 32 k from rfl, toNat_ofNat32 h.1] at hreg
  obtain ⟨d, hd⟩ := Option.isSome_iff_exists.mp hreg
  exact ⟨d, hd, by simp only [State.stored, hd]⟩

/-- A write that is admitted acts on the state that has counted it. -/
theorem State.csrDo_admitsWrite {s : State} {src : CsrSrc} {k : Nat} {w : Word} (eff : State → State × CsrAns)
    (h : s.admitsWrite src k w = true) :
    s.csrDo (writeReq src k w) eff = s.answered (writeReq src k w) (eff s.counted).1 (eff s.counted).2 := by
  simp only [State.admitsWrite, Bool.and_eq_true] at h
  exact State.csrDo_admits eff h.2

/-! ETH_CTL (R120, R471). -/

theorem exec_resetA {n : Nat} (hn : n < 8) (src : CsrSrc) (w : Word) (s : State) : exec (.resetA src n w) s =
    .next (s.csrTrig src (F.ETH_CTL n).key w (wbit w 0) fun t => t.wrEthCtl n w) := if_neg (Nat.not_le.mpr hn)

theorem exec_resetB {n : Nat} (hn : n < 8) (src : CsrSrc) (w : Word) (s : State) : exec (.resetB src n w) s =
    .next (s.csrTrig src (F.ETH_CTL n).key w (wbit w 1) fun t => t.wrEthCtl n w) := if_neg (Nat.not_le.mpr hn)

/-- RESET_A alone resets the block's A port. -/
theorem State.wrEthCtl_of_a {w : Word} (ha : wbit w 0 = true) (hb : wbit w 1 = false) (s : State) (n : Nat) :
    s.wrEthCtl n w = s.portReset (if s.portMode = 1 then n / 2 else if s.portMode = 2 then 2 * n else n) := by
  simp only [State.wrEthCtl, ha, hb, Bool.false_eq_true, false_and, if_true, if_false]

/-- RESET_B alone resets the block's B port, in 200G mode. -/
theorem State.wrEthCtl_of_b {s : State} {w : Word} (ha : wbit w 0 = false) (hb : wbit w 1 = true) (hmode : s.portMode = 2) (n : Nat) :
    s.wrEthCtl n w = s.portReset (2 * n + 1) := by
  simp only [State.wrEthCtl, ha, hb, hmode, Bool.false_eq_true, and_self, if_true, if_false]

/-! CAGE_CTL (R540, R541). -/

/-- An admitted write of CAGE_CTL acts by what HOSTOWN was before it. -/
theorem State.csrCageCtl_admits {s : State} {src : CsrSrc} {n : Nat} {w : Word}
    (h : s.admitsWrite src (F.CAGE_CTL n).key w = true) : s.csrCageCtl src n w = s.answered (writeReq src (F.CAGE_CTL n).key w)
      ((s.stored (F.CAGE_CTL n).key w).wrCageCtl n (s.counted.bit (F.CAGE_CTL_HOSTOWN n)) w) wrote := by
  obtain ⟨d, hd, hstored⟩ := State.stored_of_admitsWrite h
  rw [State.csrCageCtl, State.csrDo_admitsWrite _ h, hstored]
  simp only [State.putCageCtl, hd]
  rfl

theorem exec_cageReset {n : Nat} (hn : n < 8) {w : Word} (hw : wbit w 2 = true) (src : CsrSrc) (s : State) :
    exec (.cageReset src n w) s = .next (s.csrCageCtl src n w) := by
  change execCageReset src n w s = _
  simp only [execCageReset, if_neg (Nat.not_le.mpr hn), hw, if_true]

theorem exec_hostown {n : Nat} (hn : n < 8) (src : CsrSrc) (w : Word) (s : State) :
    exec (.hostown src n w) s = .next (s.csrCageCtl src n w) := if_neg (Nat.not_le.mpr hn)

/-- RESET of a cage that the module owns powers it off and runs its insertion again. -/
theorem State.wrCageCtl_of_reset {s : State} {n : Nat} {w : Word} (hw : wbit w 2 = true)
    (hnow : s.bit (F.CAGE_CTL_HOSTOWN n) = false) : s.wrCageCtl n false w = (s.cageDrop n).cageStart n := by
  simp only [State.wrCageCtl, hw, hnow, Bool.false_eq_true, Bool.not_false, false_and, and_self, if_true, if_false]

/-- HOSTOWN that becomes 1 gives the cage to the host. -/
theorem State.wrCageCtl_of_taken {s : State} {n : Nat} (hnow : s.bit (F.CAGE_CTL_HOSTOWN n) = true) (w : Word) :
    s.wrCageCtl n false w = s.hostTakes n := by
  simp only [State.wrCageCtl, hnow, Bool.not_false, Bool.not_true, Bool.false_eq_true, and_self, and_false, if_true, if_false]

theorem State.hostTakes_of_live {s : State} {n : Nat} (hfault : s.cageSt n ≠ cFAULT) (hoff : s.cageSt n ≠ cOFF) : s.hostTakes n =
    (((cagePorts s.portMode n).foldl (fun t p => (t.loseLink p).portReset p) s).setCage n
      { ((cagePorts s.portMode n).foldl (fun t p => (t.loseLink p).portReset p) s).cage n with step := 0 }).setCageSt n cHOSTOWN :=
  if_neg (not_or.mpr ⟨hfault, hoff⟩)

/-- HOSTOWN that becomes 0 gives the cage back. -/
theorem State.wrCageCtl_of_given {s : State} {n : Nat} {w : Word} (hnow : s.bit (F.CAGE_CTL_HOSTOWN n) = false)
    (hw : wbit w 2 = false) : s.wrCageCtl n true w = s.hostGives n := by
  simp only [State.wrCageCtl, hnow, hw, Bool.not_false, Bool.not_true, Bool.false_eq_true, and_self, and_true, if_true, if_false]

theorem State.hostGives_of_plugged {s : State} {n : Nat} {i : CmisInfo} (hfault : s.cageSt n ≠ cFAULT)
    (hinfo : (s.cage n).info = some i) (hmay : s.cageMay n = true) : s.hostGives n = s.cageProbe n i := by
  simp only [State.hostGives, if_neg hfault, hinfo, hmay, if_true]

/-! CAGE_CMIS_CTL (R541). -/

theorem exec_cmisTransfer {n : Nat} (hn : n < 8) {w : Word} (hw : wbit w 0 = true) (src : CsrSrc) (s : State) :
    exec (.cmisTransfer src n w) s =
      .next (s.csrDo (writeReq src (F.CAGE_CMIS_CTL n).key w) fun t => (t.putCmis n w, ⟨0, 0, 0⟩)) := by
  change execCmisTransfer src n w s = _
  simp only [execCmisTransfer, if_neg (Nat.not_le.mpr hn), hw, if_true]

/-- GO at an idle cage starts a transfer that nothing bars. -/
theorem State.putCmis_of_starts {s : State} {n : Nat} {w : Word} {d : RegDef} (hw : wbit w 0 = true)
    (hidle : s.bit (F.CAGE_CMIS_CTL_BUSY n) = false) (hd : regAt (F.CAGE_CMIS_CTL n).key = some d)
    (hok : (s.storeReg d (F.CAGE_CMIS_CTL n).key w).cmisResult n = 0) :
    s.putCmis n w = (s.storeReg d (F.CAGE_CMIS_CTL n).key w).setFld (F.CAGE_CMIS_CTL_BUSY n) 1 := by
  simp only [State.putCmis, hw, hidle, hd, hok, Bool.false_eq_true, and_false, Bool.not_true, if_true, if_false]

/-- Settles O8: an admitted write stores its word and then does what its register says of the state it finds. -/
theorem portAndCageWritesComplete : Obligations.PortAndCageWritesComplete := by
  rintro s u v x src n w hn rfl rfl rfl
  refine ⟨fun ha hb hadm => ?resetA, fun ha hb hmode hadm => ?resetB, fun hw hown hnow hadm => ?cageReset,
    fun hown hnow hfault hoff y hy hadm => ?takes, fun i hown hnow hw hfault hinfo hmay hadm => ?gives,
    fun hw hidle hok hadm => ?cmis⟩
  case resetA => rw [exec_resetA hn, State.csrTrig_admits _ hadm ha, State.wrEthCtl_of_a ha hb]
  case resetB => rw [exec_resetB hn, State.csrTrig_admits _ hadm hb, State.wrEthCtl_of_b ha hb hmode]
  case cageReset => rw [exec_cageReset hn hw, State.csrCageCtl_admits hadm, hown, State.wrCageCtl_of_reset hw hnow]
  case takes =>
    rw [exec_hostown hn, State.csrCageCtl_admits hadm, hown, State.wrCageCtl_of_taken hnow, State.hostTakes_of_live hfault hoff, hy]
  case gives =>
    rw [exec_hostown hn, State.csrCageCtl_admits hadm, hown, State.wrCageCtl_of_given hnow hw,
      State.hostGives_of_plugged hfault hinfo hmay]
  case cmis =>
    obtain ⟨d, hd, hstored⟩ := State.stored_of_admitsWrite hadm
    rw [hstored] at hok ⊢
    rw [exec_cmisTransfer hn hw, State.csrDo_admitsWrite _ hadm, State.putCmis_of_starts hw hidle hd hok]
    rfl

end Sys2Proof.Machine

/-! CSR requests, the management port and the shelf (R108, R422, R510 to R518, R532 to R535, R542). -/

namespace Sys2Proof.Machine

/-! CSR requests: the crossbar's access to the register that the address names. -/

theorem State.csrWriteAt_of_reg {a : Nat} {d : RegDef} (hd : regAt a = some d) (s : State) (w : Word) :
    s.csrWriteAt a w = (s.writeReg d a w, wrote) := by
  simp only [State.csrWriteAt, hd]
  rfl

theorem hasRws_of_reg {a : Nat} {d : RegDef} (hd : regAt a = some d) (hrws : d.rws ≠ 0) : hasRws a = true := by
  simp only [hasRws, hd, decide_eq_true hrws]

theorem exec_csrRead (src : CsrSrc) (addr : BitVec 32) (s : State) : exec (.csrRead src addr) s =
    .next (s.csrDo ⟨src, false, addr, none⟩ fun t => t.csrReadAt addr.toNat) := rfl

theorem exec_csrWrite (src : CsrSrc) (addr : BitVec 32) (w : Word) (s : State) : exec (.csrWrite src addr w) s =
    .next (s.csrDo ⟨src, true, addr, some w⟩ fun t => t.csrWriteAt addr.toNat w) := rfl

/-- Of a register with an RWS field, an RwsWrite is a CsrWrite (R489). -/
theorem exec_rwsWrite {addr : BitVec 32} (hrws : hasRws addr.toNat = true) (src : CsrSrc) (w : Word) (s : State) :
    exec (.rwsWrite src addr w) s = exec (.csrWrite src addr w) s := congrArg Host.Outcome.next (if_pos hrws)

theorem exec_csrTimeout (src : CsrSrc) (addr : BitVec 32) (write : Bool) (s : State) : exec (.csrTimeout src addr write) s =
    .next (s.csrDo ⟨src, write, addr, none⟩ fun t => (t.record (occ bGBL Cause.gbl_CSR_TIMEOUT), ⟨15, 0, 0⟩)) := rfl

/-! The management port (R512 to R514, R542). -/

theorem State.mgtDatagram_of_parsed {s v : State} {ip : BitVec 32} {port : BitVec 16} {p : List Byte} {l rs : List Msg}
    (hup : s.csrUp = true) (hp : parseMgt p = some l) (hall : s.mgmtAll ip port l = (v, rs)) :
    s.mgtDatagram ip port p = s.answerLater v ⟨ip, port, mgtBytes rs⟩ := by
  simp only [State.mgtDatagram, hup, hp, hall, Bool.not_true, Bool.false_eq_true, if_false]

theorem exec_arp {s : State} (hup : s.mgtUp = true) (mac : BitVec 48) (ip : BitVec 32) :
    exec (.arp mac ip s.mgtAddr) s = .next (s.sendMgt ⟨ip, 0, arpReply mac ip s.mgtAddr⟩) :=
  congrArg Host.Outcome.next (if_pos ⟨hup, rfl⟩)

theorem exec_icmpEcho {s : State} (hup : s.mgtUp = true) (ip : BitVec 32) (i n : BitVec 16) (p : List Byte) :
    exec (.icmpEcho ip s.mgtAddr i n p) s = .next (s.sendMgt ⟨ip, 0, echoReply i n p⟩) :=
  congrArg Host.Outcome.next (if_pos ⟨hup, rfl⟩)

theorem exec_mgtLink {s : State} (hup : s.mgtUp = true) : exec .mgtLink s = .next (s.record (occ bGBL Cause.gbl_MGT_LINK)) :=
  congrArg Host.Outcome.next (if_pos hup)

/-! The shelf (R532 to R535). -/

theorem State.thermalWarn_of_powered {s : State} (hpow : s.sys.start.powered = true) (t : Thermal) : s.thermalWarn t =
    if inletMax < t.inlet ∨ 100 ≤ t.die0 ∨ 100 ≤ t.die1 then ((s.setTemps t).cool t).record (occ bGBL Cause.gbl_THERMAL_WARN)
    else (s.setTemps t).cool t := if_neg (by simp [hpow])

/-- A junction at 95 °C keeps the hold on STBY_EXIT. -/
theorem State.cool_of_hot {t : Thermal} (h : 95 ≤ t.die0 ∨ 95 ≤ t.die1) (s : State) : s.cool t = s := if_neg (by omega)

/-- A junction at 115 °C takes the module from ACTIVE and from RIDE-THROUGH to STANDBY. -/
theorem State.thermalTrip_of_hot {s : State} {t : Thermal} (hpow : s.sys.start.powered = true)
    (hhot : 115 ≤ t.die0 ∨ 115 ≤ t.die1) (hpst : s.pst = 1 ∨ s.pst = 2) : s.thermalTrip t =
      ((({ s.setTemps t with sys.power.hot := true } : State).record (occ bGBL Cause.gbl_THERMAL_TRIP)).refusePending).drain true := by
  have hcool := State.cool_of_hot (t := t) (by omega) (s.setTemps t)
  have hcold : ¬ (t.die0 < 115 ∧ t.die1 < 115) := by omega
  have hpst : ({ s.setTemps t with sys.power.hot := true } : State).pst = pACTIVE ∨
    ({ s.setTemps t with sys.power.hot := true } : State).pst = pRIDE := hpst
  simp only [State.thermalTrip, hpow, hcool, if_neg hcold, if_pos hpst, Bool.not_true, Bool.false_eq_true, if_false]

/-- A Block Read of a command byte that the table lists sends a count of 8 and the data. -/
theorem State.smbusRead_of_data {s v : State} {c : SmbusCmd} {l : List Byte} (hpow : s.sys.start.powered = true)
    (hw : c.wroteData = false) (hdata : s.smbusData c.command.toNat = (v, some l)) :
    s.smbusRead c = { v with sys.smbusOut := v.sys.smbusOut ++ [8 :: l] } := by
  simp only [State.smbusRead, hpow, hw, hdata, Bool.not_true, Bool.false_eq_true, if_false]

/-- Settles O36: an admitted request is its register's access, and each event runs its state function, whose guard the state
passes. -/
theorem managementEventsComplete : Obligations.ManagementEventsComplete := by
  intro s u src addr w d r hd
  refine ⟨?read, ?write, ?timeout, ?datagram, fun hup => ⟨exec_arp hup, exec_icmpEcho hup, exec_mgtLink hup⟩,
    fun hpow => ⟨?warn, ?trip, ?smbus⟩⟩
  case read =>
    rintro v a rfl hread hadm
    rw [exec_csrRead, State.csrDo_admits _ hadm, hread]
  case write =>
    rintro rfl hadm
    have hwrite : exec (.csrWrite src addr w) s =
        .next (s.answered ⟨src, true, addr, some w⟩ (s.counted.writeReg d addr.toNat w) wrote) := by
      rw [exec_csrWrite, State.csrDo_admits _ hadm, State.csrWriteAt_of_reg hd]
    exact ⟨hwrite, fun hrws => (exec_rwsWrite (hasRws_of_reg hd hrws) src w s).trans hwrite⟩
  case timeout =>
    rintro write rfl hadm
    rw [exec_csrTimeout, State.csrDo_admits _ hadm]
  case datagram =>
    intro ip port p l v rs hup hp hall
    exact congrArg Host.Outcome.next (State.mgtDatagram_of_parsed hup hp hall)
  case warn =>
    rintro t rfl
    exact congrArg Host.Outcome.next (State.thermalWarn_of_powered hpow t)
  case trip =>
    rintro t hhot hpst rfl
    exact congrArg Host.Outcome.next (State.thermalTrip_of_hot hpow hhot hpst)
  case smbus =>
    intro c v l hw hdata
    exact congrArg Host.Outcome.next (State.smbusRead_of_data hpow hw hdata)

end Sys2Proof.Machine

/-! Coldel frames (R95, R111): from the checks of a frame to what its type does. -/

namespace Sys2Proof.Machine

theorem State.dataUp_iff {s : State} : s.dataUp = true ↔ s.locked = false ∧ s.bit F.GBL_STATUS_POOL_READY = true ∧
    (s.fld F.PMU_STATE_STATE = 1 ∨ s.fld F.PMU_STATE_STATE = 2) := by
  simp only [State.dataUp, Bool.and_eq_true, Bool.not_eq_true', Bool.or_eq_true, decide_eq_true_eq, and_assoc]

theorem State.takesFrame_iff {s : State} {f : RxFrame} {h : CHdr} {payload : List Byte} : s.takesFrame f h payload = true ↔
    s.hasPort f.port = true ∧ (s.port f.port).ready = true ∧ s.dstAccepted f = true ∧ s.rxChecks f = (s, some (h, payload)) := by
  simp only [State.takesFrame, Bool.and_eq_true, decide_eq_true_eq, and_assoc]

/-- A frame that comes on one of its connection's paths passes check 11 (R111). -/
theorem State.onPath_of_pathOfConn {s : State} {k : Nat} {f : RxFrame} (h : s.pathOfConn k f = true) :
    ¬ (pathTaken f ≠ s.connPath k false ∧ ¬ (s.hasAlt k = true ∧ pathTaken f = s.connPath k true)) := by
  simp only [State.pathOfConn, Bool.or_eq_true, Bool.and_eq_true, decide_eq_true_eq] at h
  tauto

/-- While the datapath runs, a frame that its port can hold is received and everything that can go on by itself does. -/
theorem State.frame_of_dataUp {s : State} {f : RxFrame} (hport : s.hasPort f.port = true) (hup : s.dataUp = true) (type : Nat)
    (isn : Seq24) : s.frame f type isn = .next (s.after (s.rxColdel f type isn)) := by
  obtain ⟨hlock, hready, -⟩ := State.dataUp_iff.mp hup
  simp only [State.frame, hport, hlock, hready, State.linkAct, hup, Bool.not_true, Bool.false_eq_true, if_false, if_true]

/-- What the handler of a packet of an open connection finds: its grants and its ACK value are taken (R111, R124, R133). -/
def State.valued (s : State) (f : RxFrame) (h : CHdr) (payload : List Byte) (c : Conn) : State :=
  if carriesValues h.type payload = true then (s.rxGrants h.conn h).rxAck h.conn h.ack ((pathTaken f).key c.engine) else s

/-- A frame of an open connection that passes the checks goes on to what its type does. -/
theorem State.rxColdel_of_conn {s : State} {f : RxFrame} {h : CHdr} {payload : List Byte} {c : Conn} {type : Nat} (isn : Seq24)
    (htakes : s.takesFrame f h payload = true) (hconn : s.conn h.conn = some c) (hpath : s.pathOfConn h.conn f = true)
    (htype : h.type = type ∨ h.type = 5) (hne : h.type ≠ 4) : s.rxColdel f type isn =
      (s.valued f h payload c).rxTyped h.conn (engineOf s.portMode f.port h.conn) h.type ((pathTaken f).key c.engine) h payload := by
  obtain ⟨-, hready, -, hchecks⟩ := State.takesFrame_iff.mp htakes
  have hevent : ¬ (h.type ≠ type ∧ h.type ≠ 5) := by tauto
  have hon := State.onPath_of_pathOfConn hpath
  unfold pathTaken at hon
  simp only [State.rxColdel, hready, hchecks, if_neg hevent, if_neg hne, hconn, if_neg hon, Bool.not_true,
    Bool.false_eq_true, if_false]
  rfl

/-- A CONNECT that passes the checks is answered. -/
theorem State.rxColdel_of_connect {s : State} {f : RxFrame} {h : CHdr} {payload : List Byte} (isn : Seq24)
    (htakes : s.takesFrame f h payload = true) (htype : h.type = 4) :
    s.rxColdel f 4 isn = s.rxConnect f (vidOfTag f.tag) h payload isn := by
  obtain ⟨-, hready, -, hchecks⟩ := State.takesFrame_iff.mp htakes
  simp only [State.rxColdel, hready, hchecks, htype, ne_eq, not_true_eq_false, false_and, Bool.not_true, Bool.false_eq_true, if_false,
    if_true]

/-- The frame commands, each with the Coldel type that it brings. -/
def frameCommands (f : RxFrame) (isn : Seq24) : List (Instr × Nat) :=
  [(.data f, 0), (.ack f, 1), (.nak f, 2), (.heartbeat f, 3), (.connect f isn, 4), (.close f, 6), (.audit f, 7)]

/-- Each of them is the arrival of its frame. -/
theorem exec_frameCommand {f : RxFrame} {isn : Seq24} {i : Instr} {type : Nat} (h : (i, type) ∈ frameCommands f isn) :
    ∃ isn', ∀ s, exec i s = s.frame f type isn' := by
  simp only [frameCommands, List.mem_cons, Prod.mk.injEq, List.not_mem_nil, or_false] at h
  obtain ⟨rfl, rfl⟩ | ⟨rfl, rfl⟩ | ⟨rfl, rfl⟩ | ⟨rfl, rfl⟩ | ⟨rfl, rfl⟩ | ⟨rfl, rfl⟩ | ⟨rfl, rfl⟩ := h <;>
    exact ⟨_, fun _ => rfl⟩

/-- Settles O11: the command is its frame's arrival, the frame passes the checks, and its type decides what follows. -/
theorem framesOfConnectionsComplete : Obligations.FramesOfConnectionsComplete := by
  intro s u f h payload c htakes hconn hpath hu
  have hport := (State.takesFrame_iff.mp htakes).1
  have hruns (isn : Seq24) (i : Instr) (type : Nat) (hi : (i, type) ∈ frameCommands f isn) (htype : h.type = type ∨ h.type = 5)
      (hne : h.type ≠ 4) : s.Moves i
        (u.rxTyped h.conn (engineOf s.portMode f.port h.conn) h.type ((pathTaken f).key c.engine) h payload) := by
    intro hup
    obtain ⟨isn', hexec⟩ := exec_frameCommand hi
    rw [hexec, State.frame_of_dataUp hport hup, State.rxColdel_of_conn isn' htakes hconn hpath htype hne, hu]
    rfl
  refine ⟨fun ht => ?data, fun ht => ?ack, fun ht => ?nak, fun ht hopen => ?heartbeat, fun ht => ?close, fun ht => ?audit,
    fun ht isn i hi => ?accept⟩
  case data => simpa [State.rxTyped, ht] using hruns 0 (.data f) 0 (by simp [frameCommands]) (.inl ht) (by omega)
  case ack => simpa [State.rxTyped, ht] using hruns 0 (.ack f) 1 (by simp [frameCommands]) (.inl ht) (by omega)
  case nak => simpa [State.rxTyped, ht] using hruns 0 (.nak f) 2 (by simp [frameCommands]) (.inl ht) (by omega)
  case heartbeat =>
    simpa [State.rxTyped, ht, hopen] using hruns 0 (.heartbeat f) 3 (by simp [frameCommands]) (.inl ht) (by omega)
  case close => simpa [State.rxTyped, ht] using hruns 0 (.close f) 6 (by simp [frameCommands]) (.inl ht) (by omega)
  case audit => simpa [State.rxTyped, ht] using hruns 0 (.audit f) 7 (by simp [frameCommands]) (.inl ht) (by omega)
  case accept =>
    obtain ⟨type, hmem⟩ : ∃ type, (i, type) ∈ frameCommands f isn := by
      simp only [List.mem_cons, List.not_mem_nil, or_false] at hi
      obtain rfl | rfl | rfl | rfl | rfl | rfl | rfl := hi <;> simp [frameCommands]
    simpa [State.rxTyped, ht] using hruns isn i type hmem (.inr ht) (by omega)

/-! A CONNECT (R88, R95). -/

/-- The connection table and the payload allow the CONNECT: no check of R95 refuses it. -/
structure State.AllowsConnect (s : State) (f : RxFrame) (h : CHdr) (p : ConnPayload) : Prop where
  conn : h.conn ≠ 0
  enabled : s.bit (F.CDL_CONN_A_EN h.conn) = true
  path : s.pathOfConn h.conn f = true
  peer : p.srcNode.toNat = s.fld (F.CDL_CONN_A_PEER h.conn)
  self : p.dstNode = s.node
  named : s.node ≠ 0xfff
  agent : p.agv = true → s.bit (F.CDL_CONN_A_AGV h.conn) = true ∧ p.agent.toNat = s.fld (F.CDL_CONN_A_AGENT h.conn)
  maxpay_pos : 1 ≤ p.maxpay
  maxpay_le : p.maxpay ≤ 65
  maxpay_agent : p.agv = true → 2 ≤ p.maxpay
  grants : grantsShort p h = false

/-- The CONNECT repeats the one that opened the connection: its sender's connection ID and ISN are the same (R95). -/
def State.repeats (s : State) (k : Nat) (p : ConnPayload) : Bool :=
  match s.conn k with
  | some c => decide (c.rcid = p.srcCid) && decide (c.risn = p.isn)
  | none => false

namespace State.AllowsConnect

variable {s : State} {f : RxFrame} {h : CHdr} {p : ConnPayload}

theorem passes_nodes (hall : s.AllowsConnect f h p) :
    ¬ (p.srcNode.toNat ≠ s.fld (F.CDL_CONN_A_PEER h.conn) ∨ p.dstNode ≠ s.node ∨ s.node = 0xfff) := by
  simp only [hall.peer, hall.self, hall.named, ne_eq, not_true_eq_false, or_self, not_false_eq_true]

theorem passes_agent (hall : s.AllowsConnect f h p) : ¬ (p.agv = true ∧
    ((!s.bit (F.CDL_CONN_A_AGV h.conn)) = true ∨ p.agent.toNat ≠ s.fld (F.CDL_CONN_A_AGENT h.conn))) := by
  rintro ⟨hagv, hbad⟩
  simp only [hall.agent hagv, Bool.not_true, Bool.false_eq_true, ne_eq, not_true_eq_false, or_self] at hbad

theorem passes_grants (hall : s.AllowsConnect f h p) :
    ¬ (p.maxpay = 0 ∨ 65 < p.maxpay ∨ (p.agv = true ∧ p.maxpay < 2) ∨ grantsShort p h = true) := by
  rintro (hpos | hle | ⟨hagv, hmax⟩ | hgrants)
  · exact absurd hall.maxpay_pos (by omega)
  · exact absurd hall.maxpay_le (by omega)
  · exact absurd (hall.maxpay_agent hagv) (by omega)
  · exact absurd hall.grants (by simp [hgrants])

end State.AllowsConnect

/-- A CONNECT that no check refuses gets its ACCEPT again, or ends the connection before it and opens one, where its engine has
room. -/
theorem State.rxConnect_of_allows {s : State} {f : RxFrame} {h : CHdr} {payload : List Byte} {p : ConnPayload} {alt : Bool}
    (hp : p = parseConnect payload) (halt : alt = decide (pathTaken f ≠ s.connPath h.conn false)) (hall : s.AllowsConnect f h p)
    (hroom : s.repeats h.conn p = false → countIf (s.closeConn h.conn 8).link.conns (fun e => decide (e.2.engine =
      engineOf (s.closeConn h.conn 8).portMode ((s.closeConn h.conn 8).connPath h.conn false).port h.conn)) < 2048)
    (isn : Seq24) : s.rxConnect f (vidOfTag f.tag) h payload isn =
      if s.repeats h.conn p then s.sendAccept h.conn alt else (s.closeConn h.conn 8).openConn h.conn p h alt isn := by
  have hon := State.onPath_of_pathOfConn hall.path
  subst hp halt
  unfold pathTaken at hon
  simp only [State.rxConnect, hall.conn, hall.enabled, if_neg hon, if_neg hall.passes_nodes, if_neg hall.passes_agent,
    if_neg hall.passes_grants, Bool.not_true, Bool.false_eq_true, or_self, if_false]
  change (if s.repeats h.conn (parseConnect payload) = true then _ else _) = _
  by_cases hrep : s.repeats h.conn (parseConnect payload) = true
  · rw [if_pos hrep, if_pos hrep]
    rfl
  · rw [if_neg hrep, if_neg hrep, if_neg (Nat.not_le.mpr (hroom (Bool.eq_false_iff.mpr hrep)))]
    rfl

/-- Settles O12: the frame passes the checks, no check of R95 refuses the CONNECT, and it is a repeat or not. -/
theorem connectCompletes : Obligations.ConnectCompletes := by
  intro s u f h payload p isn alt htakes htype hp halt hconn hen hpath hpeer hself hnamed hagent hpos hle hmax hgrants hu
  have hall : s.AllowsConnect f h p := ⟨hconn, hen, hpath, hpeer, hself, hnamed, hagent, hpos, hle, hmax, hgrants⟩
  have hruns (t : State) (ht : s.rxConnect f (vidOfTag f.tag) h payload isn = t) : s.Moves (.connect f isn) t := fun hup => by
    rw [← ht, ← State.rxColdel_of_connect isn htakes htype]
    exact State.frame_of_dataUp (State.takesFrame_iff.mp htakes).1 hup 4 isn
  subst hu
  refine ⟨fun hnew hroom => hruns _ ?opens, fun c hc hcid hisn => hruns _ ?repeats⟩
  case opens =>
    have hrep : s.repeats h.conn p = false := by
      cases hc : s.conn h.conn with
      | none => simp only [State.repeats, hc]
      | some c => simpa [State.repeats, hc, imp_iff_not_or] using hnew c hc
    rw [State.rxConnect_of_allows hp halt hall (fun _ => hroom), hrep, if_neg Bool.false_ne_true]
  case repeats =>
    have hrep : s.repeats h.conn p = true := by simp [State.repeats, hc, hcid, hisn]
    rw [State.rxConnect_of_allows hp halt hall (fun hno => absurd hno (by simp [hrep])), if_pos hrep]

end Sys2Proof.Machine

/-! What recording an occurrence leaves of the registers (R427, R436, R440): all but the fault registers and two of the notice
queue. -/

namespace Sys2Proof.Machine

/-- A register that no occurrence is recorded in. -/
def unrecorded (k : Nat) : Prop := k % 0x10000 < 0xf00 ∧ k ≠ F.NTQ_STS_OVERRUN.key ∧ k ≠ F.NTQ_LOST_LOST.key

theorem unrecorded.ne_fault {k i : Nat} (hk : unrecorded k) (b : Nat) (hi : 0xf00 ≤ i ∧ i < 0x10000) : k ≠ b * 0x10000 + i := by
  obtain ⟨hlow, -, -⟩ := hk
  omega

/-- The registers are in canonical form, and the one at `k` holds `v`. -/
def State.Holds (t : State) (k : Nat) (v : Word) : Prop := t.regsOk = true ∧ t.reg k = v

namespace State.Holds

variable {t : State} {k : Nat} {v : Word}

theorem setReg (h : t.Holds k v) {l : Nat} (hl : k ≠ l) (x : Word) : (t.setReg l x).Holds k v :=
  ⟨State.regsOk_setReg h.1 l x, (State.reg_setReg_ne h.1 x hl).trans h.2⟩

theorem setFld (h : t.Holds k v) (f : Fld) (hf : k ≠ f.key) (x : Nat) : (t.setFld f x).Holds k v := h.setReg hf _

theorem of_regs {u : State} (h : t.Holds k v) (hu : u.regs = t.regs) : u.Holds k v := by
  unfold State.Holds State.regsOk State.reg at h ⊢
  rwa [hu]

theorem recordRegs (h : t.Holds k v) (hk : unrecorded k) (o : Occ) : (t.recordRegs o).2.Holds k v := by
  have hcause := hk.ne_fault o.block (i := 0xf00) (by decide)
  have hfirst := hk.ne_fault o.block (i := 0xf08) (by decide)
  have hovf := hk.ne_fault o.block (i := 0xf10) (by decide)
  have hset := h.setReg hcause (t.reg (o.block * 0x10000 + 0xf00) ||| (1 : Word) <<< o.code)
  unfold State.recordRegs
  dsimp only
  split
  · refine setFld ?_ _ hovf _
    iterate 5 refine setFld ?_ _ hfirst _
    exact hset
  · iterate 3 refine setFld ?_ _ hovf _
    exact hset

theorem postNotice (h : t.Holds k v) (hk : unrecorded k) (n : Notice) : (t.postNotice n).Holds k v := by
  obtain ⟨-, hsts, hlost⟩ := id hk
  unfold State.postNotice
  split
  · exact h.of_regs rfl
  · exact of_regs (((h.setFld _ hsts 1).setFld _ hlost _).recordRegs hk (occ bNTQ Cause.ntq_OVERRUN)) rfl

theorem endHoldoff (h : t.Holds k v) (hk : unrecorded k) (key : Nat) : (t.endHoldoff key).Holds k v := by
  unfold State.endHoldoff
  split
  · exact h
  · split
    · exact h
    · dsimp only
      split
      · exact h.of_regs rfl
      · exact postNotice (t := { t with ntq.holdoffs := tdel t.ntq.holdoffs key }) (h.of_regs rfl) hk _

theorem record (h : t.Holds k v) (hk : unrecorded k) (o : Occ) : (t.record o).Holds k v := by
  have hend := (h.recordRegs hk o).endHoldoff hk (pairKey o.block o.code)
  unfold State.record State.postOcc
  dsimp only
  split
  · split
    · exact hend.of_regs rfl
    · exact hend.postNotice hk _
  · exact hend.postNotice hk _

end State.Holds

/-- A field of a register that no occurrence is recorded in reads the same after one is recorded. -/
theorem State.fld_record {s : State} (hs : s.regsOk = true) {f : Fld} (hf : unrecorded f.key) (o : Occ) :
    (s.record o).fld f = s.fld f := congrArg f.of (State.Holds.record ⟨hs, rfl⟩ hf o).2

/-! Frames that a port takes before Coldel and Picot: PAUSE, PFC and the Syncs of PTP (R79, R81, R111, R396, R397). -/

theorem State.rxFilter_of_badFcs {s : State} {f : RxFrame} (h : f.fcsGood = false) : s.rxFilter f = (s.badFcs f, false) :=
  if_pos (by simp [h])

/-- A frame with a good FCS and an accepted destination, neither S-tagged nor stacked, passes the filter. -/
theorem State.rxFilter_of_good {s : State} {f : RxFrame} (hfcs : f.fcsGood = true) (hdst : s.dstAccepted f = true)
    (htag : f.tag ≠ .other) : s.rxFilter f = (s, true) := by
  simp only [State.rxFilter, hfcs, hdst, if_neg htag, Bool.not_true, Bool.false_eq_true, if_false]

theorem exec_pause {s : State} {f : RxFrame} (hport : s.hasPort f.port = true) : exec (.pause f) s = .next (s.rxPause f) :=
  if_neg (by simp [hport])

theorem exec_sync {s : State} {f : RxFrame} (hport : s.hasPort f.port = true) (offset : Int) :
    exec (.sync f offset) s = .next (s.sync f offset) := if_neg (by simp [hport])

theorem State.rxPause_of_badFcs {s : State} {f : RxFrame} (hlink : (s.port f.port).link = true) (hlock : s.locked = false)
    (hfcs : f.fcsGood = false) : s.rxPause f = s.badFcs f := by
  simp only [State.rxPause, hlink, hlock, State.rxFilter_of_badFcs hfcs, Bool.not_true, Bool.not_false, Bool.false_eq_true, or_self,
    if_false, if_true]

/-- A MAC control frame counts by its opcode. -/
theorem State.rxPause_of_good {s : State} {f : RxFrame} (hlink : (s.port f.port).link = true) (hlock : s.locked = false)
    (hfilter : s.rxFilter f = (s, true)) (hetype : f.etherType = 0x8808) : s.rxPause f =
      if bytesAt f.body 1 1 + 256 * bytesAt f.body 0 1 = 0x0001 then
        (portBlocks s.portMode f.port).foldl (fun s b => s.incFld (F.ETH_RXERR_CNT_PAUSE b)) s
      else if bytesAt f.body 1 1 + 256 * bytesAt f.body 0 1 = 0x0101 then
        (portBlocks s.portMode f.port).foldl (fun s b => s.incFld (F.ETH_RXERR_CNT_PFC b)) s
      else s := by
  simp only [State.rxPause, hlink, hlock, hfilter, hetype, ne_eq, not_true_eq_false, Bool.not_true, Bool.false_eq_true, or_self,
    if_false]

theorem State.sync_of_heard {s : State} {f : RxFrame} (hlink : (s.port f.port).link = true) (hfilter : s.rxFilter f = (s, true))
    (hhears : s.hearsSync f = true) (offset : Int) : s.sync f offset = s.syncOffset f offset := by
  simp only [State.sync, hlink, hfilter, hhears, Bool.not_true, Bool.false_eq_true, if_false, if_true]

/-- A saturated value has its bits alone. -/
theorem satSigned_lt (w : Nat) (x : Int) : satSigned w x < 2 ^ w := by
  have hpos : (0 : Int) < 2 ^ w := by positivity
  have hlt := Int.emod_lt_of_pos (max (-(2 ^ (w - 1) : Int)) (min x (2 ^ (w - 1) - 1))) hpos
  have hnonneg := Int.emod_nonneg (max (-(2 ^ (w - 1) : Int)) (min x (2 ^ (w - 1) - 1))) hpos.ne'
  unfold satSigned
  zify
  rw [Int.toNat_of_nonneg hnonneg]
  exact hlt

theorem State.port_lt {s : State} {p : Nat} (h : s.hasPort p = true) : p < 16 := by
  have hlt : p < portCount s.portMode := of_decide_eq_true h
  unfold portCount at hlt
  split_ifs at hlt <;> omega

/-- The servo at a Sync: how many in a row lay within 50 ns. -/
def State.syncGood (s : State) (offset : Int) : Nat := if -50 ≤ offset ∧ offset ≤ 50 then s.sys.ptp.good + 1 else 0

/-- The servo locks at this Sync. -/
def State.syncLocks (s : State) (offset : Int) : Bool := decide (16 ≤ s.syncGood offset) && decide (s.fld F.MTR_PTPSTS_STATE ≠ 2)

/-- The counter steps at this Sync. -/
def State.syncSteps (s : State) (offset : Int) : Bool :=
  s.syncLocks offset && s.sys.ptp.mayStep && !s.bit F.GBL_STATUS_POOL_READY

/-- What the servo holds after a Sync, before the counter steps. -/
def State.synced (s : State) (offset : Int) : State := { s with
  sys.ptp := { s.sys.ptp with good := s.syncGood offset, lastSync := s.now, offset := offset
                              mayStep := s.sys.ptp.mayStep && !s.syncLocks offset && !s.bit F.GBL_STATUS_POOL_READY } }

/-- What STATE of MTR_PTPSTS shows after a Sync: 2 where the servo locks, and 1 after the first. -/
def State.syncState (s : State) (offset : Int) : Nat :=
  if s.syncLocks offset then 2 else if s.fld F.MTR_PTPSTS_STATE = 0 then 1 else s.fld F.MTR_PTPSTS_STATE

theorem State.syncState_lt (s : State) (offset : Int) : s.syncState offset < 2 ^ 2 := by
  have hst : s.fld F.MTR_PTPSTS_STATE < 2 ^ 2 := Fld.of_lt _ _ (by decide)
  unfold State.syncState
  split_ifs <;> omega

/-- What MTR_PTPSTS shows after a Sync. -/
def State.shown (s : State) (f : RxFrame) (offset : Int) : State :=
  (((s.synced offset).setFld F.MTR_PTPSTS_OFFSET (satSigned 32 offset)).setFld F.MTR_PTPSTS_PORT f.port).setFld
    F.MTR_PTPSTS_STATE (s.syncState offset)

/-- The time that the counter shows after a Sync. -/
def State.syncNow (s : State) (offset : Int) : Nat := if s.syncSteps offset then ((s.now : Int) - offset).toNat else s.now

/-- The state after a Sync, but for the record of a great offset. -/
def State.stepped (s : State) (f : RxFrame) (offset : Int) : State :=
  if s.syncSteps offset then
    { s.shown f offset with now := s.syncNow offset, sys.ptp := { (s.shown f offset).sys.ptp with lastSync := s.syncNow offset } }
  else s.shown f offset

theorem State.syncOffset_eq (s : State) (f : RxFrame) (offset : Int) : s.syncOffset f offset =
    if s.bit F.GBL_STATUS_POOL_READY = true ∧ (1000 < offset ∨ offset < -1000) then
      (s.stepped f offset).record (occ bMTR Cause.mtr_PTP_OFFSET)
    else s.stepped f offset := by
  unfold State.stepped State.syncNow
  cases hst : s.syncSteps offset <;> unfold State.syncSteps State.syncLocks State.syncGood at hst <;>
  simp only [State.syncOffset, hst] <;> rfl

theorem State.regsOk_shown {s : State} (hs : s.regsOk = true) (f : RxFrame) (offset : Int) : (s.shown f offset).regsOk = true :=
  State.regsOk_setFld (State.regsOk_setFld (State.regsOk_setFld (s := s.synced offset) hs _ _) _ _) _ _

theorem State.stepped_regs (s : State) (f : RxFrame) (offset : Int) : (s.stepped f offset).regs = (s.shown f offset).regs := by
  unfold State.stepped
  split <;> rfl

/-- A field of MTR_PTPSTS reads after the Sync as it is shown: no occurrence is recorded there. -/
theorem State.fld_syncOffset {s : State} (hs : s.regsOk = true) (f : RxFrame) (offset : Int) (g : Fld)
    (hg : g.key = F.MTR_PTPSTS_STATE.key) :
    (s.syncOffset f offset).fld g = (s.shown f offset).fld g := by
  have hshown : (s.stepped f offset).fld g = (s.shown f offset).fld g := by
    unfold State.fld State.reg
    rw [State.stepped_regs]
  have hok : (s.stepped f offset).regsOk = true := by
    unfold State.regsOk
    rw [State.stepped_regs]
    exact State.regsOk_shown hs f offset
  have hun : unrecorded g.key := by rw [hg]; exact ⟨by decide, by decide, by decide⟩
  rw [State.syncOffset_eq]
  split
  · rw [State.fld_record hok hun, hshown]
  · exact hshown

theorem State.syncOffset_ptp (s : State) (f : RxFrame) (offset : Int) : (s.syncOffset f offset).now = s.syncNow offset ∧
    (s.syncOffset f offset).sys.ptp.offset = offset ∧ (s.syncOffset f offset).sys.ptp.good = s.syncGood offset ∧
    (s.syncOffset f offset).sys.ptp.lastSync = s.syncNow offset := by
  have hstep : (s.stepped f offset).now = s.syncNow offset ∧ (s.stepped f offset).sys.ptp.offset = offset ∧
      (s.stepped f offset).sys.ptp.good = s.syncGood offset ∧ (s.stepped f offset).sys.ptp.lastSync = s.syncNow offset := by
    unfold State.stepped
    split
    · exact ⟨rfl, rfl, rfl, rfl⟩
    · rename_i hno
      rw [State.syncNow, if_neg hno]
      exact ⟨rfl, rfl, rfl, rfl⟩
  rw [State.syncOffset_eq]
  split
  · rw [State.record_now, State.record_sys]
    exact hstep
  · exact hstep

/-- What MTR_PTPSTS shows after a Sync of a port that exists. -/
theorem State.shown_fields {s : State} {f : RxFrame} (hs : s.regsOk = true) (hport : s.hasPort f.port = true) (offset : Int) :
    (s.shown f offset).fld F.MTR_PTPSTS_OFFSET = satSigned 32 offset ∧ (s.shown f offset).fld F.MTR_PTPSTS_PORT = f.port ∧
    (s.shown f offset).fld F.MTR_PTPSTS_STATE = s.syncState offset := by
  have h0 : (s.synced offset).regsOk = true := hs
  have h1 := State.regsOk_setFld h0 F.MTR_PTPSTS_OFFSET (satSigned 32 offset)
  have h2 := State.regsOk_setFld h1 F.MTR_PTPSTS_PORT f.port
  have hport : f.port < 2 ^ 5 := (State.port_lt hport).trans (by decide)
  unfold State.shown
  refine ⟨?offset, ?port, (State.fld_setFld_self h2 F.MTR_PTPSTS_STATE _).trans (Nat.mod_eq_of_lt (s.syncState_lt offset))⟩
  case offset =>
    rw [State.fld_setFld_beside h2 F.MTR_PTPSTS_STATE F.MTR_PTPSTS_OFFSET _ rfl (by decide) (by decide) (by decide),
      State.fld_setFld_beside h1 F.MTR_PTPSTS_PORT F.MTR_PTPSTS_OFFSET _ rfl (by decide) (by decide) (by decide)]
    exact (State.fld_setFld_self h0 F.MTR_PTPSTS_OFFSET _).trans (Nat.mod_eq_of_lt (satSigned_lt 32 offset))
  case port =>
    rw [State.fld_setFld_beside h2 F.MTR_PTPSTS_STATE F.MTR_PTPSTS_PORT _ rfl (by decide) (by decide) (by decide)]
    exact (State.fld_setFld_self h1 F.MTR_PTPSTS_PORT _).trans (Nat.mod_eq_of_lt hport)

/-- The servo that is not LOCKED, or that heard a Sync less than 2 s ago, does nothing; the other enters HOLDOVER. -/
theorem exec_holdover (s : State) : exec .holdover s = .next
    (if s.fld F.MTR_PTPSTS_STATE = 2 ∧ s.sys.ptp.lastSync + 2000000000 ≤ s.now then
      ({ s with sys.ptp := { s.sys.ptp with good := 0 } }.setFld F.MTR_PTPSTS_STATE 3).record (occ bMTR Cause.mtr_PTP_HOLDOVER)
    else s) := rfl

/-- Settles O13: the filter passes the frame, whose EtherType names its handler; of the servo, MTR_PTPSTS shows what it holds. -/
theorem portFramesComplete : Obligations.PortFramesComplete := by
  refine ⟨?pause, ?sync, fun s => ⟨fun hst hdue => ?holdover, fun hno => ?idle⟩⟩
  case pause =>
    rintro s f opc hport hlink hlock rfl
    refine ⟨fun hfcs => ?_, fun hfcs hdst htag hetype => ?_⟩
    · rw [exec_pause hport, State.rxPause_of_badFcs hlink hlock hfcs, State.badFcs]
    · rw [exec_pause hport, State.rxPause_of_good hlink hlock (State.rxFilter_of_good hfcs hdst htag) hetype]
  case sync =>
    rintro s f offset good st lock step hs hport hlink hfcs hdst htag hetype hsync hrole hports rfl rfl rfl rfl
    have hhears : s.hearsSync f = true := by simp [State.hearsSync, hrole, hports, hetype, hsync]
    obtain ⟨hnow, hoffset, hgood, hlast⟩ := s.syncOffset_ptp f offset
    obtain ⟨hshowOffset, hshowPort, hshowState⟩ := State.shown_fields hs hport offset
    refine ⟨s.syncOffset f offset, ?_, hoffset, hgood, ?_, ?_, ?_, hnow, hlast.trans hnow.symm⟩
    · rw [exec_sync hport, State.sync_of_heard hlink (State.rxFilter_of_good hfcs hdst htag) hhears]
    · exact (State.fld_syncOffset hs f offset F.MTR_PTPSTS_OFFSET rfl).trans hshowOffset
    · exact (State.fld_syncOffset hs f offset F.MTR_PTPSTS_PORT rfl).trans hshowPort
    · exact (State.fld_syncOffset hs f offset F.MTR_PTPSTS_STATE rfl).trans hshowState
  case holdover => rw [exec_holdover, if_pos ⟨hst, hdue⟩]
  case idle =>
    rw [exec_holdover, if_neg]
    rintro ⟨hst, hdue⟩
    exact hno.elim (· hst) (Nat.not_lt.mpr hdue)

end Sys2Proof.Machine

/-! Answers to snoops on the connection of their agent (R102, R176 to R178, R245). -/

namespace Sys2Proof.Machine

/-- An answer that is the next of its class, keeps the message rules and answers a snoop that was sent goes on to the home. -/
theorem State.recvSnpRsp_of_sent {s : State} {conn : ConnId} {c : Conn} {a : SnpResp} {f : FwdSnp} (hconn : s.conn conn.toNat = some c)
    (hup : s.dataUp = true) (hturn : s.inTurn conn.toNat 3 (fun m => m = .snpRsp a) = true) (hok : c.msgsOk 3 [.snpRsp a] = true)
    (hsent : ((s.takeMsg conn.toNat 3 fun m => m = .snpRsp a).home.fwdSnps.find? fun g => g.relay.isNone && g.sent &&
      decide (g.snp.agent = a.agent) && decide (g.snp.snptx = a.snptx) && decide (g.snp.pa = a.pa)) = some f) :
    s.recvSnpRsp conn.toNat a = ({ s.takeMsg conn.toNat 3 (fun m => m = .snpRsp a) with
      home.fwdSnps := (s.takeMsg conn.toNat 3 fun m => m = .snpRsp a).home.fwdSnps.erase f } : State).snoopOnward f conn a := by
  simp only [State.recvSnpRsp, hconn, hup, hturn, hok, hsent, Bool.not_true, Bool.false_eq_true, or_self, if_false]
  rw [BitVec.ofNat_toNat, BitVec.setWidth_eq]

/-- Settles O17: either command is the arrival of its answer, which passes the checks and meets its snoop. -/
theorem snoopAnswersComplete : Obligations.SnoopAnswersComplete := by
  rintro s u conn newState flag tenant snptx agent pa line c i a f hconn hi hturn hok rfl hsent hup
  have hexec : exec i s = .next (s.act fun t => t.recvSnpRsp conn.toNat a) ∧ a.agent = agent ∧ a.snptx = snptx ∧ a.pa = pa := by
    simp only [List.mem_cons, Prod.mk.injEq, List.not_mem_nil, or_false] at hi
    obtain ⟨rfl, rfl⟩ | ⟨rfl, rfl⟩ := hi <;> exact ⟨rfl, rfl, rfl, rfl⟩
  obtain ⟨hexec, rfl, rfl, rfl⟩ := hexec
  rw [hexec, State.act_of_dataUp hup, State.recvSnpRsp_of_sent hconn hup hturn hok hsent]

end Sys2Proof.Machine

/-! Picot channels: their frames, and what each of their timers does once its time has come (R111, R112, R115, R149, R162, R249). -/

namespace Sys2Proof.Machine

/-! A Picot frame. -/

/-- The first 8 bytes of a Picot frame to this module name VER 1, as many units as the frame has bytes for, and this module (R112). -/
structure State.PicotPrefix (s : State) (f : RxFrame) : Prop where
  ver : bitsOf (bytesAt f.body 0 8) 0 4 = 1
  pos : bitsOf (bytesAt f.body 0 8) 8 8 ≠ 0
  le : bitsOf (bytesAt f.body 0 8) 8 8 ≤ 64
  length : f.body.length = 8 + 64 * bitsOf (bytesAt f.body 0 8) 8 8
  node : bitsOf (bytesAt f.body 0 8) 32 12 = s.node.toNat

/-- Units that follow earlier ones, on the first path of a channel of the own pool that has started, are taken in turn. -/
theorem State.rxPicot_of_units {s : State} {f : RxFrame} {c : Chan} (hready : (s.port f.port).ready = true)
    (hfilter : s.rxFilter f = (s, true)) (hflip : (s.takePflip 8 0 (engineOf s.portMode f.port 0)).1 = false)
    (hetype : f.etherType.toNat = s.fld F.CDL_ETYPE_PICOT) (hpre : s.PicotPrefix f)
    (hchan : s.chan ⟨false, BitVec.ofNat 12 (bitsOf (bytesAt f.body 0 8) 16 12)⟩ = some c)
    (hpath : pathTaken f = s.chanPath ⟨false, BitVec.ofNat 12 (bitsOf (bytesAt f.body 0 8) 16 12)⟩ false)
    (hfirst : bitsOf (bytesAt f.body 0 8) 48 15 ≠ 0) (hstart : c.state ≠ .start) (hdead : c.dead = false) :
    s.rxPicot f = s.rxUnits ⟨false, BitVec.ofNat 12 (bitsOf (bytesAt f.body 0 8) 16 12)⟩ false (engineOf s.portMode f.port 0)
      (bitsOf (bytesAt f.body 0 8) 48 15) (cutUnits (bitsOf (bytesAt f.body 0 8) 8 8) (f.body.drop 8)) := by
  obtain ⟨hver, hpos, hle, hlen, hnode⟩ := hpre
  unfold pathTaken at hpath
  have hgood : ¬ (bitsOf (bytesAt f.body 0 8) 0 4 ≠ 1 ∨ bitsOf (bytesAt f.body 0 8) 8 8 = 0 ∨
      64 < bitsOf (bytesAt f.body 0 8) 8 8 ∨ f.body.length ≠ 8 + 64 * bitsOf (bytesAt f.body 0 8) 8 8 ∨
      bitsOf (bytesAt f.body 0 8) 32 12 ≠ s.node.toNat) := by omega
  simp only [State.rxPicot, hready, hfilter, hflip, hetype, if_neg hgood, hchan, hpath, hfirst, hstart, hdead, List.find?_cons,
    Option.isSome_some, decide_true, Bool.and_self, Bool.not_true, Bool.false_eq_true, ne_eq, not_true_eq_false, false_and, or_self,
    if_false]

theorem exec_picotFrame {s : State} {f : RxFrame} (hport : s.hasPort f.port = true) :
    exec (.picotFrame f) s = .next (s.act fun t => t.rxPicot f) := if_neg (by simp [hport])

/-! The timers of a channel. -/

section

variable {s : State} {chan : ChanId} {c : Chan}

theorem State.chanReplay_of_due (hc : s.chan chan = some c) (hstart : c.state ≠ .start) (hdead : c.dead = false)
    (hunits : c.units ≠ []) (hdue : c.timer + 4000 ≤ s.now) : s.chanReplay chan = (s.modChan chan fun x =>
      { x with alt := if x.state = .down ∧ s.chanHasAlt chan then !x.alt else x.alt }).resendChan chan := by
  simp only [State.chanReplay, hc, hstart, hdead, List.isEmpty_eq_false_iff.mpr hunits, Nat.not_lt.mpr hdue, Bool.false_eq_true,
    or_self, if_false]

theorem State.chanIdle_of_due (hc : s.chan chan = some c) (hstart : c.state ≠ .start) (hdead : c.dead = false)
    (hidle : c.txq = [] ∨ c.state = .down) (hroom : c.units.length < 1024) (hdue : c.lastSent + 1000 ≤ s.now) : s.chanIdle chan =
      (s.emitPicot c (c.base + c.units.length) [List.replicate 60 0]).modChan chan fun x =>
        { x with units := x.units ++ [List.replicate 60 0], timer := if x.units.isEmpty then s.now else x.timer } := by
  have hquiet : ¬ ((!c.txq.isEmpty) = true ∧ c.state = .up) := by
    rintro ⟨htxq, hup⟩
    rcases hidle with h | h
    · simp [h] at htxq
    · rw [hup] at h; cases h
  simp only [State.chanIdle, hc, hstart, hdead, hquiet, Nat.not_le.mpr hroom, Nat.not_lt.mpr hdue, Bool.false_eq_true, or_self,
    if_false]

/-- What a channel UP notes once its current path has been silent for 6 µs. -/
def State.pathNoted (s : State) (chan : ChanId) : State :=
  s.modChan chan fun x => { x with brokenP := x.brokenP || !x.alt, brokenQ := x.brokenQ || x.alt }

/-- The path that the channel does not use cannot take over. -/
def State.otherBroken (s : State) (chan : ChanId) (c : Chan) : Bool :=
  if c.alt then c.brokenP else c.brokenQ || !s.chanHasAlt chan

theorem State.chanBroken_of_due (hc : s.chan chan = some c) (hup : c.state = .up) (hdue : c.lastGood + 6000 ≤ s.now) :
    s.chanBroken chan =
      if s.otherBroken chan c then
        ((s.pathNoted chan).modChan chan fun x => { x with state := .down, downSince := some s.now, flushed := false }).record
          (occObj bPOOL Cause.pool_CHAN_DOWN 2 chan.peer.toNat)
      else ((s.pathNoted chan).modChan chan fun x => { x with alt := !x.alt, lastGood := s.now }).resendChan chan := by
  simp only [State.chanBroken, hc, hup, Nat.not_lt.mpr hdue, ne_eq, not_true_eq_false, or_self, if_false]
  rfl

theorem State.resendStart_of_due (hc : s.chan chan = some c) (hstart : c.state = .start) (hdead : c.dead = false)
    (hdue : c.lastSent + 100000 ≤ s.now) : s.resendStart chan = s.sendStart chan := by
  simp only [State.resendStart, hc, hstart, hdead, hdue, Bool.not_false, and_self, if_true]

/-- The state once the requests that are not coherent have left the lists of the origin and of a relay (R149). -/
def State.looseDropped (s : State) (chan : ChanId) : State := { s with
  home.oreqs := s.home.oreqs.filter fun o => !(decide (o.dest = some chan) && !coherent o.req.op)
  home.relays := s.home.relays.filter fun e =>
    !(decide (e.2.dest = chan.peer) && decide (e.2.bank ≠ chan.bank) && !coherent e.2.op) }

theorem State.chanGrace_of_due {t : Nat} (hc : s.chan chan = some c) (ht : c.downSince = some t) (hflushed : c.flushed = false)
    (hdown : c.state ≠ .up) (hdue : t + s.graceNs ≤ s.now) : s.chanGrace chan =
      (c.loose.filterMap respKeyOf).foldl (fun s k => s.release k) ((s.looseDropped chan).modChan chan fun x =>
        { x with flushed := true, loose := [], txq := x.txq.filter fun m => !x.loose.contains m && (match fwdReqOf m with
          | some r => coherent r.op
          | none => true) }) := by
  simp only [State.chanGrace, hc, ht, hflushed, hdown, Nat.not_lt.mpr hdue, Bool.false_eq_true, or_self, if_false]
  rfl

end

/-- Settles O19: each command runs its state function, whose guard the channel and the frame pass. -/
theorem channelsComplete : Obligations.ChannelsComplete := by
  intro s u chan c hc
  have hacts (i : Instr) (g : State → State) (hexec : exec i s = .next (s.act g)) (t : State) (ht : g s = t) : s.Moves i t :=
    fun hup => by rw [hexec, State.act_of_dataUp hup, ht]
  refine ⟨?frame, fun hstart hdead hunits hdue => ?replay, fun hstart hidle hdead hroom hdue => ?idle, fun hup hdue hu => ?broken,
    fun hstart hdead hdue => ?start, fun t ht hflushed hdown hdue hu => ?grace⟩
  case frame =>
    rintro f n hport hready hfcs hdst htag hflip hetype rfl hver hpos hle hlen hnode rfl hpath hfirst hstart hdead
    exact hacts _ _ (exec_picotFrame hport) _ (State.rxPicot_of_units hready (State.rxFilter_of_good hfcs hdst htag) hflip hetype
      ⟨hver, hpos, hle, hlen, hnode⟩ hc hpath hfirst hstart hdead)
  case replay => exact hacts _ (State.chanReplay · chan) rfl _ (State.chanReplay_of_due hc hstart hdead hunits hdue)
  case idle => exact hacts _ (State.chanIdle · chan) rfl _ (State.chanIdle_of_due hc hstart hdead hidle hroom hdue)
  case broken =>
    have hbroken := State.chanBroken_of_due hc hup hdue
    subst hu
    refine ⟨fun hother => hacts _ (State.chanBroken · chan) rfl _ ?_, fun hother => hacts _ (State.chanBroken · chan) rfl _ ?_⟩
    · rw [hbroken, State.otherBroken, hother, if_neg Bool.false_ne_true]
      rfl
    · rw [hbroken, State.otherBroken, if_pos hother]
      rfl
  case start => exact hacts _ (State.resendStart · chan) rfl _ (State.resendStart_of_due hc hstart hdead hdue)
  case grace =>
    subst hu
    exact hacts _ (State.chanGrace · chan) rfl _ (State.chanGrace_of_due hc ht hflushed hdown hdue)

end Sys2Proof.Machine

/-! Sequence numbers (R122) and the grants that a receiver advances within its pools and windows (R131). -/

namespace Sys2Proof.Machine

/-! The order of sequence numbers (R122). -/

theorem precedes_iff (a b : Seq24) : precedes a b = true ↔ 1 ≤ (b - a).toNat ∧ (b - a).toNat < 2 ^ 23 := by
  simp only [precedes, Bool.and_eq_true, decide_eq_true_eq]

theorem precedes_eq_false_iff (a b : Seq24) : precedes a b = false ↔ ¬ (1 ≤ (b - a).toNat ∧ (b - a).toNat < 2 ^ 23) := by
  rw [← precedes_iff, Bool.not_eq_true]

theorem Seq24.toNat_distance (a b : Seq24) : (b - a).toNat = (b.toNat + 2 ^ 24 - a.toNat) % 2 ^ 24 := by
  have ha := a.isLt
  rw [BitVec.toNat_sub, show 2 ^ 24 - a.toNat + b.toNat = b.toNat + 2 ^ 24 - a.toNat by omega]

/-- The two distances between different sequence numbers add up to the whole circle. -/
theorem Seq24.toNat_distance_add {a b : Seq24} (hne : a ≠ b) : (b - a).toNat + (a - b).toNat = 2 ^ 24 := by
  have ha := a.isLt
  have hb := b.isLt
  have hval : a.toNat ≠ b.toNat := fun h => hne (BitVec.eq_of_toNat_eq h)
  rw [Seq24.toNat_distance, Seq24.toNat_distance]
  omega

theorem not_precedes_self (a : Seq24) : precedes a a = false := by
  rw [precedes_eq_false_iff, BitVec.sub_self]
  exact fun h => absurd h.1 (by decide)

/-- Settles O40: the distance from `a` to `b` and the one back add up to 2^24, so that just one of them is below 2^23, unless both
are 2^23. -/
theorem sequenceOrder : Obligations.SequenceOrder := by
  intro a b
  refine ⟨?_, rfl, fun hapart => ?_⟩
  · rw [precedes_iff, Seq24.toNat_distance]
    omega
  · by_cases heq : a = b
    · subst heq
      exact .inr (.inl ⟨not_precedes_self a, rfl, not_precedes_self a⟩)
    · have hsum := Seq24.toNat_distance_add heq
      have hfrom := (b - a).isLt
      have hback := (a - b).isLt
      rcases Nat.lt_or_gt_of_ne hapart with hnear | hfar
      · exact .inl ⟨(precedes_iff a b).mpr (by omega), heq, (precedes_eq_false_iff b a).mpr (by omega)⟩
      · exact .inr (.inr ⟨(precedes_eq_false_iff a b).mpr (by omega), heq, (precedes_iff b a).mpr (by omega)⟩)

/-! Four values, one for each class. -/

theorem Per4.get_set_self {α : Type} (p : Per4 α) (k : Nat) (v : α) : (p.set k v).get k = v := by
  unfold Per4.get Per4.set
  split_ifs <;> rfl

theorem Per4.get_set_ne {α : Type} (p : Per4 α) {j k : Nat} (hj : j < 4) (hk : k < 4) (hne : j ≠ k) (v : α) :
    (p.set k v).get j = p.get j := by
  grind [Per4.get, Per4.set]

/-! Changing one entry of a table. -/

/-- Replacing the value of a key that the table holds replaces its term in a sum over the entries. -/
theorem sum_map_tput {α : Type} {t : Table α} {k : Nat} {c : α} (hget : tget t k = some c) (d : α) (f : Nat × α → Nat) :
    ((tput t k d).map f).sum + f (k, c) = (t.map f).sum + f (k, d) := by
  induction t with
  | nil => cases hget
  | cons e t ih =>
    obtain ⟨j, u⟩ := e
    simp only [tget] at hget
    simp only [tput]
    split_ifs at hget ⊢ with hkey hbelow
    · cases hget
      subst hkey
      simp only [List.map_cons, List.sum_cons]
      omega
    · have := ih hget
      simp only [List.map_cons, List.sum_cons]
      omega

theorem State.modConn_of_conn {s : State} {k : Nat} {c : Conn} (hconn : s.conn k = some c) (f : Conn → Conn) :
    s.modConn k f = s.putConn k (f c) := by
  unfold State.conn at hconn
  simp only [State.modConn, State.putConn, tmod, hconn]

@[simp] theorem State.putConn_conn (s : State) (k : Nat) (c : Conn) : (s.putConn k c).conn k = some c :=
  tget_tput_self s.link.conns k c

/-! One grant (R131). -/

/-- The units by which one grant advances: what the window wants of the pool's free space. -/
def State.grantStep (s : State) (c : Conn) (cls : Nat) : Nat :=
  min (s.window cls - (c.grant.get cls - c.recv.get cls).toNat) (poolUnits cls - s.reserved c.engine cls)

/-- A connection whose grant of a class has advanced by `n` units. -/
def Conn.granted (c : Conn) (cls n now : Nat) : Conn :=
  { c with grant := c.grant.set cls (c.grant.get cls + BitVec.ofNat 24 n), grantAck := some (c.grantAck.getD now) }

theorem State.advanceGrant_of_conn {s : State} {k cls : Nat} {c : Conn} (hconn : s.conn k = some c) : s.advanceGrant k cls =
    if s.grantStep c cls = 0 then s else s.putConn k (c.granted cls (s.grantStep c cls) s.now) := by
  simp only [State.advanceGrant, hconn, State.modConn_of_conn hconn]
  rfl

theorem State.advanceGrant_of_no_conn {s : State} {k : Nat} (hconn : s.conn k = none) (cls : Nat) : s.advanceGrant k cls = s := by
  simp only [State.advanceGrant, hconn]

/-- Adding `n` to a sequence number raises its distance from another by at most `n`. -/
theorem Seq24.toNat_add_sub_le (x y : Seq24) (n : Nat) : (x + BitVec.ofNat 24 n - y).toNat ≤ (x - y).toNat + n := by
  have hassoc : x + BitVec.ofNat 24 n - y = x - y + BitVec.ofNat 24 n := by
    rw [BitVec.sub_eq_add_neg, BitVec.sub_eq_add_neg, BitVec.add_assoc, BitVec.add_assoc, BitVec.add_comm (BitVec.ofNat 24 n)]
  rw [hassoc, BitVec.toNat_add, BitVec.toNat_ofNat]
  exact (Nat.mod_le _ _).trans (Nat.add_le_add_left (Nat.mod_le _ _) _)

/-- Every pool is within its size (R131). -/
def State.PoolsBounded (s : State) : Prop := ∀ e cls, cls < 4 → s.reserved e cls ≤ poolUnits cls

/-- What a connection holds reserved of a pool. -/
def Conn.reserves (c : Conn) (engine cls : Nat) : Nat :=
  if c.engine = engine then (c.grant.get cls - c.freed.get cls).toNat else 0

theorem State.reserved_putConn {s : State} {k : Nat} {c : Conn} (hconn : s.conn k = some c) (d : Conn) (e cls : Nat) :
    (s.putConn k d).reserved e cls + c.reserves e cls = s.reserved e cls + d.reserves e cls :=
  sum_map_tput hconn d fun x => x.2.reserves e cls

theorem Conn.reserves_granted_le (c : Conn) (cls n now : Nat) :
    (c.granted cls n now).reserves c.engine cls ≤ c.reserves c.engine cls + n := by
  simp only [Conn.reserves, Conn.granted, if_true, Per4.get_set_self]
  exact Seq24.toNat_add_sub_le _ _ n

theorem Conn.reserves_granted_other (c : Conn) {e i cls : Nat} (hi : i < 4) (hcls : cls < 4) (hother : e ≠ c.engine ∨ i ≠ cls)
    (n now : Nat) : (c.granted cls n now).reserves e i = c.reserves e i := by
  by_cases heng : c.engine = e
  · simp only [Conn.reserves, Conn.granted, Per4.get_set_ne _ hi hcls (hother.resolve_left (not_not.mpr heng.symm))]
  · exact (if_neg heng).trans (if_neg heng).symm

/-- Advancing a grant takes no more of its pool than is free, and nothing of another. -/
theorem State.PoolsBounded.advanceGrant {s : State} (h : s.PoolsBounded) (k : Nat) {cls : Nat} (hcls : cls < 4) :
    (s.advanceGrant k cls).PoolsBounded := by
  cases hconn : s.conn k with
  | none => rwa [State.advanceGrant_of_no_conn hconn]
  | some c =>
    rw [State.advanceGrant_of_conn hconn]
    split_ifs
    · exact h
    · intro e i hi
      have hput := State.reserved_putConn hconn (c.granted cls (s.grantStep c cls) s.now) e i
      have hpool := h e i hi
      by_cases hother : e ≠ c.engine ∨ i ≠ cls
      · have := c.reserves_granted_other hi hcls hother (s.grantStep c cls) s.now
        omega
      · obtain ⟨rfl, rfl⟩ : e = c.engine ∧ i = cls := by tauto
        have hroom : s.grantStep c i ≤ poolUnits i - s.reserved c.engine i := Nat.min_le_right _ _
        have := c.reserves_granted_le i (s.grantStep c i) s.now
        omega

/-! What a connection keeps while its grants advance (R131). -/

/-- A connection keeps what it has received and GRANT2, and takes no window past its bound. -/
structure State.GrantsWithin (s : State) (c d : Conn) : Prop where
  grant2 : d.grant.c2 = c.grant.c2
  recv : d.recv = c.recv
  window : ∀ cls, cls < 4 → (c.grant.get cls - c.recv.get cls).toNat ≤ s.window cls →
    (d.grant.get cls - c.recv.get cls).toNat ≤ s.window cls

theorem State.GrantsWithin.refl (s : State) (c : Conn) : s.GrantsWithin c c := ⟨rfl, rfl, fun _ _ h => h⟩

theorem State.GrantsWithin.granted {s t : State} {c d : Conn} (h : s.GrantsWithin c d) (hwindow : t.window = s.window) {cls : Nat}
    (hcls : cls < 4) (htwo : cls ≠ 2) : s.GrantsWithin c (d.granted cls (t.grantStep d cls) t.now) := by
  refine ⟨(Per4.get_set_ne d.grant (j := 2) (by decide) hcls htwo.symm _).trans h.grant2, h.recv, fun i hi hc => ?_⟩
  have hd := h.window i hi hc
  by_cases hne : i = cls
  · subst hne
    have hwant : t.grantStep d i ≤ s.window i - (d.grant.get i - c.recv.get i).toNat := by
      rw [← hwindow, ← h.recv]
      exact Nat.min_le_left _ _
    have hadd := Seq24.toNat_add_sub_le (d.grant.get i) (c.recv.get i) (t.grantStep d i)
    simp only [Conn.granted, Per4.get_set_self]
    omega
  · simpa only [Conn.granted, Per4.get_set_ne _ hi hcls hne] using hd

/-- The windows are those of `s`, and connection `k` is `c` but for grants advanced within them. -/
def State.Advanced (s : State) (k : Nat) (c : Conn) (t : State) : Prop :=
  t.window = s.window ∧ ∃ d, t.conn k = some d ∧ s.GrantsWithin c d

theorem State.Advanced.advanceGrant {s t : State} {k : Nat} {c : Conn} (h : s.Advanced k c t) {cls : Nat} (hcls : cls < 4)
    (htwo : cls ≠ 2) : s.Advanced k c (t.advanceGrant k cls) := by
  obtain ⟨hwindow, d, hd, hwithin⟩ := h
  rw [State.advanceGrant_of_conn hd]
  split_ifs
  · exact ⟨hwindow, d, hd, hwithin⟩
  · exact ⟨hwindow, _, State.putConn_conn _ _ _, hwithin.granted hwindow hcls htwo⟩

/-- Settles O41: each of the three advances keeps the pools, and the connection within its windows. -/
theorem grantsStayWithinPools : Obligations.GrantsStayWithinPools := by
  intro s k _ hpools
  have hbounded : s.PoolsBounded := hpools
  refine ⟨((hbounded.advanceGrant k (cls := 0) (by decide)).advanceGrant k (cls := 1) (by decide)).advanceGrant k (cls := 3)
    (by decide), fun c hconn => ?_⟩
  have hstart : s.Advanced k c s := ⟨rfl, c, hconn, .refl s c⟩
  obtain ⟨-, d, hd, hwithin⟩ := ((hstart.advanceGrant (cls := 0) (by decide) (by decide)).advanceGrant (cls := 1) (by decide)
    (by decide)).advanceGrant (cls := 3) (by decide) (by decide)
  refine ⟨d, hd, hwithin.grant2, hwithin.recv, fun cls hcls => hwithin.window cls ?_⟩
  simp only [List.mem_cons, List.not_mem_nil, or_false] at hcls
  omega

end Sys2Proof.Machine

/-! The transport timers of a connection (R126, R129, R133 to R135, R149, R152): what each of them does once its time has come. -/

namespace Sys2Proof.Machine

/-! A step of one connection. -/

theorem State.linkAct_of_dataUp {s : State} (hup : s.dataUp = true) (k : Nat) (f : State → State) :
    s.linkAct k f = s.after (f s) := if_pos hup

/-- A command that steps connection `k` completes with what its step leaves. -/
theorem State.moves_of_linkAct {s t : State} {i : Instr} {k : Nat} {g : State → State} (hexec : exec i s = .next (s.linkAct k g))
    (ht : g s = t) : s.Moves i t := fun hup => by
  rw [hexec, State.linkAct_of_dataUp hup, ht]

/-! What counting a packet leaves alone (R359, R417 to R421). -/

/-- `t` is `s` but for registers and pending samples. -/
def State.SameButCounts (s t : State) : Prop := ∃ r l, t = { s with regs := r, samples := l }

namespace State.SameButCounts

variable {s t u : State}

theorem refl (s : State) : s.SameButCounts s := ⟨s.regs, s.samples, rfl⟩

theorem trans (h : s.SameButCounts t) (g : t.SameButCounts u) : s.SameButCounts u := by
  obtain ⟨_, _, rfl⟩ := h
  obtain ⟨_, _, rfl⟩ := g
  exact ⟨_, _, rfl⟩

theorem foldl {α : Type} {f : State → α → State} (hf : ∀ (t : State) a, t.SameButCounts (f t a)) (l : List α) (s : State) :
    s.SameButCounts (l.foldl f s) :=
  List.foldlRecOn l f (.refl s) fun t ht a _ => ht.trans (hf t a)

theorem now (h : s.SameButCounts t) : t.now = s.now := by
  obtain ⟨_, _, rfl⟩ := h
  rfl

end State.SameButCounts

theorem State.sameButCounts_prfAdd (s : State) (bank ctr n : Nat) : s.SameButCounts (s.prfAdd bank ctr n) := by
  unfold State.prfAdd
  dsimp only
  split_ifs <;> exact ⟨_, _, rfl⟩

theorem State.sameButCounts_count (s : State) (bank ev n : Nat) (tenant : Option Nat) :
    s.SameButCounts (s.count bank ev n tenant) := by
  unfold State.count
  split_ifs
  · exact .refl s
  · refine .foldl (fun t i => ?_) (upto 8) s
    dsimp only
    split_ifs
    · exact .refl t
    · exact t.sameButCounts_prfAdd bank i _

theorem State.sameButCounts_countSent (s : State) (engine : Nat) (m : Msg) : s.SameButCounts (s.countSent engine m) := by
  unfold State.countSent
  split
  · dsimp only
    split_ifs
    · exact (s.sameButCounts_count _ _ _ _).trans (State.sameButCounts_count _ _ _ _ _)
    · exact s.sameButCounts_count _ _ _ _
  · exact s.sameButCounts_count _ _ _ _
  · exact .refl s

@[simp] theorem State.takePflip_now (s : State) (cls die unit : Nat) : (s.takePflip cls die unit).2.now = s.now :=
  (apply_ite (fun r : Bool × State => r.2.now) _ _ _).trans (ite_self _)

@[simp] theorem State.emitColdel_now (s : State) (p : Path) (h : CHdr) (payload : List Byte) :
    (s.emitColdel p h payload).now = s.now := by
  unfold State.emitColdel State.emitOn State.emit
  split_ifs <;> rfl

/-! A new DATA packet (R133, R145 to R147). -/

/-- The payload of the next packet of a class. -/
def Conn.nextPayload (c : Conn) (tc : Nat) : List Byte := pad64 ((c.nextPack tc).flatMap fun m => m.msg.bytes)

/-- The state once the next packet of a class has left and is counted. -/
def State.packetOut (s : State) (k : Nat) (c : Conn) (tc : Nat) : State :=
  (c.nextPack tc).foldl (fun s m => s.countSent c.engine m.msg) (((s.takePflip 7 0 c.engine).2.emitColdel
    ((s.takePflip 7 0 c.engine).2.connPath k c.onAlt)
    (c.hdr 0 tc false false c.onAlt c.sndNxt ((c.nextPayload tc).length / 8)) (c.nextPayload tc)).count c.engine 2 1 none)

theorem State.packetOut_now (s : State) (k : Nat) (c : Conn) (tc : Nat) : (s.packetOut k c tc).now = s.now := by
  rw [State.packetOut, (State.SameButCounts.foldl (fun t (m : OutMsg) => t.sameButCounts_countSent c.engine m.msg) _ _).now,
    (State.sameButCounts_count _ _ _ _ _).now, State.emitColdel_now, State.takePflip_now]

/-- The connection once the next packet of a class has left: it waits in the replay buffer, its messages do not wait any more, and it
carried what an ACK would. -/
def Conn.packetSent (c : Conn) (tc : Nat) (bad : Bool) (now : Nat) : Conn := { c with
  sndNxt := c.sndNxt + 1
  sent := c.sent.set tc (c.sent.get tc + BitVec.ofNat 24 (unitsOf ((c.nextPayload tc).length / 8)))
  replay := c.replay ++ [⟨⟨c.engine, tc, c.sndNxt, (c.nextPayload tc).length / 8, c.nextPayload tc⟩, c.onAlt,
    (c.nextPack tc).filterMap (·.rel), bad⟩]
  txq := c.txq.set tc ((c.txq.get tc).drop (c.nextPack tc).length)
  rto := if c.replay.isEmpty then now else c.rto
  grantAck := none, auditDue := true }

section

variable {s : State} {k tc : Nat} {c : Conn}

/-- PEAK apart, a packet that may leave leaves and is kept. -/
theorem State.sendData_of_ready (hconn : s.conn k = some c) (hpack : c.nextPack tc ≠ []) (hhold : c.holding = none)
    (hview : s.pathView k c c.onAlt = .up) (hfly : s.mayFly k c = true) : ∃ peak, s.sendData k tc =
      ((s.packetOut k c tc).putConn k (c.packetSent tc (s.takePflip 7 0 c.engine).1 s.now)).setFld
        (F.CDL_RB_STS_PEAK c.engine) peak := by
  have hmay : ¬ ((c.nextPack tc).isEmpty = true ∨ c.holding.isSome = true ∨ s.pathView k c c.onAlt ≠ .up) := by
    simp [hpack, hhold, hview]
  rw [← s.packetOut_now k c tc]
  simp only [State.sendData, hconn, if_neg hmay, hfly, Bool.not_true, Bool.false_eq_true, if_false]
  exact ⟨_, rfl⟩

/-! The other timers. -/

theorem State.standaloneAck_of_due {t : Nat} (hconn : s.conn k = some c) (hgrant : c.grantAck = some t)
    (hdue : t + 1000 ≤ s.now) : s.standaloneAck k = s.sendAck k := by
  simp only [State.standaloneAck, hconn, hgrant, hdue, if_true]

/-- The replay timer sends the packet at SND_UNA again, on the connection's path. -/
theorem State.replayTimer_of_due {e : RepEntry} {rest : List RepEntry} (hconn : s.conn k = some c)
    (hreplay : c.replay = e :: rest) (hdue : c.rto + 4000 ≤ s.now) (hhold : c.holding = none) (hbad : e.bad = false) :
    s.replayTimer k = ((s.incFld (F.CDL_RELY0_RTO c.engine)).resend k c c.onAlt true e.pkt).modConn k
      fun x => { x with rto := s.now, replay := { e with alt := x.onAlt } :: rest, grantAck := none } := by
  simp only [State.replayTimer, hconn, hreplay, Nat.not_lt.mpr hdue, hhold, hbad, Option.isSome_none, Bool.false_eq_true, or_self,
    if_false, State.incFld_now]

/-- A credit timeout breaks the path in use for this connection alone (R134). -/
theorem State.creditOut_of_due (hconn : s.conn k = some c) (hstarved : c.starved tc = true) (hhold : c.holding = none)
    (hdue : c.gotAt.get tc + s.fld F.CDL_TIMERS_CREDIT_TO * 1000 ≤ s.now) : s.creditOut k tc =
      ((s.putConn k (if c.onAlt then { c with viewQ := some ⟨s.now, false⟩ } else { c with viewP := some ⟨s.now, false⟩ })).record
        (occObj (bPort c.engine) Cause.port_CREDIT_TIMEOUT 3 k)).pathLost k := by
  simp only [State.creditOut, hconn, hstarved, hhold, Nat.not_lt.mpr hdue, Option.isSome_none, Bool.not_true, Bool.false_eq_true,
    or_self, if_false]

theorem State.sendAudit_of_due (hconn : s.conn k = some c) (haudit : c.auditDue = true) (hdue : c.lastAudit + 100000 ≤ s.now)
    (payload : Conn → List Byte) : s.sendAudit k payload = (s.sendCtl k 7 c.onAlt (payload c)).modConn k
      fun x => { x with auditDue := false, lastAudit := s.now } := by
  simp only [State.sendAudit, hconn, haudit, Nat.not_lt.mpr hdue, Bool.not_true, Bool.false_eq_true, or_self, if_false]

/-- GRACE discards the waiting responses to non-coherent requests, counts and records that, and releases their results (R149, R152). -/
theorem State.holdFlush_of_due {t : Nat} (hconn : s.conn k = some c) (hhold : c.holding = some t) (hflushed : c.flushed = false)
    (hdue : t + s.graceNs ≤ s.now) : s.holdFlush k =
      { (((s.putConn k { c with flushed := true, txq := c.txq.set 2 (c.txq.c2.filter (·.coh)) }).addFld
          (F.CDL_RELY1_HOLD_FLUSH c.engine) (c.txq.c2.filter fun m => !m.coh).length).record
          (occObj (bPort c.engine) Cause.port_HOLD_FLUSH 3 k)) with
        link.rels := s.link.rels ++ (c.txq.c2.filter fun m => !m.coh).filterMap (·.rel) } := by
  simp only [State.holdFlush, hconn, hhold, hflushed, Nat.not_lt.mpr hdue, Bool.false_eq_true, or_self, if_false,
    State.record_link, State.addFld_link]
  rfl

end

/-- Settles O14: each command steps its connection by the timer's function, whose guard the connection passes. -/
theorem connectionTimersComplete : Obligations.ConnectionTimersComplete := by
  rintro s conn k c rfl hconn
  refine ⟨fun t hgrant hdue => ?ack, ?data, fun e rest hreplay hdue hhold hbad => ?replay, ?credit, fun haudit hdue => ?audit,
    fun t hhold hflushed hdue => ?flush⟩
  case ack => exact State.moves_of_linkAct (g := (State.standaloneAck · _)) rfl (State.standaloneAck_of_due hconn hgrant hdue)
  case data =>
    rintro tc l payload u rfl hpack hhold hview hfly rfl rfl
    obtain ⟨peak, hsend⟩ := State.sendData_of_ready hconn hpack hhold hview hfly
    exact ⟨_, State.moves_of_linkAct (g := (State.sendData · _ _)) rfl hsend, rfl, State.putConn_conn _ _ _⟩
  case replay =>
    exact State.moves_of_linkAct (g := (State.replayTimer · _)) rfl (State.replayTimer_of_due hconn hreplay hdue hhold hbad)
  case credit =>
    rintro tc x hstarved hhold hdue rfl
    exact State.moves_of_linkAct (g := (State.creditOut · _ _)) rfl (State.creditOut_of_due hconn hstarved hhold hdue)
  case audit =>
    exact State.moves_of_linkAct (g := (State.sendAudit · _ auditPayload)) rfl (State.sendAudit_of_due hconn haudit hdue _)
  case flush =>
    refine ⟨_, State.moves_of_linkAct (g := (State.holdFlush · _)) rfl (State.holdFlush_of_due hconn hhold hflushed hdue), ?_, rfl⟩
    simp only [State.conn, State.record_link, State.addFld_link]
    exact State.putConn_conn _ _ _

end Sys2Proof.Machine

/-! Path records: heartbeats, the break of a path and its return (R138 to R141, R148). -/

namespace Sys2Proof.Machine

@[simp] theorem State.putPath_path (s : State) (r : PathRec) : (s.putPath r).path r.key = some r :=
  tget_tput_self s.link.paths (pathNum r.key) r

@[simp] theorem State.putPath_now (s : State) (r : PathRec) : (s.putPath r).now = s.now := rfl

/-- A command of a path record, which runs while the datapath does, completes with what its step leaves. -/
theorem exec_of_pathStep {s t : State} {i : Instr} {g : State → State} (hup : s.dataUp = true)
    (hexec : exec i s = .next (if (s.dataUp || s.standing) = true then g s else s)) (ht : g s = t) : exec i s = .next t := by
  rw [hexec, if_pos (by rw [hup, Bool.true_or]), ht]

section

variable {s : State} {path : PathKey} {r : PathRec}

theorem State.heartbeat_of_due (hpath : s.path path = some r) {k : Nat} {alt : Bool} {l : List (Nat × Bool)}
    (hon : s.onPath path = (k, alt) :: l) (hdue : r.lastHb + 1000 ≤ s.now) (hflight : s.inFlight path = 0) :
    s.heartbeat path = (s.sendCtl k 3 alt (leBytes 8 s.now ++ leBytes 8 r.echo)).putPath
      { r with lastHb := s.now, txTimes := (r.txTimes.filter fun t => decide (s.now ≤ t + 6000)) ++ [s.now] } := by
  simp only [State.heartbeat, hpath, hon, Nat.not_lt.mpr hdue, hflight, ne_eq, not_true_eq_false, or_self, if_false]

/-- The record is BROKEN; where it was UP, that is recorded (R140). -/
def State.pathMarked (s : State) (path : PathKey) (r : PathRec) : State :=
  if r.state = .up then
    (s.putPath { r with state := .broken }).record (occObj (bPort path.engine) Cause.port_PATH_BROKEN 7 path.port)
  else s.putPath { r with state := .broken }

/-- A record without a proof for 6 µs is BROKEN; its connections follow it, and those that run leave it. -/
theorem State.breakPath_of_due (hpath : s.path path = some r) (hstate : r.state ≠ .broken) (hdue : r.lastProof + 6000 ≤ s.now) :
    s.breakPath path = ((s.usersOf path).filter s.runs).foldl (fun s k => s.pathLost k)
      ((s.usersOf path).foldl (fun s k => s.followRecord path k) (s.pathMarked path r)) := by
  simp only [State.breakPath, hpath, hstate, Nat.not_lt.mpr hdue, or_self, if_false]
  rfl

/-- A RETURNING record that has had proofs long enough is UP, and its connections gain it. -/
theorem State.raisePath_of_due (hpath : s.path path = some r) (hstate : r.state = .returning) (hproof : s.now < r.lastProof + 6000)
    (hdue : r.retSince + s.failbackNs ((s.onPath path).any fun x => s.noUpPath x.1) ≤ s.now) (hkey : r.key = path) :
    s.raisePath path = (s.onPath path).foldl (fun s x => (s.clearView x.1 x.2).pathGained x.1) (s.putPath { r with state := .up }) := by
  have hup : (s.putPath { r with state := .up }).path path = some { r with state := .up } :=
    hkey ▸ State.putPath_path s { r with state := .up }
  simp only [State.raisePath, hpath, hstate, hproof, hdue, hup, State.putPath_now, Option.map_some, and_self, if_true]

end

/-- Settles O15: each command steps its record by the timer's function, whose guard the record passes. -/
theorem pathTimersComplete : Obligations.PathTimersComplete := by
  intro s u v path r hup hpath
  refine ⟨fun k alt l hon hdue hflight => ?heartbeat, ?broken, fun hstate hproof hdue hkey => ?returned⟩
  case heartbeat => exact exec_of_pathStep (g := (State.heartbeat · path)) hup rfl (State.heartbeat_of_due hpath hon hdue hflight)
  case broken =>
    rintro hstate hdue rfl rfl
    exact exec_of_pathStep (g := (State.breakPath · path)) hup rfl (State.breakPath_of_due hpath hstate hdue)
  case returned => exact exec_of_pathStep (g := (State.raisePath · path)) hup rfl (State.raisePath_of_due hpath hstate hproof hdue hkey)

end Sys2Proof.Machine

/-! Declarations of dead nodes, and GO and ABORT of a handoff (R160, R161, R252, R254). -/

namespace Sys2Proof.Machine

/-! A message on a channel. -/

/-- A message that is the next of its channel is taken off it. -/
theorem State.onChan_of_next {s : State} {chan : ChanId} {f : PMsg → Bool} (hnext : s.chanNext chan f = true) (g : State → State) :
    s.onChan chan f g = g (s.takeP chan) := if_pos hnext

/-- A command that brings the message `m` completes with what the message does once it is taken. -/
theorem State.hears_of_heard {s t : State} {chan : ChanId} {m : PMsg} {i : Instr} {g : State → State}
    (hexec : exec i s = .next (s.heard chan (fun x => decide (x = m)) g)) (ht : g (s.takeP chan) = t) : s.Hears chan m i t := by
  intro hnext hup
  rw [hexec, State.heard, State.act_of_dataUp hup, State.onChan_of_next hnext, ht]

/-! Declarations (R160, R161). -/

/-- A declaration counts DSEQ, sets BUSY and acts on the own pool's bank. -/
theorem State.declareDead_of_free {u : State} {w : Word} (hgo : F.POOL_DECLARE_DEAD_GO.of w = 1)
    (hbusy : u.bit F.POOL_DEAD_STS_BUSY = false) (hbank : F.POOL_DECLARE_DEAD_BANK.of w = 0) (lose : State → State) :
    u.declareDead w lose = ((u.incFld F.POOL_DEAD_STS_DSEQ).setFld F.POOL_DEAD_STS_BUSY 1).declare false
      (BitVec.ofNat 12 (F.POOL_DECLARE_DEAD_NODE.of w)) none
      (BitVec.ofNat 16 (((u.incFld F.POOL_DEAD_STS_DSEQ).setFld F.POOL_DEAD_STS_BUSY 1).fld F.POOL_DEAD_STS_DSEQ)) lose := by
  simp only [State.declareDead, hgo, hbusy, hbank, Nat.zero_ne_one, Nat.one_ne_zero, decide_false, Bool.false_eq_true, false_and,
    or_self, if_false]

theorem State.rxDeadNotice_of_asked (u : State) (id : ChanId) (n declarer : NodeId) (dseq : BitVec 16) (lose : State → State) :
    u.rxDeadNotice id false n declarer dseq lose = u.declare id.bank n (some (id, declarer, dseq)) dseq lose := rfl

/-- An answer to this module's own declaration takes its sender out of those awaited. -/
theorem State.rxDeadNotice_of_done {u : State} {declarer : NodeId} (hown : declarer = u.node) (id : ChanId) (n : NodeId)
    (dseq : BitVec 16) (lose : State → State) : u.rxDeadNotice id true n declarer dseq lose =
      { u with home.decls := u.home.decls.map fun (d : Decl) =>
          if d.node = n then { d with wait := d.wait.erase (dseq, id.peer) } else d }.endDecls := by
  simp only [State.rxDeadNotice, hown, Bool.not_true, Bool.false_eq_true, ne_eq, not_true_eq_false, if_false]

/-! GO and ABORT of a handoff (R252, R254). -/

theorem State.spareSmall_iff {u : State} {peer : NodeId} : u.spareSmall peer = true ↔
    Config.spareRaw peer < u.rawBytes ∨ Config.spareRegion peer < u.etrBytes := by
  simp only [State.spareSmall, Bool.or_eq_true, decide_eq_true_eq]

/-- GO to a spare that is up is refused where the spare is too small or lacks a key slot, and starts the copy otherwise. -/
theorem State.hoffGo_of_spareUp {u : State} {w : Word} (hgo : F.POOL_HOFF_GO.of w = 1) (hidle : u.home.hoff.phase = .idle)
    (hspare : u.spareUp (F.POOL_HOFF_TO.of w) = true) : u.hoffGo w =
      if u.spareSmall (u.memNode false (F.POOL_HOFF_TO.of w)) = true then u.setFld F.POOL_HOFF_STS_RESULT 3
      else if u.fresh.2.spareLacksKey (u.memNode false (F.POOL_HOFF_TO.of w)) u.free = true then
        u.fresh.2.setFld F.POOL_HOFF_STS_RESULT 4
      else u.fresh.2.startCopy (F.POOL_HOFF_TO.of w) := by
  simp only [State.hoffGo, hgo, hidle, hspare, Nat.one_ne_zero, ne_eq, not_true_eq_false, Bool.not_true, Bool.false_eq_true, if_false]
  rfl

theorem State.wrHoff_of_go {w : Word} (hgo : F.POOL_HOFF_GO.of w = 1) (u : State) : u.wrHoff w = u.hoffGo w := if_pos hgo

theorem State.wrHoff_of_abort {u : State} {w : Word} (hgo : F.POOL_HOFF_GO.of w = 0) (habort : F.POOL_HOFF_ABORT.of w = 1)
    (hphase : u.home.hoff.phase = .copy ∨ u.home.hoff.phase = .ready) : u.wrHoff w = u.hoffEnd false := by
  simp only [State.wrHoff, hgo, Nat.zero_ne_one, if_false, State.hoffAbort, habort, hphase, and_self, if_true]

theorem exec_declareDead (src : CsrSrc) (w : Word) (s : State) : exec (.declareDead src w) s = .next (s.csrTrig src
    F.POOL_DECLARE_DEAD.key w (F.POOL_DECLARE_DEAD_GO.of w = 1) fun t => t.declareDead w loseHoff) := rfl

theorem exec_hoffGo (src : CsrSrc) (w : Word) (s : State) : exec (.hoffGo src w) s =
    .next (s.csrTrig src F.POOL_HOFF.key w (F.POOL_HOFF_GO.of w = 1) fun t => t.wrHoff w) := rfl

theorem exec_hoffAbort (src : CsrSrc) (w : Word) (s : State) : exec (.hoffAbort src w) s =
    .next (s.csrTrig src F.POOL_HOFF.key w (F.POOL_HOFF_ABORT.of w = 1) fun t => t.wrHoff w) := rfl

/-- Settles O24: an admitted write does what its register says of the state it finds, and a notice what it says of the declarations. -/
theorem declarationsAndHandoffsComplete : Obligations.DeclarationsAndHandoffsComplete := by
  intro s u v src w chan node declarer dseq
  refine ⟨?declared, ?asked, ?answered, ?go, ?abort⟩
  case declared =>
    rintro rfl hgo hbusy hbank rfl hadm
    rw [exec_declareDead, State.csrTrig_admits _ hadm (decide_eq_true hgo), State.declareDead_of_free hgo hbusy hbank]
  case asked =>
    rintro rfl
    exact State.hears_of_heard rfl (State.rxDeadNotice_of_asked _ chan node declarer dseq loseHoff)
  case answered =>
    rintro rfl
    exact State.hears_of_heard rfl (State.rxDeadNotice_of_done rfl chan node dseq loseHoff)
  case go =>
    rintro i x y peer rfl rfl hgo hidle hspare rfl rfl rfl rfl hadm
    rw [exec_hoffGo, State.csrTrig_admits _ hadm (decide_eq_true hgo), State.wrHoff_of_go hgo,
      State.hoffGo_of_spareUp hgo hidle hspare]
    simp only [State.spareSmall_iff]
    rfl
  case abort =>
    rintro rfl hgo habort hphase hadm
    rw [exec_hoffAbort, State.csrTrig_admits _ hadm (decide_eq_true habort), State.wrHoff_of_abort hgo habort hphase]

end Sys2Proof.Machine

/-! Atomics in a line (R193). -/

namespace Sys2Proof.Machine

/-! Bit fields of a word of any width. -/

theorem bfGet_lt {n : Nat} (v : BitVec n) (lo w : Nat) : bfGet v lo w < 2 ^ w := Nat.mod_lt _ (Nat.two_pow_pos w)

theorem getLsbD_bfSet {n : Nat} (v : BitVec n) (lo w x : Nat) {i : Nat} (hin : i < n) :
    (bfSet v lo w x).getLsbD i = if lo ≤ i ∧ i < lo + w then x.testBit (i - lo) else v.getLsbD i := by
  have hsub : i - lo < n := Nat.lt_of_le_of_lt (Nat.sub_le i lo) hin
  simp only [bfSet, BitVec.getLsbD_or, BitVec.getLsbD_and, BitVec.getLsbD_not, BitVec.getLsbD_shiftLeft, BitVec.getLsbD_ofNat,
    Nat.testBit_two_pow_sub_one, hin, hsub, decide_true, Bool.true_and]
  obtain hlow | hinside | habove : i < lo ∨ lo ≤ i ∧ i < lo + w ∨ lo + w ≤ i := by omega
  · have hnot : ¬ lo ≤ i := Nat.not_le_of_lt hlow
    simp [hlow, hnot]
  · have hoff : i - lo < w := by omega
    have hge : ¬ i < lo := Nat.not_lt_of_le hinside.1
    simp [hinside, hge, hoff]
  · have hoff : ¬ i - lo < w := by omega
    have hnot : ¬ i < lo + w := Nat.not_lt_of_le habove
    simp [hnot, hoff]

theorem testBit_bfGet {n : Nat} (v : BitVec n) (lo w i : Nat) :
    (bfGet v lo w).testBit i = (decide (i < w) && v.getLsbD (lo + i)) := by
  rw [bfGet, bitsOf, Nat.testBit_mod_two_pow, Nat.testBit_div_two_pow, BitVec.testBit_toNat, Nat.add_comm i lo]

theorem getLsbD_bfSet_outside {n : Nat} (v : BitVec n) {lo w i : Nat} (x : Nat) (hi : i < lo ∨ lo + w ≤ i) :
    (bfSet v lo w x).getLsbD i = v.getLsbD i := by
  obtain hin | hend := Nat.lt_or_ge i n
  · rw [getLsbD_bfSet v lo w x hin, if_neg (by omega)]
  · rw [BitVec.getLsbD_of_ge _ _ hend, BitVec.getLsbD_of_ge _ _ hend]

/-- A field reads as what was written to it, cut to its width. -/
theorem bfGet_bfSet_same {n : Nat} (v : BitVec n) {lo w : Nat} (x : Nat) (hn : lo + w ≤ n) :
    bfGet (bfSet v lo w x) lo w = x % 2 ^ w := by
  refine Nat.eq_of_testBit_eq fun i => ?_
  rw [testBit_bfGet, Nat.testBit_mod_two_pow]
  by_cases hi : i < w
  · rw [getLsbD_bfSet v lo w x (by omega), if_pos (by omega), Nat.add_sub_cancel_left]
  · simp only [hi, decide_false, Bool.false_and]

/-! The operand of an atomic. -/

/-- The width in bits of an atomic's operand (R104). -/
def HReq.atomWidth (h : HReq) : Nat := if h.req.hdr.sz16 then 128 else 64

theorem atomOld_eq (h : HReq) (d : Line) : atomOld h d = bfGet d (8 * (h.pa % 64)) h.atomWidth := rfl

/-- An operand aligned to its size (R104) does not cross the end of its line. -/
theorem HReq.operand_le_line {h : HReq} (halign : h.pa % (h.atomWidth / 8) = 0) : 8 * (h.pa % 64) + h.atomWidth ≤ 512 := by
  obtain hw | hw : h.atomWidth = 128 ∨ h.atomWidth = 64 := by unfold HReq.atomWidth; split <;> simp
  all_goals
    rw [hw] at halign ⊢
    omega

theorem ReqOp.isAtomic_cases {op : ReqOp} (h : op.isAtomic = true) : op = .fetchAdd ∨ op = .swap ∨ op = .compareSwap := by
  cases op <;> simp_all [ReqOp.isAtomic]

/-- R193's table: the new value of each atomic. -/
theorem atomNew_eq {h : HReq} (hop : h.req.op.isAtomic = true) (old : Nat) :
    atomNew h old = if h.req.op = .fetchAdd then (old + h.req.opa.toNat) % 2 ^ h.atomWidth
      else if h.req.op = .swap then h.req.opa.toNat % 2 ^ h.atomWidth
      else if old = h.req.opa.toNat % 2 ^ h.atomWidth then h.req.opb.toNat % 2 ^ h.atomWidth else old := by
  obtain hfetchAdd | hswap | hcompareSwap := ReqOp.isAtomic_cases hop
  · simp only [atomNew, hfetchAdd, HReq.atomWidth, if_true, Nat.add_mod_mod]
  · simp [atomNew, hswap, HReq.atomWidth]
  · simp [atomNew, hcompareSwap, HReq.atomWidth]

/-- An atomic's new value fits its operand when the old one does. -/
theorem atomNew_lt {h : HReq} (hop : h.req.op.isAtomic = true) {old : Nat} (hold : old < 2 ^ h.atomWidth) :
    atomNew h old < 2 ^ h.atomWidth := by
  have hmod (x : Nat) : x % 2 ^ h.atomWidth < 2 ^ h.atomWidth := Nat.mod_lt x (Nat.two_pow_pos _)
  rw [atomNew_eq hop]
  split_ifs
  · exact hmod _
  · exact hmod _
  · exact hmod _
  · exact hold

/-- Settles O47: the operand lies within the line, so the line's field reads back the new value, which R193's table gives, and the
bits outside the field stay. -/
theorem atomicsChangeTheirOperandOnly : Obligations.AtomicsChangeTheirOperandOnly := by
  rintro h d u w lo hop (rfl : w = h.atomWidth) rfl halign rfl
  refine ⟨?_, fun i hi => getLsbD_bfSet_outside d _ hi⟩
  rw [bfGet_bfSet_same d _ (HReq.operand_le_line halign), atomOld_eq,
    Nat.mod_eq_of_lt (atomNew_lt hop (bfGet_lt d _ _)), atomNew_eq hop]

end Sys2Proof.Machine

/-! The directory's encodings: the 80 bits of an entry (R206), and the set and the tag of a line (R204). -/

namespace Sys2Proof.Machine

/-! The 80 bits of an entry (R206). -/

theorem DSt.code_lt (st : DSt) : st.code < 2 ^ 3 := by cases st <;> decide

@[simp] theorem dstOf_code (st : DSt) : dstOf st.code = st := by cases st <;> rfl

/-- A field within a word reads as that field of the number that the word was made of. -/
@[simp] theorem bfGet_ofNat {n lo w : Nat} (v : Nat) (h : lo + w ≤ n) : bfGet (BitVec.ofNat n v) lo w = bitsOf v lo w := by
  simpa [bfGet, bitsOf] using bitsOf_bitsOf v (lo := 0) h

/-- The first 45 bits of an entry: TAG, STATE, OPEN, FMT and OWNER (R206). -/
def DirEnt.head (e : DirEnt) : Nat :=
  e.tag.toNat + 2 ^ 30 * e.st.code + 2 ^ 33 * b2n e.opn + 2 ^ 34 * b2n e.fmt + 2 ^ 35 * e.owner.toNat

/-- The last 35 bits of an entry: the groups under FMT 1, the count of sharers and the sharers under FMT 0 (R206). -/
def DirEnt.tail (e : DirEnt) : Nat :=
  if e.fmt then e.gvec.toNat
  else e.shr.length + 2 ^ 2 * agentAt e.shr 0 + 2 ^ 12 * agentAt e.shr 1 + 2 ^ 22 * agentAt e.shr 2

theorem entBits_eq (e : DirEnt) : entBits e = BitVec.ofNat 80 (e.head + 2 ^ 45 * e.tail) := by
  rw [entBits, DirEnt.head, DirEnt.tail]
  split
  · rfl
  · congr 1
    omega

theorem DirEnt.head_lt (e : DirEnt) : e.head < 2 ^ 45 := by
  have hst := e.st.code_lt
  have hopn := b2n_lt e.opn
  have hfmt := b2n_lt e.fmt
  rw [DirEnt.head]
  omega

theorem bfGet_entBits_head (e : DirEnt) {lo w : Nat} (h : lo + w ≤ 45) : bfGet (entBits e) lo w = bitsOf e.head lo w := by
  rw [entBits_eq, bfGet_ofNat _ (by omega), bitsOf_add_low _ _ h]

theorem bfGet_entBits_tail (e : DirEnt) {lo w : Nat} (hlo : 45 ≤ lo) (h : lo + w ≤ 80) :
    bfGet (entBits e) lo w = bitsOf e.tail (lo - 45) w := by
  rw [entBits_eq, bfGet_ofNat _ h, bitsOf_add_high _ _ e.head_lt hlo]

/-- The fields of an entry's first 45 bits. -/
theorem DirEnt.bitsOf_head (e : DirEnt) : bitsOf e.head 0 30 = e.tag.toNat ∧ bitsOf e.head 30 3 = e.st.code ∧
    bitsOf e.head 33 1 = b2n e.opn ∧ bitsOf e.head 34 1 = b2n e.fmt ∧ bitsOf e.head 35 10 = e.owner.toNat := by
  have hst := e.st.code_lt
  have hopn := b2n_lt e.opn
  have hfmt := b2n_lt e.fmt
  simp (disch := omega) only [DirEnt.head, bitsOf_add_low, bitsOf_add_high, bitsOf_of_lt, Nat.sub_self, and_self]

/-- Under FMT 0 the count stands before the sharers, each of which has 10 bits. -/
theorem DirEnt.bitsOf_tail_list {e : DirEnt} (hfmt : e.fmt = false) (hshr : e.shr.length ≤ 3) : bitsOf e.tail 0 2 = e.shr.length ∧
    ∀ i, i < 3 → bitsOf e.tail (2 + 10 * i) 10 = agentAt e.shr i := by
  have hagent (i : Nat) : agentAt e.shr i < 2 ^ 10 := BitVec.isLt _
  have h0 := hagent 0
  have h1 := hagent 1
  have h2 := hagent 2
  simp only [DirEnt.tail, hfmt, Bool.false_eq_true, if_false]
  refine ⟨?count, fun i hi => ?sharer⟩
  case count => simp (disch := omega) only [bitsOf_add_low, bitsOf_of_lt]
  case sharer =>
    obtain rfl | rfl | rfl : i = 0 ∨ i = 1 ∨ i = 2 := by omega
    all_goals simp (disch := omega) only [bitsOf_add_low, bitsOf_add_high, bitsOf_of_lt, Nat.reduceMul, Nat.reduceAdd, Nat.reduceSub]

/-- The fields of the first 45 bits read back; FMT says whether the last 35 bits are read as groups or as sharers. -/
theorem entOf_entBits_eq (e : DirEnt) : entOf (entBits e) = { e with
    shr := if e.fmt then [] else (upto (bitsOf e.tail 0 2)).map fun i => BitVec.ofNat 10 (bfGet (entBits e) (47 + 10 * i) 10)
    gvec := if e.fmt then BitVec.ofNat 32 (bitsOf e.tail 0 32) else 0 } := by
  obtain ⟨htag, hst, hopn, hfmt, howner⟩ := e.bitsOf_head
  simp (disch := omega) only [entOf, bfGet_entBits_head, bfGet_entBits_tail e (Nat.le_refl 45), Nat.sub_self, htag, hst, hopn, hfmt,
    howner, dstOf_code, b2n_eq_one, Bool.decide_eq_true, BitVec.ofNat_toNat, BitVec.setWidth_eq]

/-- Under FMT 0 the sharers read back. -/
theorem sharers_entBits {e : DirEnt} (hfmt : e.fmt = false) (hshr : e.shr.length ≤ 3) :
    ((upto (bitsOf e.tail 0 2)).map fun i => (BitVec.ofNat 10 (bfGet (entBits e) (47 + 10 * i) 10) : AgentId)) = e.shr := by
  obtain ⟨hcount, hsharer⟩ := DirEnt.bitsOf_tail_list hfmt hshr
  rw [hcount]
  refine List.ext_getElem (by simp [upto]) fun i hi hi' => ?_
  have hoff : 47 + 10 * i - 45 = 2 + 10 * i := by omega
  simp only [upto, List.getElem_map, List.getElem_range]
  rw [bfGet_entBits_tail e (by omega) (by omega), hoff, hsharer i (by omega), agentAt, List.getD_eq_getElem _ _ hi',
    BitVec.ofNat_toNat, BitVec.setWidth_eq]

/-- Settles O45: the fields of the first 45 bits read back under either FMT, and the last 35 bits give the groups or the sharers. -/
theorem directoryEntryRoundTrip : Obligations.DirectoryEntryRoundTrip := by
  intro e hcanon
  rw [entOf_entBits_eq]
  obtain hfmt | hfmt := Bool.eq_false_or_eq_true e.fmt
  · have hshr : e.shr = [] := by simpa [DirEnt.canon, hfmt] using hcanon
    have htail : e.tail = e.gvec.toNat := if_pos hfmt
    rw [if_pos hfmt, if_pos hfmt, htail, ofNat_bitsOf_toNat, ← hshr]
  · obtain ⟨hshr, hgvec⟩ : e.shr.length ≤ 3 ∧ e.gvec = 0 := by simpa [DirEnt.canon, hfmt] using hcanon
    rw [if_neg (ne_true_of_eq_false hfmt), if_neg (ne_true_of_eq_false hfmt), sharers_entBits hfmt hshr, ← hgvec]

/-! The set and the tag of a line (R204). -/

theorem lineSet_eq_bits (pa : Addr) : lineSet (pa.toNat / 64) = bfGet pa 6 16 ^^^ bfGet pa 22 16 := by
  simp only [lineSet, bfGet, bitsOf, Nat.div_div_eq_div_mul, Nat.reduceMul, Nat.reducePow]

theorem lineSet_lt (line : Nat) : lineSet line < 2 ^ 16 :=
  Nat.xor_lt_two_pow (Nat.mod_lt _ (Nat.two_pow_pos 16)) (Nat.mod_lt _ (Nat.two_pow_pos 16))

/-- The tag of a line of the address space keeps all of the line's upper bits. -/
theorem lineTag_toNat {line : Nat} (h : line < 2 ^ 46) : (lineTag line).toNat = line / 65536 := by
  rw [lineTag, BitVec.toNat_ofNat, Nat.mod_eq_of_lt (by omega)]

/-- The set, XORed with the low bits of the tag once more, gives the line's low bits. -/
theorem lineOfTag_lineSet {line : Nat} (h : line < 2 ^ 46) : lineOfTag (lineSet line) (lineTag line) = line := by
  rw [lineOfTag, lineTag_toNat h, lineSet, Nat.xor_xor_cancel_right]
  omega

/-- Settles O46: a line of the address space is `lineOfTag` of its set and tag, so that lines that share both are the same. -/
theorem setAndTagNameOneLine : Obligations.SetAndTagNameOneLine := by
  intro pa
  have hline (p : Addr) : p.toNat / 64 < 2 ^ 46 := by have := p.isLt; omega
  have htag : (lineTag (pa.toNat / 64)).toNat = bfGet pa 22 30 := by
    rw [lineTag_toNat (hline pa), bfGet, bitsOf]
    have := hline pa
    omega
  refine ⟨lineSet_eq_bits pa, lineSet_lt _, htag, lineOfTag_lineSet (hline pa), fun pb hset htags => ?_⟩
  calc pa.toNat / 64 = lineOfTag (lineSet (pa.toNat / 64)) (lineTag (pa.toNat / 64)) := (lineOfTag_lineSet (hline pa)).symm
    _ = lineOfTag (lineSet (pb.toNat / 64)) (lineTag (pb.toNat / 64)) := by rw [hset, htags]
    _ = pb.toNat / 64 := lineOfTag_lineSet (hline pb)

end Sys2Proof.Machine

/-! The registers of retirement, injection and the compressor's tests (R223, R237, R328, R331, R357, R359, R360). -/

namespace Sys2Proof.Machine

theorem exec_memRetireClear {c : Nat} (hc : c < 24) (src : CsrSrc) (w : Word) (s : State) : exec (.memRetireClear src c w) s =
    .next (s.csrTrig src (F.MEM_RETIRE c).key w (w &&& 0x8421084210 != 0) id) := if_neg (Nat.not_le.mpr hc)

theorem exec_memFlipctl {c : Nat} (hc : c < 24) (src : CsrSrc) (w : Word) (s : State) : exec (.memFlipctl src c w) s =
    .next (s.csrPut src (F.MEM_FLIPCTL c).key w id) := if_neg (Nat.not_le.mpr hc)

theorem exec_eccPflip (src : CsrSrc) (w : Word) (s : State) :
    exec (.eccPflip src w) s = .next (s.csrPut src F.ECC_PFLIP.key w id) := rfl

theorem exec_dirPflip (src : CsrSrc) (w : Word) (s : State) :
    exec (.dirPflip src w) s = .next (s.csrPut src F.DIR_PFLIP.key w id) := rfl

theorem exec_cmpPflip (src : CsrSrc) (w : Word) (s : State) :
    exec (.cmpPflip src w) s = .next (s.csrPut src F.CMP_PFLIP.key w id) := rfl

theorem exec_dirBlindClr (src : CsrSrc) (w : Word) (s : State) : exec (.dirBlindClr src w) s =
    .next (s.csrTrig src F.DIR_BLIND.key w (wbit w 8) fun t => t.wrBlind w) := rfl

theorem exec_cmpTestDecode (src : CsrSrc) (w : Word) (s : State) :
    exec (.cmpTestDecode src w) s = .next (s.testCmd src w 0) := rfl

theorem exec_cmpTestCompress (src : CsrSrc) (w : Word) (s : State) :
    exec (.cmpTestCompress src w) s = .next (s.testCmd src w 1) := rfl

/-- An access with no action of its own completes with what it stores. -/
theorem State.writes_of_csrPut {s : State} {i : Instr} {src : CsrSrc} {k : Nat} {w : Word}
    (hexec : exec i s = .next (s.csrPut src k w id)) : s.Writes i src k w (s.stored k w) := by
  intro hadm
  rw [hexec, State.csrPut_admits _ hadm, id]

/-- CLR returns every blinded way. -/
theorem State.wrBlind_of_clr {w : Word} (hw : wbit w 8 = true) (s : State) :
    s.wrBlind w = { s with home.blind := [] }.setFld F.DIR_BLIND_COUNT 0 := if_pos hw

/-- GO while no test runs starts the test. -/
theorem State.wrTctl_of_starts {s : State} {w : Word} (hgo : wbit w 0 = true) (hidle : s.bit F.CMP_TCTL_BUSY = false) :
    s.wrTctl w = { s with sys.test := some (wbits w 1 1, wbits w 2 1) }.setReg F.CMP_TCTL.key
      (((w &&& 6) ||| 8) ||| (s.reg F.CMP_TCTL.key &&& ~~~(w &&& 0x40000000) &&& 0x7FFFFFF0)) := by
  simp only [State.wrTctl, hgo, State.startTest, hidle, Bool.false_eq_true, if_true, if_false]

/-- An admitted write of CMP_TCTL with GO and the command's operation does what the register says. -/
theorem State.testCmd_admits {s : State} {src : CsrSrc} {w : Word} (h : s.admitsWrite src F.CMP_TCTL.key w = true)
    (hgo : wbit w 0 = true) : s.testCmd src w (wbits w 1 1) =
      s.answered (writeReq src F.CMP_TCTL.key w) (s.counted.wrTctl w) wrote := by
  rw [State.testCmd, if_pos ⟨hgo, rfl⟩, State.csrDo_admitsWrite _ h]
  rfl

/-- Settles O6: an admitted write stores its word and then does what its register says of the state it finds. -/
theorem memoryRegisterWritesComplete : Obligations.MemoryRegisterWritesComplete := by
  intro s src w
  refine ⟨fun c hc hw hadm => ?retire, fun c hc => State.writes_of_csrPut (exec_memFlipctl hc src w s),
    State.writes_of_csrPut (exec_eccPflip src w s), State.writes_of_csrPut (exec_dirPflip src w s),
    State.writes_of_csrPut (exec_cmpPflip src w s), fun hclr hadm => ?blind, ?test⟩
  case retire => rw [exec_memRetireClear hc, State.csrTrig_admits _ hadm (bne_iff_ne.mpr hw), id]
  case blind => rw [exec_dirBlindClr, State.csrTrig_admits _ hadm hclr, State.wrBlind_of_clr hclr]
  case test =>
    rintro i op r hi hgo rfl hidle rfl hadm
    have hexec : exec i s = .next (s.testCmd src w (wbits w 1 1)) := by
      simp only [List.mem_cons, Prod.mk.injEq, List.not_mem_nil, or_false] at hi
      obtain ⟨rfl, hop⟩ | ⟨rfl, hop⟩ := hi
      · rw [exec_cmpTestDecode, hop]
      · rw [exec_cmpTestCompress, hop]
    rw [hexec, State.testCmd_admits hadm hgo, State.wrTctl_of_starts hgo hidle]

end Sys2Proof.Machine

/-! The messages of the sequencer (R226 to R236). -/

namespace Sys2Proof.Machine

/-- The bobbin in force that knows its next number issues it (R232, R235). -/
theorem State.rxSeqReq_of_numbered {u : State} {epoch : BitVec 16} (hbobbin : u.isBobbin = true)
    (hepoch : epoch.toNat = u.fld (F.POOL_ROLES_BEPOCH 0)) (hgsn : u.gsnKnown = true) (kind : BitVec 2) (node : NodeId)
    (rtag : BitVec 16) (pa : Addr) (mask : BitVec 64) (line : Line) : u.rxSeqReq kind node rtag epoch pa mask line =
      if kind = 1 then (u.seqFence node rtag).endMarks else u.seqWrite node rtag mask.toNat pa.toNat line := by
  simp only [State.rxSeqReq, hbobbin, hepoch, hgsn, Bool.not_true, Bool.false_eq_true, ne_eq, not_true_eq_false, or_self, if_false,
    if_true, State.issueSeq]

theorem State.rxSeqGrant_of_granted (u : State) (node : NodeId) (rtag epoch : BitVec 16) :
    u.rxSeqGrant 0 node rtag epoch = u.fenceGranted rtag := rfl

/-- A write that awaits its number and whose 10 µs have passed is sent to the bobbin in force again (R233). -/
theorem State.seqBusyResend_of_due {s : State} {rtag : BitVec 16} {l : Nat} {t : HTx} (hmem : (l, t) ∈ s.home.txs)
    (hphase : t.phase = .seq) (htag : t.tag = rtag) (hset : t.due ≠ 0) (hdue : t.due ≤ s.now) :
    s.seqBusyResend rtag = s.resendSeq rtag (s.bobbinNode false) s.seqEpoch := by
  have hready : s.home.txs.any (fun e => decide (e.2.phase = .seq) && decide (e.2.tag = rtag) && decide (e.2.due ≠ 0)
      && decide (e.2.due ≤ s.now)) = true :=
    List.any_eq_true.mpr ⟨(l, t), hmem, by simp [hphase, htag, hset, hdue]⟩
  simp only [State.seqBusyResend, hready, Bool.true_or, if_true]

/-- A ReplApply of a line that follows what its sender had applied last, collected by another member, is applied and answered
(R227, R230, R234). -/
theorem State.rxReplApply_of_new {u v : State} {chan : ChanId} {node : NodeId} {seqno pa : Nat} {line : Line} {b : Bool}
    (hother : node ≠ u.node) (hnew : ∀ q, u.appliedOf chan.peer = some q → follows48 seqno q = true)
    (happly : (u.setApplied chan.peer seqno).applyReplica pa line = (v, b)) (rtag : BitVec 16) :
    u.rxReplApply chan 0 node rtag pa seqno line = v.sendReplDone node (if b then 0 else 1) rtag seqno := by
  have hcollector : node ≠ (u.setApplied chan.peer seqno).node := hother
  cases hlast : u.appliedOf chan.peer with
  | none => simp only [State.rxReplApply, hlast, Bool.false_eq_true, hcollector, happly, if_true, if_false]
  | some q =>
    simp only [State.rxReplApply, hlast, hnew q hlast, Bool.not_true, Bool.false_eq_true, hcollector, happly, if_true, if_false]

/-- Settles O21: each message does what its receipt function says of the state it finds, and the resend is due. -/
theorem sequencingMessagesComplete : Obligations.SequencingMessagesComplete := by
  intro s u chan node rtag epoch pa mask line seqno
  refine ⟨?request, ?grant, ?resend, ?apply, ?done⟩
  case request =>
    rintro kind rfl hbobbin hepoch hgsn
    exact State.hears_of_heard rfl (State.rxSeqReq_of_numbered hbobbin hepoch hgsn kind node rtag pa mask line)
  case grant =>
    rintro rfl
    exact State.hears_of_heard rfl (State.rxSeqGrant_of_granted _ node rtag epoch)
  case resend =>
    intro l t hmem hphase htag hset hdue hup
    have hexec : exec (.seqBusyResend rtag) s = .next (s.act fun x => x.seqBusyResend rtag) := rfl
    rw [hexec, State.act_of_dataUp hup, State.seqBusyResend_of_due hmem hphase htag hset hdue]
  case apply =>
    rintro v b rfl hother hnew happly
    exact State.hears_of_heard rfl (State.rxReplApply_of_new hother hnew happly rtag)
  case done =>
    rintro status rfl
    exact State.hears_of_heard rfl rfl

end Sys2Proof.Machine

/-! Forwarded requests, responses and releases at the member they name (R245, R246, R264). -/

namespace Sys2Proof.Machine

/-- Outside a handoff, a request of the own pool's bank that names the epoch of a member role held here is served by this home. -/
theorem State.rxFwdReq_of_held {u : State} {chan : ChanId} {env : Envelope} {r : Req} {m engine : Nat} {h : HReq}
    (hreq : h = ⟨⟨env.origin, env.oconn, r.hdr.txid⟩, false, engine, env.hslot.toNat, r, r.hdr.agent, u.home.confGen⟩)
    (hbank : chan.bank = false) (hidle : u.home.hoff.phase = .idle) (hold : u.home.hoff.newHolder = false)
    (htbl : u.tblBad (mapKey false h.pa) = false) (hmember : u.mapMember false h.pa = some m) (hpool : u.poolOk false m r = true)
    (hnode : u.memNode false m = u.node) (hepoch : env.epoch.toNat = u.memEpoch false m) (huplink : u.memUplink false m = false) :
    u.rxFwdReq chan engine env r = u.homeReq h := by
  subst hreq
  simp only [State.rxFwdReq, hbank, hidle, hold, htbl, hmember, hpool, hnode, hepoch, huplink, reduceCtorEq, Bool.not_true,
    Bool.false_eq_true, ne_eq, not_true_eq_false, or_self, false_and, and_false, if_false]

/-- A response whose connection ID is no relay's goes to its connection. -/
theorem State.rxFwdToOrigin_of_noRelay {u : State} {env : Envelope} (hrelay : tget u.home.relays env.oconn.toNat = none)
    (chan : ChanId) (a : Resp) :
    u.rxFwdToOrigin chan env (.resp a) = u.deliverResp env.oconn.toNat (respTaken a) chan.peer := by
  simp only [State.rxFwdToOrigin, hrelay]

/-- A release of a key that neither a relay nor the handoff table holds frees the entry of the key. -/
theorem State.release_of_kept {u : State} {k : TxKey} (hrelay : u.relayOf k.origin k.oconn k.txid = none)
    (hmoved : u.movedKey k = false) : u.release k = u.releaseKey k := by
  simp only [State.release, hrelay, hmoved, Bool.false_eq_true, false_and, if_false]

/-- Settles O18: each message does what its receipt function says of the member, the relay or the key that it names. -/
theorem forwardedMessagesComplete : Obligations.ForwardedMessagesComplete := by
  intro s u chan env r a h m k
  refine ⟨?request, ?response, ?release⟩
  case request =>
    rintro hreq hbank rfl hidle hold htbl hmember hpool hnode hepoch huplink
    exact State.hears_of_heard rfl
      (State.rxFwdReq_of_held hreq hbank hidle hold htbl hmember hpool hnode hepoch huplink)
  case response =>
    rintro rfl hrelay
    exact State.hears_of_heard rfl (State.rxFwdToOrigin_of_noRelay hrelay chan a)
  case release =>
    rintro rfl hrelay hmoved
    exact State.hears_of_heard rfl (State.release_of_kept hrelay hmoved)

end Sys2Proof.Machine

/-! The start of a channel (R249). -/

namespace Sys2Proof.Machine

@[simp] theorem State.modChan_fld (s : State) (id : ChanId) (f : Chan → Chan) (g : Fld) : (s.modChan id f).fld g = s.fld g := rfl

@[simp] theorem State.modChan_rgen (s : State) (id : ChanId) (f : Chan → Chan) : (s.modChan id f).home.rgen = s.home.rgen := rfl

/-- A change that leaves every channel its ID is read back at the channel changed. -/
theorem State.modChan_chan (s : State) (id : ChanId) {f : Chan → Chan} (hf : ∀ c, (f c).id = c.id) :
    (s.modChan id f).chan id = (s.chan id).map f := by
  have hid : ((fun c : Chan => decide (c.id = id)) ∘ fun c => if c.id = id then f c else c) = fun c => decide (c.id = id) := by
    funext c
    by_cases hc : c.id = id <;> simp [hc, hf]
  simp only [State.chan, State.modChan, List.find?_map, hid]
  refine Option.map_congr fun c hc => if_pos ?_
  simpa using List.find?_some hc

section

variable {u : State} {chan : ChanId} {c : Chan} {rgen poolver : BitVec 32}

/-- The peer's answer to this module's ChanStart, its RGEN known already. -/
theorem State.rxChanStart_of_known (hchan : u.chan chan = some c) (hstart : c.state = .start) (hdead : c.dead = false)
    (hver : poolver.toNat = u.fld (F.POOL_VER_VERSION (bankNo chan.bank))) (hknown : c.rgen = some rgen) (bank : Bool) :
    u.rxChanStart chan true chan.peer u.node bank rgen u.home.rgen poolver = u.chanUp chan := by
  simp [State.rxChanStart, hchan, hstart, hdead, hver, hknown]

/-- The peer's answer to this module's ChanStart with an RGEN that is new, the first that the channel has seen: it is kept, and
answered once the channel is up. -/
theorem State.rxChanStart_of_new (hchan : u.chan chan = some c) (hstart : c.state = .start) (hdead : c.dead = false)
    (hver : poolver.toNat = u.fld (F.POOL_VER_VERSION (bankNo chan.bank))) (hnew : c.rgen ≠ some rgen) (hfirst : c.lastRgen = none)
    (bank : Bool) : u.rxChanStart chan true chan.peer u.node bank rgen u.home.rgen poolver =
      ((u.modChan chan fun x => { x with rgen := some rgen, expect := 1 }).chanUp chan).sendStart chan := by
  have hkept : (u.modChan chan fun x => { x with rgen := some rgen, expect := 1 }).chan chan =
      some { c with rgen := some rgen, expect := 1 } := by
    simp only [State.modChan_chan, implies_true, hchan, Option.map_some]
  simp [State.rxChanStart, hchan, hstart, hdead, hver, hnew, hfirst, hkept]

end

/-- Settles O20: what the receipt function finds of the channel brings it up, with an answer where the peer's RGEN is new. -/
theorem chanStartCompletes : Obligations.ChanStartCompletes := by
  rintro s u chan bank c rgen poolver - rfl hchan hstart hdead hver
  refine ⟨fun hknown => ?known, fun hnew hfirst => ?new⟩
  case known => exact State.hears_of_heard rfl (State.rxChanStart_of_known hchan hstart hdead hver hknown bank)
  case new => exact State.hears_of_heard rfl (State.rxChanStart_of_new hchan hstart hdead hver hnew hfirst bank)

end Sys2Proof.Machine

/-! The messages and timers of a handoff (R252 to R263). -/

namespace Sys2Proof.Machine

/-- What one entry of a COPY does at the spare (R255, R263). -/
def State.writeEntry (s : State) : RoleEntry → State
  | .copy off d => s.putCopy (off.toNat % 2 ^ 63) d
  | _ => s

/-- A COPY that a spare which receives already may receive is written, entry by entry (R255). -/
theorem State.rxRoleState_of_receiving {u : State} {chan : ChanId} (hmay : u.mayReceive chan.peer = true)
    (hphase : u.home.hoff.phase = .receiving) (entries : List RoleEntry) :
    u.rxRoleState chan 0 entries = entries.foldl State.writeEntry u := by
  simp only [State.rxRoleState, hmay, hphase, Bool.not_true, Bool.false_eq_true, if_true, if_false]
  rfl

/-- A RoleResend whose connection ID is no relay's names the holder to the release that waits, or has it sent (R260). -/
theorem State.rxRoleResend_of_noRelay {u : State} {oconn : ConnId} (hrelay : tget u.home.relays oconn.toNat = none) (chan : ChanId)
    (node : NodeId) (txid : Txid) : u.rxRoleResend chan node oconn txid =
      if u.relPending oconn.toNat txid then u.retarget oconn.toNat txid node
      else u.sendNode chan.bank node (.resultRelease u.node oconn txid) := by
  simp only [State.rxRoleResend, hrelay]

/-- The copy is done once nothing waits on the channel to the spare (R253). -/
theorem State.hoffCopyDone_of_left {s : State} {c : Chan} (hchan : s.chan ⟨false, s.home.hoff.peer⟩ = some c)
    (hphase : s.home.hoff.phase = .copy) (hleft : c.txq = []) :
    s.hoffCopyDone = { s with home.hoff := { s.home.hoff with phase := .ready } } := by
  simp only [State.hoffCopyDone, hchan, hphase, hleft, List.isEmpty_nil, and_self, if_true]

/-- A handoff before its cutover ends once the channel to its other end is lost for longer than GRACE (R254, R255). -/
theorem State.hoffLost_of_grace {s : State} {c : Chan} {t : Nat} (hchan : s.chan ⟨false, s.home.hoff.peer⟩ = some c)
    (hphase : s.home.hoff.phase = .copy ∨ s.home.hoff.phase = .ready ∨ s.home.hoff.phase = .receiving) (hdown : c.downSince = some t)
    (hgrace : t + s.graceNs < s.now) (hnotUp : c.state ≠ .up) : s.hoffLost = s.hoffEnd true := by
  simp only [State.hoffLost, hchan, hdown, hgrace, hnotUp, hphase, ne_eq, not_false_eq_true, decide_true, Bool.and_self, and_self,
    if_true]

/-- 1 ms after the cutover the window of an old holder closes; it is RESIDUAL while a residual transaction runs (R259, R261). -/
theorem State.windowClose_of_late_old {s : State} (hphase : s.home.hoff.phase = .window)
    (hlate : s.home.hoff.since + 1000000 ≤ s.now) (hold : s.home.hoff.newHolder = false) :
    s.windowClose = { s with home.hoff := { s.home.hoff with
      phase := if s.home.hoff.residual.isEmpty = true ∧ s.residualElse = false then .idle else .residual } } := by
  simp only [State.windowClose, hphase, hlate, hold, ne_eq, not_true_eq_false, Bool.false_eq_true, decide_true, Bool.true_or,
    Bool.and_eq_true, Bool.not_eq_true', if_true, if_false]

/-- 1 ms after the cutover the window of a new holder closes: it asks again for the releases that it awaits (R259, R260). -/
theorem State.windowClose_of_late_new {s : State} (hphase : s.home.hoff.phase = .window)
    (hlate : s.home.hoff.since + 1000000 ≤ s.now) (hnew : s.home.hoff.newHolder = true) {u : State}
    (hu : u = ((s.home.hoff.moved.filter s.movedLive).foldl (fun s m => s.askRelease m.1) s).startGsn) :
    s.windowClose = { u with home.hoff := { u.home.hoff with phase := .idle } } := by
  simp only [State.windowClose, hphase, hlate, hnew, ne_eq, not_true_eq_false, decide_true, if_true, if_false, State.closeNew,
    Bool.true_or, Bool.not_true, Bool.false_eq_true, ← hu]

/-- A command that is a step of the datapath completes with what its step leaves. -/
theorem State.moves_of_act {s t : State} {i : Instr} {g : State → State} (hexec : exec i s = .next (s.act g)) (ht : g s = t) :
    s.Moves i t :=
  fun hup => by rw [hexec, State.act_of_dataUp hup, ht]

/-- Settles O23: each message does what its receipt function says of the state it finds, and each timer is due. -/
theorem handoffStepsComplete : Obligations.HandoffStepsComplete := by
  intro s u chan node oconn txid epoch entries c
  refine ⟨?copy, ?resend, fun hchan => ⟨fun hphase hleft => ?done, fun t hphase hdown hgrace hnotUp => ?lost⟩,
    fun hphase hlate => ⟨fun hold => ?closeOld, fun hnew hu => ?closeNew⟩⟩
  case copy =>
    rintro rfl hmay hphase
    exact State.hears_of_heard rfl (State.rxRoleState_of_receiving hmay hphase entries)
  case resend =>
    rintro rfl hrelay
    exact State.hears_of_heard rfl (State.rxRoleResend_of_noRelay hrelay chan node txid)
  case done => exact State.moves_of_act rfl (State.hoffCopyDone_of_left hchan hphase hleft)
  case lost => exact State.moves_of_act rfl (State.hoffLost_of_grace hchan hphase hdown hgrace hnotUp)
  case closeOld => exact State.moves_of_act rfl (State.windowClose_of_late_old hphase hlate hold)
  case closeNew => exact State.moves_of_act rfl (State.windowClose_of_late_new hphase hlate hnew hu)

end Sys2Proof.Machine

/-! The lending messages (R296 to R300). -/

namespace Sys2Proof.Machine

/-- A command that brings one of the messages that `f` names, the next of its channel, completes with what it does once taken. -/
theorem State.moves_of_heard {s t : State} {chan : ChanId} {f : PMsg → Bool} {i : Instr} {g : State → State}
    (hexec : exec i s = .next (s.heard chan f g)) (hnext : s.chanNext chan f = true) (ht : g (s.takeP chan) = t) : s.Moves i t :=
  fun hup => by rw [hexec, State.heard, State.act_of_dataUp hup, State.onChan_of_next hnext, ht]

/-- A returned run of frames is freed, as far as they are lent to the sender (R296). -/
theorem State.rxLendReq_of_return (u : State) (node : NodeId) (rtag : BitVec 16) (frame count : Nat) :
    u.rxLendReq true node rtag frame count =
      (upto count).foldl (fun s i => if s.lentTo (frame + i) node then s.freeFrame (frame + i) else s) u := if_pos rfl

/-- A home entry's LendReq is answered with the run that the lender's next free frame begins (R296). -/
theorem State.rxLendReq_of_lendable {u v : State} {node : NodeId} {i f count n : Nat} (hentry : u.entryOf false node = some i)
    (hhome : u.isHomeEntry false i = true) (hpick : u.pickFrame 0 = some f) (hmay : u.mayLend f = true)
    (hrun : u.lendRun node (min count 512) f = (v, n)) (hsome : n ≠ 0) (rtag : BitVec 16) (frame : Nat) :
    u.rxLendReq false node rtag frame count =
      v.sendNode false node (.lendGrant 0 v.node rtag (BitVec.ofNat 32 f) (BitVec.ofNat 32 n) v.mem.lgen) := by
  obtain ⟨k, rfl⟩ := Nat.exists_eq_succ_of_ne_zero hsome
  simp only [State.rxLendReq, hentry, hhome, hpick, hmay, hrun, Option.map_some, Option.getD_some, Bool.false_eq_true,
    Bool.true_eq_false, if_true, if_false]
  rfl

/-- A LendGrant with STATUS 0 that answers the LendReq under way gives its frames and the lender's LGEN (R296, R300). -/
theorem State.rxLendGrant_of_asked {u : State} {rtag : BitVec 16} (hask : u.mem.lendAsk = some rtag) (node : NodeId)
    (frame count : Nat) (lgen : BitVec 32) : u.rxLendGrant 0 node rtag frame count lgen = { u with
      mem.lendAsk := none, mem.lenderGens := tput u.mem.lenderGens node.toNat lgen
      mem.spareBorrowed := u.mem.spareBorrowed ++ (upto count).map fun i => (⟨node.toNat, frame + i⟩ : Borrowed) } := by
  simp only [State.rxLendGrant, hask, ne_eq, not_true_eq_false, if_false, if_true]

/-- A read of a frame lent to the asker, under the LGEN in force, is answered with the line as stored (R297). -/
theorem State.rxRemAccess_of_lentRead {u v : State} {node : NodeId} {line : BitVec 6} {frame lgen : BitVec 32} {d : Line} {k : Bool}
    (hlent : u.lentTo frame.toNat node = true) (hgen : lgen = u.mem.lgen)
    (hread : u.readRaw nobody frame.toNat line.toNat srcLender = (v, .line d k)) (rtag : BitVec 16) (pa owner gen : Nat)
    (ksel : Bool) (poison : BitVec 64) (data : Line) :
    u.rxRemAccess 0 node rtag line frame lgen pa owner gen ksel poison data =
      v.sendNode false node (.remAnswer 0 v.node rtag line frame v.mem.lgen (some d)) := by
  simp only [State.rxRemAccess, hlent, hgen, hread, Bool.not_true, Bool.false_eq_true, ne_eq, not_true_eq_false, or_self, if_true,
    if_false]
  rfl

/-- The answer OK to a read for a transaction, neither for a migration nor for a probe, gives the transaction its line (R298). -/
theorem State.rxRemAnswer_of_lineRead {u : State} {node : NodeId} {rtag : BitVec 16} {r : RemWait}
    (hwait : (u.home.rems.find? fun x => decide (x.tag = rtag) && decide (x.lender = node)) = some r) (hread : r.kind = 0)
    (hline : r.mig = false) (hprobe : r.pa ≠ 2 ^ 52) (line : Nat) (data : Line) : u.rxRemAnswer 0 node rtag line data =
      { u with home.rems := u.home.rems.erase r }.lineAnswer r 0 (some data) := by
  simp only [State.rxRemAnswer, raOK, raNOTLENT, hwait, hread, hline, if_neg hprobe, OfNat.zero_ne_ofNat, Bool.false_eq_true,
    false_and, and_self, if_true, if_false]

/-- Settles O22: each message does what its receipt function says of the state it finds. -/
theorem lendingMessagesComplete : Obligations.LendingMessagesComplete := by
  intro s u v chan node rtag frame count lgen line data
  refine ⟨?returned, ?asked, ?granted, ?read, ?answered⟩
  case returned =>
    rintro rfl
    exact State.hears_of_heard rfl (State.rxLendReq_of_return _ node rtag frame.toNat count.toNat)
  case asked =>
    rintro i f n rfl hentry hhome hpick hmay hrun hsome
    exact State.hears_of_heard rfl (State.rxLendReq_of_lendable hentry hhome hpick hmay hrun hsome rtag frame.toNat)
  case granted =>
    rintro rfl hask
    exact State.hears_of_heard rfl (State.rxLendGrant_of_asked hask node frame.toNat count.toNat lgen)
  case read =>
    rintro pa owner gen ksel poison d k rfl hlent hgen hread
    exact State.hears_of_heard rfl
      (State.rxRemAccess_of_lentRead hlent hgen hread rtag pa.toNat owner.toNat gen.toNat ksel poison data)
  case answered =>
    rintro r rfl hnext hwait hkind hmig hprobe
    exact State.moves_of_heard rfl hnext (State.rxRemAnswer_of_lineRead hwait hkind hmig hprobe line.toNat data)

end Sys2Proof.Machine

/-! The events of the tier engine, and the end of a test operation (R277 to R291, R318, R331). -/

namespace Sys2Proof.Machine

/-! The scan and the heat epoch. -/

/-- The scan at the start of a pass: the tenants in a rekey are those of the pass (R387). -/
def State.scanBegun (s : State) : State := if s.mem.scanAt = 0 then { s with mem.rekeyPass := s.rekeys } else s

/-- The scan reads the descriptor `pk` and moves on past it. -/
def State.scanned (s : State) (pk : Nat) : State := { s.scanPage pk with mem.scanAt := pk + 1 }

/-- The scan reads the next descriptor of a used slot, and ends its pass where no used slot is left (R277). -/
theorem State.scan_of_nextUsed {s : State} {slot pk : Nat} (hslot : s.scanBegun.nextUsed (s.scanBegun.mem.scanAt / 512) = some slot)
    (hpk : pk = if slot = s.scanBegun.mem.scanAt / 512 then s.scanBegun.mem.scanAt else 512 * slot) :
    s.scan = if ((s.scanBegun.scanned pk).nextUsed ((pk + 1) / 512)).isNone then (s.scanBegun.scanned pk).endPass
      else s.scanBegun.scanned pk := by
  subst hpk
  unfold State.scanBegun at hslot ⊢
  simp only [State.scan, hslot]
  rfl

/-- A heat epoch that ends leaves its number, and begins the next with no samples (R279). -/
theorem State.heatEpoch_of_new {s : State} (hnew : s.mem.heatEpoch ≠ s.epoch) :
    s.heatEpoch.mem.heatEpoch = s.epoch ∧ s.heatEpoch.mem.sampled = [] ∧ s.heatEpoch.mem.sampledWarm = [] := by
  simp only [State.heatEpoch, if_neg hnew, and_self]

/-! Migrations. -/

/-- A migration whose 4 µs are not over, and which waits for no other member, completes by its kind and tier, unless it has sent its
lines to a lender (R281, R282). -/
theorem State.completeMig_of_local {s : State} {page : Nat} {m : Mig} (hmig : s.migOf page = some m) (htime : s.now ≤ m.since + 4000)
    (hwait : m.waiting = []) (hlocal : m.sent = true → ∀ b, m.dest ≠ .lent b) : s.completeMig page = s.completeLocal page m := by
  have hopen : ¬ (m.since + 4000 < s.now ∨ (!m.waiting.isEmpty) = true) := by simp [hwait, htime]
  simp only [State.completeMig, hmig, if_neg hopen]
  split
  next b hsent hdest => exact absurd hdest (hlocal hsent b)
  next => rfl

theorem State.completeLocal_of_promoteWarm {s : State} {page f : Nat} {m : Mig} (hkind : m.kind = .promote) (hdest : m.dest = .frame f)
    (hwarm : dTier (s.desc page) = tierWARM) : s.completeLocal page m = s.promoteWarm page m.pa f := by
  simp only [State.completeLocal, hkind, hdest, if_pos hwarm]

theorem State.completeLocal_of_demoteHot {s : State} {page : Nat} {m : Mig} (hkind : m.kind = .demote)
    (hhot : dTier (s.desc page) = tierHOT) : s.completeLocal page m = s.demoteHot page m.pa m.dest := by
  simp only [State.completeLocal, hkind, if_pos hhot]

theorem State.abandonMig_of_running {s : State} {page : Nat} {m : Mig} (hmig : s.migOf page = some m) :
    s.abandonMig page = (((s.endMig page).freeDest m.dest).incFld F.TIER_MIGCNT_ABANDON).recordPa
      (occObj bTIER Cause.tier_MIG_ABANDON 1 m.pa) := by
  simp only [State.abandonMig, hmig]

theorem State.migTimeout_of_late {s : State} {page : Nat} {m : Mig} (hmig : s.migOf page = some m) (hlate : m.since + 4000 ≤ s.now) :
    s.migTimeout page = s.abandonMig page := by
  simp only [State.migTimeout, hmig, if_pos hlate]

/-! Segments. -/

theorem State.storeSeg_of_due {s : State} {page seg w : Nat} {e : SEntry}
    (hentry : s.segEntry (pageDie page) ((s.pagePa page + 1024 * seg) / 1024) = some (w, e)) (hwarm : s.isWarm page = true)
    (hdue : s.storeDue (pageDie page) ((s.pagePa page + 1024 * seg) / 1024) e = true) :
    s.storeSeg page seg = s.storeSegment page seg := by
  simp only [State.storeSeg, hentry, hwarm, hdue, and_self, if_true]

theorem State.fillSeg_of_missing {s : State} {page seg : Nat}
    (hmiss : s.segEntry (pageDie page) ((s.pagePa page + 1024 * seg) / 1024) = none) (hwarm : s.isWarm page = true)
    (hkept : s.segLost page seg = false) : s.fillSeg page seg =
      (s.demandFill ⟨0, some (dOwner (s.desc page)), s.pagePa page + 1024 * seg⟩ page (s.pagePa page) seg).1 := by
  simp only [State.fillSeg, hmiss, hwarm, hkept, Option.isSome_none, Bool.not_true, Bool.false_eq_true, or_self, if_false]

theorem exec_segmentStore {s : State} {page seg : Nat} (hseg : seg < 4) :
    exec (.segmentStore page seg) s = .next (s.act fun t => t.storeSeg page seg) := if_neg (Nat.not_le.mpr hseg)

theorem exec_segmentFill {s : State} {page seg : Nat} (hseg : seg < 4) :
    exec (.segmentFill page seg) s = .next (s.act fun t => t.fillSeg page seg) := if_neg (Nat.not_le.mpr hseg)

/-! The test operation. -/

theorem exec_cmpTestDone {s : State} (hup : s.dataUp = true) : exec .cmpTestDone s = .next s.testDone :=
  congrArg Host.Outcome.next (if_pos hup)

/-- A test operation that has an engine in service ends with what the engine does (R331). -/
theorem State.testDone_of_served {s : State} {op die : Nat} (htest : s.sys.test = some (op, die))
    (hengine : (if op = 0 then s.decUp die else s.compUp die) ≠ 0) :
    s.testDone = if op = 0 then s.testDecode die else s.testCompress die := by
  simp only [State.testDone, htest, if_neg hengine]

/-- Settles O27: each event's command runs its state function, whose guard the page, the segment or the test passes. -/
theorem tierEventsComplete : Obligations.TierEventsComplete := by
  intro s u page seg slot m hseg
  refine ⟨?scan, fun hnew => ?epoch, fun f hmig htime hwait hkind hdest hwarm => ?promote,
    fun hmig htime hwait hkind hsent hhot => ?demote, fun hmig hlate => ?abandon, fun w e hentry hwarm hdue => ?store,
    fun hmiss hwarm hkept => ?fill, fun op die hup htest hengine => ?test⟩
  case scan =>
    rintro pk rfl hslot hpk
    refine State.moves_of_act (g := fun t => t.scan.askLender) rfl ?_
    rw [State.scan_of_nextUsed hslot hpk, apply_ite State.askLender]
    rfl
  case epoch => exact ⟨s.heatEpoch, State.moves_of_act rfl rfl, State.heatEpoch_of_new hnew⟩
  case promote =>
    refine State.moves_of_act (g := (State.completeMig · page)) rfl ?_
    rw [State.completeMig_of_local hmig htime hwait (by simp [hdest]), State.completeLocal_of_promoteWarm hkind hdest hwarm]
  case demote =>
    refine State.moves_of_act (g := (State.completeMig · page)) rfl ?_
    rw [State.completeMig_of_local hmig htime hwait (by simp [hsent]), State.completeLocal_of_demoteHot hkind hhot]
  case abandon =>
    refine State.moves_of_act (g := (State.migTimeout · page)) rfl ?_
    rw [State.migTimeout_of_late hmig hlate, State.abandonMig_of_running hmig, State.endMig]
  case store => exact State.moves_of_act (exec_segmentStore hseg) (State.storeSeg_of_due hentry hwarm hdue)
  case fill => exact State.moves_of_act (exec_segmentFill hseg) (State.fillSeg_of_missing hmiss hwarm hkept)
  case test => rw [exec_cmpTestDone hup, State.testDone_of_served htest hengine]

end Sys2Proof.Machine

/-! The compressor and the decompressor (R306, R308, R311 to R314, R323, R325). A body decodes to the segment because each of its
tokens describes the segment's bytes at the position where the decoder stands when it reads the token. -/

namespace Sys2Proof.Machine

/-! The bytes of a segment, and those that the decoder has put out, the latest first. -/

theorem segByte_div (v i : Nat) : segByte (v / 256) i = segByte v (i + 1) := by
  rw [segByte, segByte, bitsOf, bitsOf, Nat.mul_succ, Nat.add_comm, Nat.pow_add, ← Nat.div_div_eq_div_mul]

theorem leBytes_succ_last (n v : Nat) : leBytes (n + 1) v = leBytes n v ++ [BitVec.ofNat 8 (segByte v n)] := by
  induction n generalizing v with
  | zero =>
    refine congrArg (· :: []) (BitVec.eq_of_toNat_eq ?_)
    simp [segByte, bitsOf]
  | succ n ih => rw [leBytes, ih, segByte_div, leBytes, List.cons_append]

theorem leBytes_zero_value (n : Nat) : leBytes n 0 = List.replicate n 0 := by
  induction n with
  | zero => rfl
  | succ n ih => rw [leBytes, Nat.zero_div, ih, List.replicate_succ]; rfl

/-- The output of the decoder once it has put out the first `pos` bytes of a segment: reversed, as lzLoop holds it. -/
def history (v pos : Nat) : List Byte := (leBytes pos v).reverse

theorem history_succ (v pos : Nat) : history v (pos + 1) = BitVec.ofNat 8 (segByte v pos) :: history v pos := by
  rw [history, leBytes_succ_last, List.reverse_append]; rfl

theorem history_reverse (v pos : Nat) : (history v pos).reverse = leBytes pos v := List.reverse_reverse _

theorem byteAt_history {v pos i : Nat} (h : i < pos) :
    byteAt (history v pos) i = BitVec.ofNat 8 (segByte v (pos - 1 - i)) := by
  induction pos generalizing i with
  | zero => omega
  | succ pos ih =>
    rw [history_succ]
    cases i with
    | zero => rfl
    | succ i =>
      have := ih (Nat.lt_of_succ_lt_succ h)
      rw [show pos + 1 - 1 - (i + 1) = pos - 1 - i by omega, ← this]
      rfl

/-! Tokens: what a token puts out, and when it is right at a position. -/

/-- How many bytes a token puts out. -/
def LzTok.size : LzTok → Nat
  | .lit _ => 1
  | .mat _ n => n

/-- The bytes from `pos` on repeat those `d` before them, `n` times. -/
def Repeats (v pos d n : Nat) : Prop := ∀ i < n, segByte v (pos + i) = segByte v (pos + i - d)

/-- A token can be written (R311) and puts out the bytes that the segment has from `pos` on (R312). -/
def LzTok.RightAt (v pos : Nat) : LzTok → Prop
  | .lit b => pos < 1024 ∧ b = segByte v pos
  | .mat d n => (1 ≤ d ∧ d ≤ pos ∧ d < 1024) ∧ (3 ≤ n ∧ n ≤ 66 ∧ pos + n ≤ 1024) ∧ Repeats v pos d n

/-- Tokens that put out the segment's bytes from position `pos` up to position `stop`. -/
def Tiles (v : Nat) : Nat → List LzTok → Nat → Prop
  | pos, [], stop => pos = stop
  | pos, t :: l, stop => t.RightAt v pos ∧ Tiles v (pos + t.size) l stop

/-- Tokens in two parts meet at a position. -/
theorem tiles_append {v pos stop : Nat} {a b : List LzTok} :
    Tiles v pos (a ++ b) stop ↔ ∃ mid, Tiles v pos a mid ∧ Tiles v mid b stop := by
  induction a generalizing pos with
  | nil => simp [Tiles]
  | cons t a ih => simp [Tiles, ih, and_assoc]

/-! The greedy choice of tokens (R323). -/

/-- A match found is within the fuel and the segment, and its bytes repeat. -/
theorem matchLen_repeats {v pos d fuel n : Nat} (hn : Repeats v pos d n) (hend : pos + n ≤ 1024) :
    Repeats v pos d (matchLen v pos d fuel n) ∧ matchLen v pos d fuel n ≤ n + fuel ∧
      pos + matchLen v pos d fuel n ≤ 1024 := by
  induction fuel generalizing n with
  | zero => exact ⟨hn, Nat.le_refl _, hend⟩
  | succ fuel ih =>
    rw [matchLen]
    split
    case isTrue hnext =>
      obtain ⟨hlt, heq⟩ := hnext
      have hn' : Repeats v pos d (n + 1) := fun i hi => by
        obtain hi | rfl := Nat.lt_succ_iff_lt_or_eq.mp hi
        · exact hn i hi
        · exact heq
      obtain ⟨hrep, hfuel, hend'⟩ := ih hn' (by omega)
      exact ⟨hrep, by omega, hend'⟩
    case isFalse => exact ⟨hn, by omega, hend⟩

/-- A candidate's match, if it is long enough to count, is right. -/
theorem LzTok.rightAt_matchLen {v pos d : Nat} (hd : 1 ≤ d ∧ d ≤ pos ∧ d < 1024) (hpos : pos ≤ 1024)
    (hlen : 3 ≤ matchLen v pos d 66 0) : (LzTok.mat d (matchLen v pos d 66 0)).RightAt v pos := by
  obtain ⟨hrep, hfuel, hend⟩ := matchLen_repeats (fuel := 66) (n := 0) (d := d) (fun i hi => absurd hi (Nat.not_lt_zero i)) hpos
  exact ⟨hd, ⟨hlen, by omega, hend⟩, hrep⟩

/-- What the compressor chooses is right, as it is one of the candidates with the match that the candidate has. -/
theorem LzTok.rightAt_bestMatch {v pos : Nat} (hpos : pos ≤ 1024) (hlen : 3 ≤ (bestMatch v pos).2) :
    (LzTok.mat (bestMatch v pos).1 (bestMatch v pos).2).RightAt v pos := by
  revert hlen
  rw [bestMatch]
  split
  case isTrue => exact fun h => absurd h (by decide)
  case isFalse =>
    refine List.foldlRecOn (motive := fun b : Nat × Nat => 3 ≤ b.2 → (LzTok.mat b.1 b.2).RightAt v pos) _ _
      (fun h => absurd h (by decide)) fun b hb d hd => ?_
    dsimp only
    split
    · have hd := (List.mem_filter.mp (List.mem_of_mem_take hd)).1
      simp only [List.mem_map, List.mem_range] at hd
      exact LzTok.rightAt_matchLen (by omega) hpos
    · exact hb

/-- The compressor's tokens put out the rest of the segment. -/
theorem greedy_tiles {v fuel pos : Nat} (hpos : pos ≤ 1024) (hfuel : 1024 ≤ pos + fuel) :
    Tiles v pos (greedy v fuel pos) 1024 := by
  induction fuel generalizing pos with
  | zero => exact Nat.le_antisymm hpos hfuel
  | succ fuel ih =>
    rw [greedy]
    split
    case isTrue hend => exact Nat.le_antisymm hpos hend
    case isFalse hend =>
      dsimp only
      split
      case isTrue hlen =>
        have hright := LzTok.rightAt_bestMatch hpos hlen
        have ⟨_, ⟨_, _, hle⟩, _⟩ := hright
        exact ⟨hright, ih hle (by rw [LzTok.size]; omega)⟩
      case isFalse => exact ⟨⟨by omega, rfl⟩, ih (by rw [LzTok.size]; omega) (by rw [LzTok.size]; omega)⟩

theorem length_greedy_le (v fuel pos : Nat) : (greedy v fuel pos).length ≤ fuel := by
  induction fuel generalizing pos with
  | zero => exact Nat.le_refl 0
  | succ fuel ih =>
    rw [greedy]
    split
    · exact Nat.zero_le _
    · dsimp only
      split <;> exact Nat.succ_le_succ (ih _)

theorem greedy_ne_nil (v fuel : Nat) : greedy v (fuel + 1) 0 ≠ [] := by
  rw [greedy, if_neg (by decide)]
  dsimp only
  split <;> exact List.cons_ne_nil _ _

/-! The control byte of a group (R312). -/

/-- The flags of a group: bit b is set where token b is a match. -/
def groupFlags : List LzTok → Nat
  | [] => 0
  | t :: g => b2n t.isMat + 2 * groupFlags g

theorem sum_flags_from (g : List LzTok) (k : Nat) :
    ((g.zipIdx k).map fun p => if p.1.isMat then 2 ^ p.2 else 0).sum = 2 ^ k * groupFlags g := by
  induction g generalizing k with
  | nil => rfl
  | cons t g ih =>
    rw [List.zipIdx_cons, List.map_cons, List.sum_cons, ih, groupFlags, b2n, Nat.pow_succ]
    split <;> ring

theorem groupFlags_lt (g : List LzTok) : groupFlags g < 2 ^ g.length := by
  induction g with
  | nil => decide
  | cons t g ih =>
    have := b2n_lt t.isMat
    rw [groupFlags, List.length_cons, Nat.pow_succ]
    omega

/-- A group as it is written: its flags and its tokens. -/
theorem lzGroups_succ {l : List LzTok} (hl : l ≠ []) (fuel : Nat) : lzGroups (fuel + 1) l =
    BitVec.ofNat 8 (groupFlags (l.take 8)) :: ((l.take 8).flatMap LzTok.bytes ++ lzGroups fuel (l.drop 8)) := by
  have hsum := sum_flags_from (l.take 8) 0
  rw [Nat.pow_zero, Nat.one_mul] at hsum
  rw [lzGroups, if_neg (by simpa using hl)]
  dsimp only
  rw [hsum, List.cons_append]

@[simp] theorem lzGroups_nil (fuel : Nat) : lzGroups fuel [] = [] := by cases fuel <;> rfl

/-- The decoder reads the flags of a group as they were written. -/
theorem toNat_groupFlags {g : List LzTok} (h : g.length ≤ 8) : (BitVec.ofNat 8 (groupFlags g)).toNat = groupFlags g := by
  rw [BitVec.toNat_ofNat, Nat.mod_eq_of_lt]
  exact (groupFlags_lt g).trans_le (Nat.pow_le_pow_right (by decide) h)

/-! Reading back what was written (R312, R313). -/

/-- Copying bytes that repeat puts out the segment's own, also where the copy reads what it has just written (R312). -/
theorem lzCopy_history {v pos d n : Nat} (hd : 1 ≤ d) (hpos : d ≤ pos) (hrep : Repeats v pos d n) :
    lzCopy d n (history v pos) = history v (pos + n) := by
  induction n generalizing pos with
  | zero => rfl
  | succ n ih =>
    have hfirst : segByte v pos = segByte v (pos - d) := hrep 0 (Nat.succ_pos n)
    have hrest : Repeats v (pos + 1) d n := fun i hi => by
      have := hrep (i + 1) (Nat.succ_lt_succ hi)
      rwa [Nat.add_right_comm pos 1 i]
    rw [lzCopy, byteAt_history (by omega), show pos - 1 - (d - 1) = pos - d by omega, ← hfirst, ← history_succ,
      ih (Nat.le_succ_of_le hpos) hrest, Nat.add_right_comm pos 1 n, Nat.add_assoc]

theorem one_le_length_bytes (t : LzTok) : 1 ≤ t.bytes.length := by
  cases t with
  | lit b => exact Nat.le_refl 1
  | mat d n => exact Nat.succ_pos 1

/-- A token that is right at the decoder's position is read whole, and adds the segment's bytes. -/
theorem lzLoop_token {v n : Nat} {t : LzTok} (h : t.RightAt v n) (fuel : Nat) (rest : List Byte) (pos ctl left tok : Nat) :
    lzLoop (fuel + 1) (t.bytes ++ rest) pos (b2n t.isMat + 2 * ctl, left + 1) (history v n) n tok =
      lzLoop fuel rest (pos + t.bytes.length) (ctl, left) (history v (n + t.size)) (n + t.size) (tok + 1) := by
  cases t with
  | lit b =>
    obtain ⟨hlt, rfl⟩ := h
    have hbit : (0 + 2 * ctl) % 2 = 0 := by omega
    have hctl : (0 + 2 * ctl) / 2 = ctl := by omega
    simp only [LzTok.bytes, LzTok.isMat, LzTok.size, b2n, Bool.false_eq_true, if_false, List.cons_append, List.nil_append, lzLoop,
      Nat.add_one_ne_zero, hbit, hctl, if_true, if_neg hlt.ne, history_succ, Nat.add_sub_cancel, List.length_singleton]
  | mat d len =>
    obtain ⟨⟨hd, hdn, hd1024⟩, ⟨hlen, hlen66, hend⟩, hrep⟩ := h
    have hbit : ¬ (1 + 2 * ctl) % 2 = 0 := by omega
    have hctl : (1 + 2 * ctl) / 2 = ctl := by omega
    obtain ⟨m, hm⟩ : ∃ m, m = d + 1024 * (len - 3) := ⟨_, rfl⟩
    have hword : (BitVec.ofNat 8 m).toNat + 256 * (BitVec.ofNat 8 (m / 256)).toNat = m := by
      simp only [BitVec.toNat_ofNat]; omega
    have hdist : m % 1024 = d := by omega
    have hmatch : m / 1024 + 3 = len := by omega
    simp only [LzTok.bytes, ← hm, leBytes, LzTok.isMat, LzTok.size, b2n, if_true, List.cons_append, List.nil_append, lzLoop,
      Nat.add_one_ne_zero, hbit, hctl, if_false, hword, hdist, hmatch, if_neg (show ¬ d = 0 by omega),
      if_neg (Nat.not_lt.mpr hdn), if_neg (Nat.not_lt.mpr hend), lzCopy_history hd hdn hrep, Nat.add_sub_cancel,
      List.length_cons, List.length_nil]

/-- The tokens of a group are read under its flags. -/
theorem lzLoop_tokens {v n stop : Nat} {g : List LzTok} (h : Tiles v n g stop) (fuel : Nat) (rest : List Byte)
    (pos left tok : Nat) :
    lzLoop (fuel + g.length) (g.flatMap LzTok.bytes ++ rest) pos (groupFlags g, g.length + left) (history v n) n tok =
      lzLoop fuel rest (pos + (g.flatMap LzTok.bytes).length) (0, left) (history v stop) stop (tok + g.length) := by
  induction g generalizing n pos tok with
  | nil => obtain rfl : n = stop := h; simp [groupFlags]
  | cons t g ih =>
    obtain ⟨hright, htiles⟩ := h
    rw [List.flatMap_cons, List.append_assoc, List.length_cons, ← Nat.add_assoc, groupFlags, Nat.add_right_comm g.length 1 left,
      lzLoop_token hright, ih htiles, List.length_append, Nat.add_assoc pos, Nat.add_right_comm tok 1, Nat.add_assoc tok]

/-- A control byte that something follows is read where no flag is left. -/
theorem lzLoop_control {rest : List Byte} (h : rest ≠ []) (fuel : Nat) (x : Byte) (pos ctl : Nat) (out : List Byte)
    (n tok : Nat) :
    lzLoop (fuel + 1) (x :: rest) pos (ctl, 0) out n tok = lzLoop fuel rest (pos + 1) (x.toNat, 8) out n tok := by
  simp only [lzLoop, if_true, if_neg h]

/-- The body ends where the output is complete. -/
theorem lzLoop_end {fuel : Nat} (hfuel : 0 < fuel) (v pos tok : Nat) (flags : Nat × Nat) :
    lzLoop fuel [] pos flags (history v 1024) 1024 tok = ⟨0, pos, 1024, leBytes 1024 v, tok⟩ := by
  obtain ⟨fuel, rfl⟩ := Nat.exists_eq_succ_of_ne_zero hfuel.ne'
  rw [lzLoop, if_neg (Nat.lt_irrefl 1024), history_reverse]

theorem length_le_length_flatMap_bytes (g : List LzTok) : g.length ≤ (g.flatMap LzTok.bytes).length := by
  induction g with
  | nil => exact Nat.le_refl 0
  | cons t g ih =>
    have := one_le_length_bytes t
    rw [List.flatMap_cons, List.length_append, List.length_cons]
    omega

/-- A group is read whole; the flags that it has beyond its tokens are left, all 0. -/
theorem lzLoop_group {v n mid : Nat} {g : List LzTok} (h : Tiles v n g mid) (hpos : 1 ≤ g.length) (hlen : g.length ≤ 8)
    (fuel : Nat) (rest : List Byte) (pos tok : Nat) :
    lzLoop (fuel + g.length + 1) (BitVec.ofNat 8 (groupFlags g) :: (g.flatMap LzTok.bytes ++ rest)) pos (0, 0) (history v n) n tok =
      lzLoop fuel rest (pos + 1 + (g.flatMap LzTok.bytes).length) (0, 8 - g.length) (history v mid) mid (tok + g.length) := by
  have hbytes := length_le_length_flatMap_bytes g
  have hnonempty : g.flatMap LzTok.bytes ++ rest ≠ [] :=
    List.append_ne_nil_of_left_ne_nil (List.ne_nil_of_length_pos (by omega)) _
  have htokens := lzLoop_tokens h fuel rest (pos + 1) (8 - g.length) tok
  rw [Nat.add_sub_cancel' hlen] at htokens
  rw [lzLoop_control hnonempty, toNat_groupFlags hlen, htokens]

/-- The groups of tokens that put out the rest of a segment are read to the end. Only behind the last group may flags be left over:
`left` is 0 wherever tokens follow. -/
theorem lzLoop_lzGroups {v n groups fuel left : Nat} {l : List LzTok} (h : Tiles v n l 1024) (hgroups : l.length ≤ 8 * groups)
    (hfuel : (lzGroups groups l).length < fuel) (hleft : l ≠ [] → left = 0) (pos tok : Nat) :
    lzLoop fuel (lzGroups groups l) pos (0, left) (history v n) n tok =
      ⟨0, pos + (lzGroups groups l).length, 1024, leBytes 1024 v, tok + l.length⟩ := by
  induction groups generalizing l n fuel left pos tok with
  | zero =>
    obtain rfl : l = [] := List.eq_nil_of_length_eq_zero (by omega)
    obtain rfl : n = 1024 := h
    exact lzLoop_end hfuel ..
  | succ groups ih =>
    by_cases hl : l = []
    case pos =>
      subst hl
      obtain rfl : n = 1024 := h
      exact lzLoop_end (by omega) ..
    case neg =>
      obtain rfl := hleft hl
      rw [← List.take_append_drop 8 l, tiles_append] at h
      obtain ⟨mid, hgroup, hrest⟩ := h
      have hpos := List.length_pos_of_ne_nil hl
      have htake : (l.take 8).length = min 8 l.length := List.length_take
      have hdrop : (l.drop 8).length = l.length - 8 := List.length_drop
      have hfull : l.drop 8 ≠ [] → 8 - (l.take 8).length = 0 := fun hne => by
        have := List.length_pos_of_ne_nil hne
        omega
      have hbytes := length_le_length_flatMap_bytes (l.take 8)
      rw [lzGroups_succ hl] at hfuel ⊢
      rw [List.length_cons, List.length_append] at hfuel ⊢
      obtain ⟨fuel, rfl⟩ : ∃ f, fuel = f + (l.take 8).length + 1 := ⟨fuel - (l.take 8).length - 1, by omega⟩
      rw [lzLoop_group hgroup (by omega) (by omega), ih hrest (by omega) (by omega) hfull]
      congr 1 <;> omega

/-- The body that the compressor makes of a segment, where it is short enough (R323). -/
def greedyBody (v : Nat) : List Byte := lzGroups 129 (greedy v 1024 0)

/-- The compressor's body decodes to the segment, and is read to its end. -/
theorem lzDecode_greedyBody (v : Nat) :
    lzDecode (greedyBody v) = ⟨0, (greedyBody v).length, 1024, leBytes 1024 v, (greedy v 1024 0).length⟩ := by
  have hcount := length_greedy_le v 1024 0
  have htiles : Tiles v 0 (greedy v 1024 0) 1024 := greedy_tiles (Nat.zero_le 1024) (Nat.le_refl 1024)
  have := lzLoop_lzGroups (groups := 129) (fuel := 2 * (greedyBody v).length + 2) htiles (by omega)
    (by rw [greedyBody]; omega) (fun _ => rfl) 0 0
  rwa [Nat.zero_add, Nat.zero_add] at this

theorem greedyBody_ne_nil (v : Nat) : greedyBody v ≠ [] := by
  rw [greedyBody, lzGroups_succ (greedy_ne_nil v 1023)]
  exact List.cons_ne_nil _ _

/-! What a body of each type expands to, where its check value is that of its output (R306, R308, R314). -/

theorem expandBody_zero (body : List Byte) (chk : Nat) : expandBody tZERO body chk = ⟨0, 0, 1024, List.replicate 1024 0, 0⟩ :=
  if_pos rfl

theorem expandBody_pattern {body out : List Byte} (h : patternOut body = out) :
    expandBody tPATTERN body (crc32c out).toNat = ⟨0, body.length, 1024, out, 0⟩ := by
  simp [expandBody, tZERO, tPATTERN, h]

theorem expandBody_raw (body : List Byte) : expandBody tRAW body (crc32c body).toNat = ⟨0, body.length, 1024, body, 0⟩ := by
  simp [expandBody, tZERO, tPATTERN, tRAW]

theorem expandBody_lz {body out : List Byte} (hcode : (lzDecode body).code = 0) (hout : (lzDecode body).out = out) :
    expandBody tLZ body (crc32c out).toNat = lzDecode body := by
  simp [expandBody, tZERO, tPATTERN, tLZ, tRAW, hcode, hout]

/-! What the compressor makes of a segment (R323). -/

/-- The check value of a segment (R308). -/
def segChk (v : BitVec 8192) : Nat := (crc32c (leBytes 1024 v.toNat)).toNat

/-- A segment of one repeated word (R323). -/
def IsPattern (v : BitVec 8192) : Prop := patternOut ((leBytes 1024 v.toNat).take 8) = leBytes 1024 v.toNat

theorem compress_zero {v : BitVec 8192} (h0 : v = 0) : compress v = ⟨tZERO, 0, 0, [], false⟩ := if_pos h0

theorem compress_pattern {v : BitVec 8192} (h0 : v ≠ 0) (h : IsPattern v) :
    compress v = ⟨tPATTERN, 8, segChk v, (leBytes 1024 v.toNat).take 8, false⟩ :=
  (if_neg h0).trans (if_pos h)

theorem expandBody_greedyBody (v : BitVec 8192) :
    expandBody tLZ (greedyBody v.toNat) (segChk v) = lzDecode (greedyBody v.toNat) := by
  rw [segChk]
  exact expandBody_lz (by rw [lzDecode_greedyBody]) (by rw [lzDecode_greedyBody])

/-- The compressor's check of its own body passes (R325), so that a body that fits is kept. -/
theorem compress_lz {v : BitVec 8192} (h0 : v ≠ 0) (hp : ¬ IsPattern v) (h : (greedyBody v.toNat).length ≤ 960) :
    compress v = ⟨tLZ, (greedyBody v.toNat).length, segChk v, greedyBody v.toNat, false⟩ := by
  have hdec := lzDecode_greedyBody v.toNat
  have hcode : (expandBody tLZ (greedyBody v.toNat) (segChk v)).code = 0 := by rw [expandBody_greedyBody, hdec]
  have hkept := And.intro hcode (congrArg DecRes.out hdec)
  exact (if_neg h0).trans ((if_neg hp).trans ((if_pos h).trans (if_pos hkept)))

theorem compress_raw {v : BitVec 8192} (h0 : v ≠ 0) (hp : ¬ IsPattern v) (h : ¬ (greedyBody v.toNat).length ≤ 960) :
    compress v = ⟨tRAW, 1024, segChk v, leBytes 1024 v.toNat, false⟩ :=
  (if_neg h0).trans ((if_neg hp).trans (if_neg h))

/-- Settles O50: of each type that the compressor can choose, by what a body of that type expands to. -/
theorem compressionIsLossless : Obligations.CompressionIsLossless := by
  rintro v _ _ rfl rfl
  by_cases h0 : v = 0
  case pos =>
    have hbytes : leBytes 1024 v.toNat = List.replicate 1024 0 := by
      rw [(congrArg BitVec.toNat h0).trans BitVec.toNat_zero, leBytes_zero_value]
    rw [compress_zero h0, expandBody_zero]
    exact ⟨rfl, hbytes.symm, rfl, rfl, rfl, by simpa [tZERO] using h0⟩
  by_cases hp : IsPattern v
  case pos =>
    rw [compress_pattern h0 hp, segChk, expandBody_pattern hp]
    exact ⟨rfl, rfl, rfl, rfl, by simp, by simpa [tPATTERN] using h0⟩
  by_cases hlen : (greedyBody v.toNat).length ≤ 960
  case pos =>
    have hpos : 1 ≤ (greedyBody v.toNat).length := List.length_pos_of_ne_nil (greedyBody_ne_nil v.toNat)
    rw [compress_lz h0 hp hlen, expandBody_greedyBody, lzDecode_greedyBody]
    exact ⟨rfl, rfl, rfl, rfl, rfl, by simpa [tLZ, hlen] using ⟨h0, hpos⟩⟩
  case neg =>
    rw [compress_raw h0 hp hlen, segChk, expandBody_raw]
    exact ⟨rfl, rfl, rfl, rfl, (length_leBytes 1024 _).symm, by simpa [tRAW] using h0⟩

end Sys2Proof.Machine

/-! The events of the memory controllers (R334, R342, R346 to R362). -/

namespace Sys2Proof.Machine

/-! Line reads and merge entries. -/

theorem exec_lineReadReturn {frame line : Nat} {s : State} (hline : line < 64) (hframe : frame / 24 < s.chanFrames (frameChan frame))
    (source : ReadSource) (err : BitVec 640) :
    exec (.lineReadReturn frame line source err) s = .next (s.act fun t => t.lineReturn frame line source err) :=
  if_neg (not_or.mpr ⟨Nat.not_le.mpr hline, Nat.not_le.mpr hframe⟩)

/-- The state once a stored line has acquired an error pattern (R342). -/
def State.acquired (s : State) (k : Nat) (err : BitVec 640) : State :=
  { s with mem.dramErr := sput (fun _ => 0) s.mem.dramErr k (sget (fun _ => 0) s.mem.dramErr k ^^^ err) }

/-- A line that reads as data, corrected or not, leaves what its read leaves (R342, R350). -/
theorem State.lineReturn_of_line {s v : State} {frame line : Nat} {source : ReadSource} {err : BitVec 640} {d : Line} {n : Bool}
    (hread : (s.acquired (frame * 64 + line) err).readRaw nobody frame line (sourceCode source) = (v, .line d n)) :
    s.lineReturn frame line source err = v := by
  unfold State.acquired at hread
  simp only [State.lineReturn, hread]

/-- A merge entry that has been open for 250 ns closes (R346). -/
theorem State.mergeClose_of_late {s : State} {line : Nat} {e : MergeEntry} (hentry : s.mergeOf line = some e)
    (hlate : e.since + 250 ≤ s.now) : s.mergeClose e.group line = s.closeLine line := by
  simp only [State.mergeClose, hentry, hlate, and_self, if_true]

/-! The patrol scrubber. -/

/-- The patrol once it has read line `line` of frame `f`: it stands behind the line, or ends its pass where its scope holds no
further frame (R349, R355). -/
def State.patrolPast (s : State) (f line : Nat) : State :=
  if (s.nextPatrol ((f * 64 + line + 1) / 64)).isNone then s.endPatrol else { s with mem.patrolAt := f * 64 + line + 1 }

/-- The patrol reads the line it has reached, or the first line of the next frame of its scope (R349). -/
theorem State.patrol_of_nextPatrol {s : State} {f line : Nat} (hon : s.bit F.ECC_SCRUB_EN = true)
    (hnext : s.nextPatrol (s.mem.patrolAt / 64) = some f)
    (hline : line = if f = s.mem.patrolAt / 64 then s.mem.patrolAt % 64 else 0) :
    s.patrol = (s.readRaw nobody f line srcPatrol).1.patrolPast f line := by
  subst hline
  simp only [State.patrol, hon, hnext, Bool.not_true, Bool.false_eq_true, if_false]
  rfl

/-! DIMM temperatures, and the halt of a channel. -/

theorem exec_dimmTempRead {c : Nat} (hc : c < 24) (temp : Int) (s : State) :
    exec (.dimmTempRead c temp) s = .next (s.dimmTemp c temp) := if_neg (Nat.not_le.mpr hc)

theorem exec_chanHalt {c : Nat} (hc : c < 24) (s : State) :
    exec (.chanHalt c) s = .next (s.act fun t => if t.chReady c then t.haltChan c else t) := if_neg (Nat.not_le.mpr hc)

/-- Settles O26: each event's command runs its state function, whose guard the line, the entry, the patrol or the channel passes. -/
theorem memoryEventsComplete : Obligations.MemoryEventsComplete := by
  intro s u frame line channel source err
  refine ⟨?read, fun e hentry hlate => State.moves_of_act rfl (State.mergeClose_of_late hentry hlate), ?patrol, ?temp, ?halt⟩
  case read =>
    rintro k v d n hline hframe rfl rfl hread
    exact State.moves_of_act (exec_lineReadReturn hline hframe source err) (State.lineReturn_of_line hread)
  case patrol =>
    rintro f hon hnext hline rfl
    exact State.moves_of_act rfl (State.patrol_of_nextPatrol hon hnext hline)
  case temp =>
    rintro temp hot thr v hc rfl rfl rfl rfl
    rw [exec_dimmTempRead hc]
    simp only [State.dimmTemp, Bool.not_eq_true']
  case halt =>
    rintro hc hready rfl
    exact State.moves_of_act (exec_chanHalt hc s) (if_pos hready)

end Sys2Proof.Machine


/-! XTS over AES-256 (R366 to R368): each step of a round has an inverse on blocks of 16 bytes, so that the cipher in one
direction undoes the other on every block, and XTS does on every line. -/

namespace Sys2Proof.Machine

/-! Byte lists by their elements. -/

@[simp] theorem length_upto (n : Nat) : (upto n).length = n := List.length_range

@[simp] theorem byteAt_upto_map {n i : Nat} (f : Nat → Byte) (h : i < n) : byteAt ((upto n).map f) i = f i := by
  simp [byteAt, upto, h]

@[simp] theorem byteAt_map {l : List Byte} {i : Nat} (f : Byte → Byte) (h : i < l.length) :
    byteAt (l.map f) i = f (byteAt l i) := by
  simp [byteAt, h]

theorem ext_byteAt {a b : List Byte} (hlen : a.length = b.length) (h : ∀ i < b.length, byteAt a i = byteAt b i) : a = b := by
  refine List.ext_getElem hlen fun i ha hb => ?_
  have hi := h i hb
  simpa [byteAt, ha, hb] using hi

theorem length_xorBytes {a b : List Byte} {n : Nat} (ha : a.length = n) (hb : b.length = n) : (xorBytes a b).length = n := by
  simp [xorBytes, ha, hb]

theorem xorBytes_xorBytes {a b : List Byte} (h : a.length = b.length) : xorBytes (xorBytes a b) b = a := by
  induction a generalizing b with
  | nil => rfl
  | cons x a ih =>
    cases b with
    | nil => cases h
    | cons y b =>
      have htail := ih (Nat.succ.inj h)
      simp only [xorBytes, List.zipWith_cons_cons] at htail ⊢
      rw [htail, BitVec.xor_assoc, BitVec.xor_self, BitVec.xor_zero]

/-! The steps of a round and their inverses. -/

theorem invSbox_sbox : ∀ b : Byte, tabByte invSboxNum (tabByte sboxNum b) = b := by decide +kernel

@[simp] theorem length_shiftRows (st : List Byte) : (shiftRows st).length = 16 := by simp [shiftRows]

@[simp] theorem length_invShiftRows (st : List Byte) : (invShiftRows st).length = 16 := by simp [invShiftRows]

@[simp] theorem length_mixWith (a b c d : Byte) (st : List Byte) : (mixWith a b c d st).length = 16 := by simp [mixWith]

theorem invShiftRows_shiftRows {st : List Byte} (h : st.length = 16) : invShiftRows (shiftRows st) = st := by
  refine ext_byteAt (by simp [h]) fun i hi => ?_
  have hi : i < 16 := h ▸ hi
  rw [invShiftRows, byteAt_upto_map _ hi, shiftRows, byteAt_upto_map _ (by omega)]
  congr 1
  omega

theorem xtime_xor (a b : Byte) : xtime (a ^^^ b) = xtime a ^^^ xtime b := by
  unfold xtime
  rw [BitVec.shiftLeft_xor_distrib, BitVec.getLsbD_xor]
  cases a.getLsbD 7 <;> cases b.getLsbD 7 <;>
    simp only [Bool.bne_false, Bool.bne_true, Bool.not_true, Bool.not_false, if_true, Bool.false_eq_true, if_false]
  case false.true => exact BitVec.xor_assoc _ _ _
  case true.false => ac_rfl
  case true.true =>
    calc a <<< 1 ^^^ b <<< 1 = a <<< 1 ^^^ b <<< 1 ^^^ (0x1B#8 ^^^ 0x1B#8) := by rw [BitVec.xor_self, BitVec.xor_zero]
      _ = a <<< 1 ^^^ 0x1B#8 ^^^ (b <<< 1 ^^^ 0x1B#8) := by ac_rfl

/-- One step of a multiplication by `b`: the sum so far and the multiple of the other factor. -/
def gmulStep (b : Byte) (p : Byte × Byte) (i : Nat) : Byte × Byte :=
  (if b.getLsbD i then p.1 ^^^ p.2 else p.1, xtime p.2)

theorem gmul_eq_foldl (a b : Byte) : gmul a b = ((upto 8).foldl (gmulStep b) (0, a)).1 := rfl

theorem foldl_gmulStep_xor (b : Byte) (l : List Nat) (p q : Byte × Byte) :
    l.foldl (gmulStep b) (p.1 ^^^ q.1, p.2 ^^^ q.2) =
      ((l.foldl (gmulStep b) p).1 ^^^ (l.foldl (gmulStep b) q).1, (l.foldl (gmulStep b) p).2 ^^^ (l.foldl (gmulStep b) q).2) := by
  induction l generalizing p q with
  | nil => rfl
  | cons i l ih =>
    rw [List.foldl_cons, List.foldl_cons, List.foldl_cons, ← ih]
    congr 1
    simp only [gmulStep, xtime_xor]
    split
    · congr 1
      ac_rfl
    · rfl

theorem gmul_xor (a b c : Byte) : gmul (a ^^^ b) c = gmul a c ^^^ gmul b c := by
  simp only [gmul_eq_foldl]
  have h := congrArg Prod.fst (foldl_gmulStep_xor c (upto 8) (0, a) (0, b))
  rwa [BitVec.xor_self] at h

/-- The matrix of MixColumns times that of its inverse, by columns: the unit matrix. -/
theorem mixColumns_inverse : ∀ a : Byte,
    gmul (gmul a 2) 14 ^^^ gmul (gmul a 1) 11 ^^^ gmul (gmul a 1) 13 ^^^ gmul (gmul a 3) 9 = a ∧
    gmul (gmul a 3) 14 ^^^ gmul (gmul a 2) 11 ^^^ gmul (gmul a 1) 13 ^^^ gmul (gmul a 1) 9 = 0 ∧
    gmul (gmul a 1) 14 ^^^ gmul (gmul a 3) 11 ^^^ gmul (gmul a 2) 13 ^^^ gmul (gmul a 1) 9 = 0 ∧
    gmul (gmul a 1) 14 ^^^ gmul (gmul a 1) 11 ^^^ gmul (gmul a 3) 13 ^^^ gmul (gmul a 2) 9 = 0 := by decide +kernel

/-- An element of a mixed state, by the elements of its column from its own row on. -/
theorem byteAt_mixWith (a b c d : Byte) (st : List Byte) {i : Nat} (h : i < 16) : byteAt (mixWith a b c d st) i =
    gmul (byteAt st i) a ^^^ gmul (byteAt st (i / 4 * 4 + (i + 1) % 4)) b ^^^ gmul (byteAt st (i / 4 * 4 + (i + 2) % 4)) c ^^^
      gmul (byteAt st (i / 4 * 4 + (i + 3) % 4)) d := by
  rw [mixWith, byteAt_upto_map _ h]
  dsimp only
  rw [show i / 4 * 4 + (i + 0) % 4 = i by omega]

theorem invMixColumns_mixColumns {st : List Byte} (h : st.length = 16) : mixWith 14 11 13 9 (mixWith 2 3 1 1 st) = st := by
  refine ext_byteAt (by simp [h]) fun i hi => ?_
  have hi : i < 16 := h ▸ hi
  have hrow (j k : Nat) : (i / 4 * 4 + (i + j) % 4) / 4 * 4 + (i / 4 * 4 + (i + j) % 4 + k) % 4 = i / 4 * 4 + (i + (j + k)) % 4 := by
    omega
  have hlt (j : Nat) : i / 4 * 4 + (i + j) % 4 < 16 := by omega
  have hwrap (j : Nat) : i / 4 * 4 + (i + (j + 4)) % 4 = i / 4 * 4 + (i + j) % 4 := by omega
  rw [byteAt_mixWith _ _ _ _ _ hi, byteAt_mixWith _ _ _ _ _ hi, byteAt_mixWith _ _ _ _ _ (hlt 1), byteAt_mixWith _ _ _ _ _ (hlt 2),
    byteAt_mixWith _ _ _ _ _ (hlt 3)]
  simp only [hrow]
  rw [hwrap 0, hwrap 1, hwrap 2, show i / 4 * 4 + (i + 0) % 4 = i by omega]
  generalize byteAt st (i / 4 * 4 + (i + 1) % 4) = x1, byteAt st (i / 4 * 4 + (i + 2) % 4) = x2,
    byteAt st (i / 4 * 4 + (i + 3) % 4) = x3, byteAt st i = x0
  obtain ⟨h0, -⟩ := mixColumns_inverse x0
  obtain ⟨-, h1, -⟩ := mixColumns_inverse x1
  obtain ⟨-, -, h2, -⟩ := mixColumns_inverse x2
  obtain ⟨-, -, -, h3⟩ := mixColumns_inverse x3
  simp only [gmul_xor]
  calc _ = (gmul (gmul x0 2) 14 ^^^ gmul (gmul x0 1) 11 ^^^ gmul (gmul x0 1) 13 ^^^ gmul (gmul x0 3) 9) ^^^
      (gmul (gmul x1 3) 14 ^^^ gmul (gmul x1 2) 11 ^^^ gmul (gmul x1 1) 13 ^^^ gmul (gmul x1 1) 9) ^^^
      (gmul (gmul x2 1) 14 ^^^ gmul (gmul x2 3) 11 ^^^ gmul (gmul x2 2) 13 ^^^ gmul (gmul x2 1) 9) ^^^
      (gmul (gmul x3 1) 14 ^^^ gmul (gmul x3 1) 11 ^^^ gmul (gmul x3 3) 13 ^^^ gmul (gmul x3 2) 9) := by ac_rfl
    _ = x0 := by
      rw [h0, h1, h2, h3]
      simp

/-! The key schedule: every round key has 16 bytes. -/

/-- Words of the key schedule: at least 8 of them, each of 4 bytes. -/
def AreKeyWords (ws : List (List Byte)) : Prop := 8 ≤ ws.length ∧ ∀ w ∈ ws, w.length = 4

theorem length_nextKeyWord {ws : List (List Byte)} (h : AreKeyWords ws) (i : Nat) (rcon : Byte) :
    (nextKeyWord i rcon ws).length = 4 := by
  obtain ⟨hlen, hws⟩ := h
  have hprev : (ws.headD []).length = 4 := by
    cases ws with
    | nil => simp at hlen
    | cons w ws => exact hws w List.mem_cons_self
  have hold : (ws.getD 7 []).length = 4 := by
    rw [List.getD_eq_getElem _ _ (by omega)]
    exact hws _ (List.getElem_mem _)
  refine length_xorBytes hold ?_
  generalize ws.headD [] = prev at hprev
  split
  · exact length_xorBytes (by simp; omega) rfl
  · split <;> simp [hprev]

/-- One step of the key schedule: the words so far, latest first, and the round constant. -/
def keyStep (p : List (List Byte) × Byte) (j : Nat) : List (List Byte) × Byte :=
  (nextKeyWord (j + 8) p.2 p.1 :: p.1, if (j + 8) % 8 = 0 then xtime p.2 else p.2)

theorem keyStep_words (l : List Nat) {p : List (List Byte) × Byte} (hp : AreKeyWords p.1) :
    AreKeyWords (l.foldl keyStep p).1 ∧ (l.foldl keyStep p).1.length = p.1.length + l.length := by
  induction l generalizing p with
  | nil => exact ⟨hp, rfl⟩
  | cons j l ih =>
    have hstep : AreKeyWords (keyStep p j).1 :=
      ⟨Nat.le_succ_of_le hp.1, List.forall_mem_cons.mpr ⟨length_nextKeyWord hp _ _, hp.2⟩⟩
    obtain ⟨hwords, hlen⟩ := ih hstep
    refine ⟨hwords, hlen.trans ?_⟩
    simp only [keyStep, List.length_cons]
    omega

theorem keyWords_words {key : List Byte} (h : key.length = 32) :
    (keyWords key).length = 60 ∧ ∀ w ∈ keyWords key, w.length = 4 := by
  have hinit : AreKeyWords ((upto 8).map fun i => (key.drop (4 * i)).take 4).reverse := by
    refine ⟨by simp, fun w hw => ?_⟩
    simp only [List.mem_reverse, List.mem_map, upto, List.mem_range] at hw
    obtain ⟨i, hi, rfl⟩ := hw
    simp
    omega
  obtain ⟨⟨-, hwords⟩, hlen⟩ := keyStep_words (upto 52) (p := (_, 1)) hinit
  exact ⟨hlen.trans (by simp), hwords⟩

theorem length_flatten_of_words {ws : List (List Byte)} (h : ∀ w ∈ ws, w.length = 4) : ws.flatten.length = 4 * ws.length := by
  induction ws with
  | nil => rfl
  | cons w ws ih =>
    obtain ⟨hw, hws⟩ := List.forall_mem_cons.mp h
    rw [List.flatten_cons, List.length_append, hw, ih hws, List.length_cons]
    omega

theorem length_roundKey {key : List Byte} (h : key.length = 32) {r : Nat} (hr : r < 15) :
    ((roundKeys key).getD r []).length = 16 := by
  obtain ⟨hlen, hwords⟩ := keyWords_words h
  have hget : (roundKeys key).getD r [] = (((keyWords key).reverse.drop (4 * r)).take 4).flatten := by
    simp [roundKeys, upto, hr]
  rw [hget, length_flatten_of_words fun w hw => hwords w (List.mem_reverse.mp (List.mem_of_mem_drop (List.mem_of_mem_take hw)))]
  simp only [List.length_take, List.length_drop, List.length_reverse, hlen]
  omega

/-! A block. -/

/-- A round up to its key: SubBytes and ShiftRows. -/
def subShift (st : List Byte) : List Byte := shiftRows (st.map (tabByte sboxNum))

def unsubShift (st : List Byte) : List Byte := (invShiftRows st).map (tabByte invSboxNum)

@[simp] theorem length_subShift (st : List Byte) : (subShift st).length = 16 := length_shiftRows _

theorem unsubShift_subShift {st : List Byte} (h : st.length = 16) : unsubShift (subShift st) = st := by
  rw [unsubShift, subShift, invShiftRows_shiftRows (by simp [h]), List.map_map]
  exact List.map_id'' (fun b => invSbox_sbox b) st

/-- Rounds `E` that `D` undoes one by one, seen through `c`, are undone in reverse order. -/
theorem foldl_undo {α : Type} {P : α → Prop} (c : α → α) (E D : α → Nat → α) (n : Nat) {x : α} (hx : P x)
    (h : ∀ r < n, ∀ y, P y → P (E y r) ∧ D (c (E y r)) (n - 1 - r) = c y) :
    P ((upto n).foldl E x) ∧ (upto n).foldl D (c ((upto n).foldl E x)) = c x := by
  induction n generalizing D with
  | zero => exact ⟨hx, rfl⟩
  | succ n ih =>
    obtain ⟨hp, hd⟩ := ih (fun y r => D y (r + 1)) fun r hr y hy => by
      obtain ⟨hp, hd⟩ := h r (by omega) y hy
      exact ⟨hp, by rw [← hd]; congr 1; omega⟩
    obtain ⟨hlast, hundo⟩ := h n (by omega) _ hp
    have hout : (upto (n + 1)).foldl E x = E ((upto n).foldl E x) n := by simp [upto, List.range_succ]
    have hin (y : α) : (upto (n + 1)).foldl D y = (upto n).foldl (fun y r => D y (r + 1)) (D y 0) := by
      simp [upto, List.range_succ_eq_map, List.foldl_map]
    rw [show n + 1 - 1 - n = 0 by omega] at hundo
    rw [hout]
    exact ⟨hlast, by rw [hin, hundo, hd]⟩

/-- The round of encryption that adds round key `r + 1`. -/
def encRound (rk : List (List Byte)) (st : List Byte) (r : Nat) : List Byte :=
  xorBytes (mixWith 2 3 1 1 (subShift st)) (rk.getD (r + 1) [])

/-- The round of decryption that takes round key `13 - r` off. -/
def decRound (rk : List (List Byte)) (st : List Byte) (r : Nat) : List Byte :=
  mixWith 14 11 13 9 (xorBytes (unsubShift st) (rk.getD (13 - r) []))

theorem aesEnc_eq (rk : List (List Byte)) (blk : List Byte) : aesEnc rk blk =
    xorBytes (subShift ((upto 13).foldl (encRound rk) (xorBytes blk (rk.getD 0 [])))) (rk.getD 14 []) := rfl

theorem aesDec_eq (rk : List (List Byte)) (blk : List Byte) : aesDec rk blk =
    xorBytes (unsubShift ((upto 13).foldl (decRound rk) (xorBytes blk (rk.getD 14 [])))) (rk.getD 0 []) := rfl

theorem length_encRound {rk : List (List Byte)} {r : Nat} (hk : (rk.getD (r + 1) []).length = 16) (st : List Byte) :
    (encRound rk st r).length = 16 := length_xorBytes (length_mixWith _ _ _ _ _) hk

theorem decRound_encRound {rk : List (List Byte)} {r : Nat} (hr : r < 13) (hk : (rk.getD (r + 1) []).length = 16)
    (st : List Byte) : decRound rk (subShift (encRound rk st r)) (12 - r) = subShift st := by
  rw [decRound, unsubShift_subShift (length_encRound hk st), encRound, show 13 - (12 - r) = r + 1 by omega,
    xorBytes_xorBytes (by rw [hk, length_mixWith]), invMixColumns_mixColumns (length_subShift st)]

theorem aesDec_aesEnc {rk : List (List Byte)} (hrk : ∀ r < 15, (rk.getD r []).length = 16) {blk : List Byte}
    (h : blk.length = 16) : (aesEnc rk blk).length = 16 ∧ aesDec rk (aesEnc rk blk) = blk := by
  have hfirst := length_xorBytes h (hrk 0 (by omega))
  obtain ⟨-, hrounds⟩ := foldl_undo (P := fun st => st.length = 16) subShift (encRound rk) (decRound rk) 13 hfirst
    fun r hr st _ => ⟨length_encRound (hrk (r + 1) (by omega)) st, decRound_encRound hr (hrk (r + 1) (by omega)) st⟩
  refine ⟨length_xorBytes (length_subShift _) (hrk 14 (by omega)), ?_⟩
  rw [aesDec_eq, aesEnc_eq, xorBytes_xorBytes (by rw [length_subShift, hrk 14 (by omega)]), hrounds, unsubShift_subShift hfirst,
    xorBytes_xorBytes (by rw [h, hrk 0 (by omega)])]

/-! Lines. -/

theorem xtsBlocks_undo {f g : List Byte → List Byte} (h : ∀ b, b.length = 16 → (f b).length = 16 ∧ g (f b) = b) {n : Nat} (t : Nat)
    {l : List Byte} (hl : l.length = 16 * n) : (xtsBlocks f n t l).length = 16 * n ∧ xtsBlocks g n t (xtsBlocks f n t l) = l := by
  induction n generalizing t l with
  | zero => exact ⟨rfl, (List.length_eq_zero_iff.mp hl).symm⟩
  | succ n ih =>
    have hin : (xorBytes (l.take 16) (leBytes 16 t)).length = 16 := length_xorBytes (by simp; omega) (by simp)
    obtain ⟨hlen, hinv⟩ := h _ hin
    have hout := length_xorBytes hlen (length_leBytes 16 t)
    obtain ⟨hrest, ih⟩ := ih (tweakNext t) (l := l.drop 16) (by simp; omega)
    refine ⟨by simp only [xtsBlocks, List.length_append, hout, hrest]; omega, ?_⟩
    simp only [xtsBlocks]
    rw [List.take_left' hout, List.drop_left' hout, ih, xorBytes_xorBytes (by simp [hlen]), hinv,
      xorBytes_xorBytes (by simp; omega), List.take_append_drop]

theorem toNat_ofNat_of_lt {w n : Nat} (h : n < 2 ^ w) : (BitVec.ofNat w n).toNat = n := by
  rw [BitVec.toNat_ofNat, Nat.mod_eq_of_lt h]

theorem xtsDec_xtsEnc (key : BitVec 512) (tweak : Nat) (line : Line) : xtsDec key tweak (xtsEnc key tweak line) = line := by
  have hrk r (hr : r < 15) := length_roundKey (length_leBytes 32 key.toNat) hr
  obtain ⟨hlen, hinv⟩ := xtsBlocks_undo (fun b hb => aesDec_aesEnc hrk hb) (xtsTweak key tweak) (length_leBytes (16 * 4) line.toNat)
  have hback {l : List Byte} (hl : l.length = 64) : leBytes 64 (BitVec.ofNat 512 (leNat l)).toNat = l := by
    have hlt := leNat_lt l
    rw [hl] at hlt
    rw [toNat_ofNat_of_lt hlt, ← hl, leBytes_leNat]
  rw [xtsDec, xtsEnc, hback hlen, hinv, leNat_leBytes, show 8 * (16 * 4) = 512 from rfl, Nat.mod_eq_of_lt line.isLt,
    BitVec.ofNat_toNat, BitVec.setWidth_eq]

/-- Settles O49: decryption undoes encryption block by block, and since lines are finite in number encryption undoes decryption. -/
theorem xtsInverts : Obligations.XtsInverts := by
  intro key tweak line
  have hleft : Function.LeftInverse (xtsDec key tweak) (xtsEnc key tweak) := xtsDec_xtsEnc key tweak
  have hfinite : Finite Line := Finite.of_injective BitVec.toFin fun a b h => BitVec.eq_of_toFin_eq h
  have hright := hleft.rightInverse_of_surjective (Finite.surjective_of_injective hleft.injective)
  exact ⟨hleft line, hright line⟩

end Sys2Proof.Machine


/-! LOCK (R391, R445): what LOCK must keep is one tuple, the `vault`, and every command but the power cycle keeps it. -/

namespace Sys2Proof.Machine

/-- Whatever state the outcome leaves has the vault of `s`. -/
def State.Keeps (s : State) (o : Host.Outcome State Fault Refusal) : Prop := ∀ t, o = .next t → t.vault = s.vault

namespace State.Keeps

variable {s : State}

theorem next {t : State} (h : t.vault = s.vault) : s.Keeps (.next t) := by
  rintro _ ⟨⟩
  exact h

theorem guarded {p : Prop} [Decidable p] {f : Fault} {o : Host.Outcome State Fault Refusal} (h : s.Keeps o) :
    s.Keeps (if p then .fault f else o) := by
  split
  · rintro _ ⟨⟩
  · exact h

end State.Keeps

/-! The commands of the transport, of metering, of configuration and of the management port in LOCK. -/

theorem State.frame_lock {s : State} (h : s.locked = true) (f : RxFrame) (type : Nat) (isn : Seq24) :
    s.Keeps (s.frame f type isn) := by
  unfold State.frame
  rw [if_pos h]
  exact .guarded (.next rfl)

theorem State.standingAct_lock {s t : State} (h : s.locked = true) : (if s.dataUp || s.standing then t else s).vault = s.vault := by
  rw [State.dataUp_lock h, State.standing_lock h]
  rfl

theorem execHoldover_lock (s : State) : s.Keeps (execHoldover s) := by
  refine .next ?_
  split
  · exact State.record_vault _ _
  · rfl

theorem State.goesOn_lock {s t : State} (h : s.locked = true) (ht : t.vault = s.vault) :
    (if s.dataUp && t.dataUp then s.after t else t).vault = s.vault := by
  rw [State.dataUp_lock h]
  exact ht

theorem State.arp_vault (s : State) (mac : BitVec 48) (ip target : BitVec 32) : (s.arp mac ip target).vault = s.vault := by
  unfold State.arp
  split <;> rfl

theorem State.icmpEcho_vault (s : State) (src dst : BitVec 32) (ident seqNo : BitVec 16) (payload : List Byte) :
    (s.icmpEcho src dst ident seqNo payload).vault = s.vault := by
  unfold State.icmpEcho
  split <;> rfl

/-- A write of a register that LOCK bars. -/
theorem State.csrTrig_barred {s : State} (h : s.locked = true) {a : Nat} (ha : (regAt (BitVec.ofNat 32 a).toNat).map lockWritable = some false)
    (src : CsrSrc) (w : Word) (trig : Bool) (act : State → State) : (s.csrTrig src a w trig act).vault = s.vault :=
  State.csrTrig_lock h _ _ _ _ _ fun hd => barred ha hd

theorem State.csrPut_barred {s : State} (h : s.locked = true) {a : Nat} (ha : (regAt (BitVec.ofNat 32 a).toNat).map lockWritable = some false)
    (src : CsrSrc) (w : Word) (act : State → State) : (s.csrPut src a w act).vault = s.vault :=
  State.csrPut_lock h _ _ _ _ fun hd => barred ha hd

theorem State.csrDo_barred {s : State} (h : s.locked = true) {a : Nat}
    (ha : (regAt (BitVec.ofNat 32 a).toNat).map lockWritable = some false) (src : CsrSrc) (w : Word) (eff : State → State × CsrAns) :
    (s.csrDo (writeReq src a w) eff).vault = s.vault :=
  State.csrDo_lock h _ _ fun hd _ _ => barred ha fun d hr => hd d hr rfl

/-- A write whose effect keeps the vault anyway. -/
theorem State.csrDo_kept {s : State} (h : s.locked = true) (r : CsrReq) {eff : State → State × CsrAns}
    (heff : ∀ u, (eff u).1.vault = u.vault) : (s.csrDo r eff).vault = s.vault :=
  State.csrDo_lock h _ _ fun _ u _ => heff u

theorem State.csrWriteAt_lock_do {s : State} (h : s.locked = true) (src : CsrSrc) (addr : BitVec 32) (w : Word) :
    (s.csrDo ⟨src, true, addr, some w⟩ fun s => s.csrWriteAt addr.toNat w).vault = s.vault :=
  State.csrDo_lock h _ _ fun hd u _ => State.csrWriteAt_lock u _ _ fun d hr => hd d hr rfl

theorem State.testCmd_lock {s : State} (h : s.locked = true) (src : CsrSrc) (w : Word) (op : Nat) :
    (s.testCmd src w op).vault = s.vault := by
  unfold State.testCmd
  split
  · exact State.csrDo_barred h rfl src w _
  · rfl

/-- In LOCK every command but the power cycle keeps the vault: it is barred, does nothing, or leaves those parts alone. -/
theorem exec_keeps_vault {s : State} (h : s.locked = true) (hp : s.sys.start.powered = true) (hk : s.mem.keys = []) {c : Instr}
    (hc : c ≠ .powerCycleOutOfLock) : s.Keeps (exec c s) := by
  cases c
  case data | ack | nak | heartbeat | connect | close | audit => exact State.frame_lock h _ _ _
  case pause => exact .guarded (.next (congrArg State.vault (State.rxPause_lock h _)))
  case sync => exact .guarded (.next (State.sync_vault _ _ _))
  case holdover => exact execHoldover_lock s
  case standaloneAck | sendData | replayTimerExpiry | creditTimeout | auditSend | holdFlush =>
    exact .next (congrArg State.vault (State.linkAct_lock h _ _))
  case heartbeatSend | pathBroken | pathUp => exact .next (State.standingAct_lock h)
  case readShared | readOwn | upgrade | readNoCache | writeNoCache | writeBack | evictClean | fetchAdd | swap | compareSwap | fence
    | snpRsp | snpRspData | fwdToHome | fwdToOrigin | resultRelease | deadNotice | picotReplayTimer | picotIdleUnit
    | picotPathBroken | chanStart | chanstartResend | seqReq | seqGrant | seqBusyResend | replApply | replDone | lendReq
    | lendGrant | remAccess | remAnswer | roleState | roleResend | hoffCopyDone | hoffLost | handoffWindowClose | assignDone
    | mergeEntryClose | patrolRead | scan | heatEpoch | migrationComplete | migAbandon | rekeyDone | tierSequencer | updateStep
    | stepFail | picotGraceExpiry => exact .next (congrArg State.vault (State.act_lock h _))
  case picotFrame | lineReadReturn | chanHalt | segmentStore | segmentFill =>
    exact .guarded (.next (congrArg State.vault (State.act_lock h _)))
  case csrRead => exact .next (State.csrDo_kept h _ fun u => State.csrReadAt_vault u _)
  case csrWrite => exact .next (State.csrWriteAt_lock_do h _ _ _)
  case rwsWrite => exact .next (by split; exacts [State.csrWriteAt_lock_do h _ _ _, rfl])
  case csrTimeout => exact .next (State.csrDo_kept h _ fun u => State.record_vault u _)
  case mgtDatagram => exact .next (State.mgtDatagram_lock h _ _ _)
  case arp => exact .next (State.arp_vault _ _ _ _)
  case icmpEcho => exact .next (State.icmpEcho_vault _ _ _ _ _ _)
  case mgtLink => exact .next (State.mgtLink_vault _)
  case declareDead | hoffGo | hoffAbort | trnAssignAssign | trnAssignReassign | trnAssignRelease | trnInvTenantRange | trnInvTenant
    | trnInvAll | dirBlindClr | load | clearSlot | stbyEnter | stbyExit | captest | capabort | moduleReset | warmReset | commit
    | check | cancel | discard | erase | program | verify | start | revert => exact .next (State.csrTrig_barred h rfl _ _ _ _)
  case eccPflip | dirPflip | cmpPflip | xtsZeroise | freeze | fwuConfirm => exact .next (State.csrPut_barred h rfl _ _ _)
  case trnInvDone | eraseDone => exact .next rfl
  case trnEtDataWrite => exact .next (State.csrDo_barred h rfl _ _ _)
  case cmpTestDecode | cmpTestCompress => exact .next (State.testCmd_lock h _ _ _)
  case cmpTestDone => exact .next (by rw [State.dataUp_lock h]; rfl)
  case mtrCons => exact .next (State.csrDo_kept h _ fun u => State.wrCons_vault u _)
  case trnEtDataRead => exact .next (State.csrDo_kept h _ State.rdEtData_vault)
  case mtrLrdRead => exact .next (State.csrGet_lock h _ _ _ fun u => State.rdLrd_vault u 0)
  case mtrTaccRead => exact .next (State.csrGet_lock h _ _ _ fun u => State.rdTacc_vault u 0)
  case prfDrdRead => exact .next (State.csrGet_lock h _ _ _ fun u => State.rdDrd_vault u 0)
  case ntqPop => exact .next (State.csrGet_lock h _ _ _ State.ntqPop_vault)
  case clear => exact .next (State.csrTrig_lock h _ _ _ _ _ fun _ u _ => State.wrGctl_vault u _)
  case ntqRelease => exact .next (State.csrTrig_lock h _ _ _ _ _ fun _ u _ => State.ntqRelease_vault u _)
  case mark | rewind => exact .next (State.csrTrig_lock h _ _ _ _ _ fun _ u _ => State.ntqCtl_vault u _)
  case memRetireClear => exact .guarded (.next (State.csrTrig_lock h _ _ _ _ _ fun _ _ _ => rfl))
  case memFlipctl => exact .guarded (.next (State.csrPut_lock h _ _ _ _ fun _ _ _ => rfl))
  case prfCtl => exact .guarded (.next (State.csrPut_lock h _ _ _ _ fun _ u _ => State.wrPrfCtl_vault u _ _))
  case causeClear => exact .guarded (.next (State.csrPut_lock h _ _ _ _ fun _ u _ => State.wrFltsts_vault u _))
  case fltfirstClear => exact .guarded (.next (State.csrTrig_lock h _ _ _ _ _ fun _ u _ => State.wrFltfirst_vault u _ _))
  case fltovfClear => exact .guarded (.next (State.csrTrig_lock h _ _ _ _ _ fun _ u _ => State.wrFltovf_vault u _ _))
  case resetA | resetB => exact .guarded (.next (State.csrTrig_lock h _ _ _ _ _ fun _ u _ => State.wrEthCtl_vault u _ _))
  case hostown => exact .guarded (.next (State.csrDo_kept h _ fun u => State.putCageCtl_vault u _ _))
  case cageReset => exact .guarded (.next (by split; exacts [State.csrDo_kept h _ fun u => State.putCageCtl_vault u _ _, rfl]))
  case cmisTransfer => exact .guarded (.next (by split; exacts [State.csrDo_kept h _ fun u => State.putCmis_vault u _ _, rfl]))
  case dimmTempRead => exact .guarded (.next (State.dimmTemp_vault _ _ _))
  case keySlotReload => exact .guarded (.next (congrArg State.vault (State.keyReload_lock hk _ _ _)))
  case alarmWindow => exact .next (State.rollAlarm_vault _)
  case tick => exact .next ((congrArg State.vault (State.tick_lock h)).trans rfl)
  case snapshot => exact .next (congrArg State.vault (State.snapshot_lock h))
  case dump => exact .next (congrArg State.vault (State.dump_lock h))
  case ppsIn => exact .next (State.ppsEdge_vault _ _)
  case ppsOut => exact .next (State.ppsRise_vault _)
  case counterOverflow => exact .guarded (.next (State.takeSample_vault _ _ _ _ _ _))
  case holdoffExpiry => exact .next (State.endHoldoff_vault _ _)
  case feedGood => exact .next (State.feedGood_lock h _ _)
  case feedLow => exact .next (State.feedLow_lock h _ _)
  case feedAbsent => exact .next (State.feedAbsent_lock h _ _)
  case feedOvercurrent => exact .next (State.overcurrent_vault _ _)
  case cutBackRelease => exact .next (State.setCut_vault _ _ _)
  case rtavailUpdate => exact .next (State.rtUpdate_vault _ _ _ _ _ _)
  case rideExpiry => exact .next (congrArg State.vault (State.rideExpiry_lock h _))
  case drainComplete => exact .next (congrArg State.vault (State.drainDone_lock h))
  case returnMs => exact .next (congrArg State.vault (State.returnMs_lock h _))
  case resumeComplete => exact .next (by rw [State.resume_lock h, if_neg (by rw [State.dataUp_lock h]; exact Bool.false_ne_true)])
  case retentionExhausted => exact .next (congrArg State.vault (State.exhausted_lock h))
  case captestDone => exact .next (State.capDone_vault _ _)
  case packTempRead => exact .next (State.packTemp_lock h _ _)
  case gaugePoll => exact .next (State.gaugePoll_lock h _ _)
  case chargeTermination => exact .next (State.chargeEnd_vault _)
  case chargeRestart => exact .next (State.chargeAgain_vault _)
  case packCheck => exact .next (State.packCheck_lock h _ _ _ _ _ _)
  case mcRestart => exact .next (State.mcRestart_vault _ _)
  case mcRestartDone => exact .next (State.mcBack_lock h)
  case rstN => exact .next (State.rstN_lock h _ _)
  case rstNRelease => exact .next (State.rstRelease_lock h)
  case coldStart => exact .next (congrArg State.vault (State.coldStart_lock hp _))
  case poolReady => exact .next (congrArg State.vault (State.poolReady_lock h))
  case pmuRestart => exact .next (State.pmuRestart_vault _)
  case islandFault => exact .next (congrArg State.vault (State.islandFault_lock h))
  case sequencer => exact .guarded (.next (congrArg State.vault (State.sequencerCrash_lock h _)))
  case linkDown => exact .guarded (.next (State.loseLink_vault _ _))
  case linkUp => exact .guarded (.next (congrArg State.vault (State.linkUp_lock h _)))
  case fecDegrade => exact .guarded (.next (by split; exacts [State.fecDegrade_vault _ _ _, rfl]))
  case presence => exact .guarded (.next (congrArg State.vault (State.presence_lock h _ _)))
  case moduleReady => exact .guarded (.next (congrArg State.vault (State.moduleReady_lock h _)))
  case dpActivated => exact .guarded (.next (congrArg State.vault (State.dpActivated_lock h _)))
  case cageTimeout => exact .guarded (.next (congrArg State.vault (State.cageTimeout_lock h _)))
  case cmisPoll => exact .guarded (.next (congrArg State.vault (State.cmisPoll_lock h _ _ _ _ _)))
  case cageOvercurrent => exact .guarded (.next (congrArg State.vault (State.cageOver_lock h _)))
  case presenceLost => exact .guarded (.next (State.presenceLost_vault _ _))
  case cmisTransferDone => exact .guarded (.next (State.cmisDone_vault _ _ _ _))
  case thermalWarn => exact .next (State.thermalWarn_vault _ _)
  case thermalTrip => exact .next (State.thermalTrip_lock h _)
  case smbusBlockRead => exact .next (State.smbusRead_vault _ _)
  case checkDone => exact .next (State.goesOn_lock h (State.checkDone_lock h))
  case groupProgrammed => exact .next (State.goesOn_lock h (State.groupProgrammed_lock h _))
  case commitInstant => exact .next (State.goesOn_lock h (State.commitInstant_lock h))
  case appliedRecord => exact .next (State.appliedRecord_vault _ _)
  case fwuOperationDone => exact .next (State.fwuOpDone_vault _ _)
  case wrq => exact .next (congrArg State.vault (State.wrq_lock h _ _ _ _ _))
  case rrq => exact .next (congrArg State.vault (State.rrq_lock h _ _ _ _))
  case tftpRetransmit => exact .next (congrArg State.vault (State.tftpAgain_lock h))
  case recoveryWritten => exact .next (congrArg State.vault (State.recover_lock h _))
  case powerCycleOutOfLock => exact absurd rfl hc

/-- Settles O59: no command but the power cycle changes the vault, and the vault holds all that the statement names. -/
theorem nothingLeavesLock : Obligations.NothingLeavesLock := by
  intro c s t hlock hpow hkeys hkek hc ht
  have hvault := exec_keeps_vault hlock hpow hkeys hc t ht
  simp only [State.vault, Prod.mk.injEq] at hvault
  obtain ⟨hl, htx, hdram, hk, hkk, hp⟩ := hvault
  exact ⟨hl.trans hlock, hp.trans hpow, hk.trans hkeys, hkk.trans hkek, htx, hdram⟩

end Sys2Proof.Machine


/-! Entering LOCK (R391, R11): the DUE bits are cleared with the keys, and what LOCK wipes is gone. -/

namespace Sys2Proof.Machine

/-- A table filtered by its entries and mapped under its keys holds what the filter keeps of each entry. -/
theorem tget_map_filter {α : Type} {t : Table α} (ht : tsorted t = true) (p : Nat × α → Bool) {f : Nat × α → Nat × α}
    (hf : ∀ e, (f e).1 = e.1) (k : Nat) :
    tget ((t.filter p).map f) k = (tget t k).bind fun v => if p (k, v) then some (f (k, v)).2 else none := by
  induction t with
  | nil => rfl
  | cons e t ih =>
    obtain ⟨j, v⟩ := e
    have habove : tabove j ((t.filter p).map f) := by
      intro x hx
      obtain ⟨y, hy, rfl⟩ := List.mem_map.mp hx
      rw [hf]
      exact tsorted_above ht y (List.mem_of_mem_filter hy)
    have hhead : tget (f (j, v) :: (t.filter p).map f) k =
        if j = k then some (f (j, v)).2 else if k < j then none else tget ((t.filter p).map f) k := by
      rw [show f (j, v) = (j, (f (j, v)).2) from Prod.ext (hf _) rfl]
      rfl
    have hbelow (hk : k ≤ j) : tget ((t.filter p).map f) k = none :=
      tget_below fun x hx => lt_of_le_of_lt hk (habove x hx)
    rcases Nat.lt_trichotomy j k with hjk | rfl | hjk
    · have hrest : tget ((j, v) :: t) k = tget t k := by simp only [tget]; rw [if_neg (by omega), if_neg (by omega)]
      rw [hrest, ← ih (tsorted_tail ht), List.filter_cons]
      split
      · rw [List.map_cons, hhead, if_neg (by omega), if_neg (by omega)]
      · rfl
    · have hself : tget ((j, v) :: t) j = some v := by simp only [tget, if_true]
      rw [hself, List.filter_cons, Option.bind_some]
      split
      · rw [List.map_cons, hhead, if_pos rfl]
      · exact hbelow le_rfl
    · have hnone : tget ((j, v) :: t) k = none := by simp only [tget]; rw [if_neg (by omega), if_pos hjk]
      rw [hnone, List.filter_cons, Option.bind_none]
      split
      · rw [List.map_cons, hhead, if_neg (by omega), if_pos hjk]
      · exact hbelow (by omega)

theorem tget_of_unlisted {α : Type} {t : Table α} {k : Nat} (h : ∀ e ∈ t, e.1 ≠ k) : tget t k = none := by
  induction t with
  | nil => rfl
  | cons e t ih =>
    obtain ⟨he, ht⟩ := List.forall_mem_cons.mp h
    simp only [tget]
    rw [if_neg he, ih ht, ite_self]

theorem zeroDue_key (e : Nat × Word) : (zeroDue e).1 = e.1 := by
  unfold zeroDue
  split <;> rfl

/-- Every register reads as its word with DUE cleared, where its reset value has no DUE set. -/
theorem State.reg_zeroDues {s : State} (hs : s.regsOk = true) {k : Nat} (hk : (zeroDue (k, regReset k)).2 = regReset k) :
    s.zeroDues.reg k = (zeroDue (k, s.reg k)).2 := by
  obtain ⟨hsorted, -⟩ := Bool.and_eq_true_iff.mp hs
  unfold State.reg State.zeroDues sget
  rw [tget_map_filter hsorted _ zeroDue_key]
  cases tget s.regs k with
  | none => simp [hk]
  | some v =>
    by_cases hv : (zeroDue (k, v)).2 = regReset k <;> simp [hv]

theorem zeroDue_away {k : Nat} (hk : k < (F.XTS_TSTATE_DUE 0).key) (v : Word) : zeroDue (k, v) = (k, v) := if_neg (by omega)

theorem zeroDue_tstate {t : Nat} (ht : t < 4096) (v : Word) :
    (zeroDue ((F.XTS_TSTATE_DUE t).key, v)).2 = (F.XTS_TSTATE_DUE t).into v 0 := by
  unfold zeroDue
  rw [if_pos (by simp only [F.XTS_TSTATE_DUE]; omega)]
  rfl

theorem regReset_tstate {t : Nat} (ht : t < 4096) : regReset (F.XTS_TSTATE_DUE t).key = 0 := by
  have hkeys : ∀ e ∈ regResetTab, e.1 < 0x3310000 ∨ 0x3318000 ≤ e.1 := by decide
  have hnone : tget regResetTab (F.XTS_TSTATE_DUE t).key = none :=
    tget_of_unlisted fun e he => by have := hkeys e he; simp only [F.XTS_TSTATE_DUE]; omega
  unfold regReset
  rw [hnone, if_neg (by simp only [F.XTS_TSTATE_DUE]; omega), if_neg (by simp only [F.XTS_TSTATE_DUE]; omega)]
  rfl

theorem State.zeroDues_due {s : State} (hs : s.regsOk = true) {t : Nat} (ht : t < 4096) :
    s.zeroDues.fld (F.XTS_TSTATE_DUE t) = 0 := by
  have hreset : (zeroDue ((F.XTS_TSTATE_DUE t).key, regReset (F.XTS_TSTATE_DUE t).key)).2 = regReset (F.XTS_TSTATE_DUE t).key := by
    rw [zeroDue_tstate ht, regReset_tstate ht]
    exact (by decide : (F.XTS_TSTATE_DUE 0).into 0 0 = 0)
  unfold State.fld
  rw [State.reg_zeroDues hs hreset, zeroDue_tstate ht, Fld.of_into_self _ _ _ (by simp [F.XTS_TSTATE_DUE])]
  exact Nat.zero_mod _

/-- The registers that LOCK leaves, before the DUE bits are cleared. -/
def State.kekGone (s : State) : State := (s.setFld F.XTS_STS_KEKV 0).setFld F.XTS_STS_KEKID 0

theorem State.regsOk_kekGone {s : State} (hs : s.regsOk = true) : s.kekGone.regsOk = true :=
  State.regsOk_setFld (State.regsOk_setFld hs _ _) _ _

theorem State.fld_enterLock (s : State) (f : Fld) : s.enterLock.fld f = s.kekGone.zeroDues.fld f := rfl

theorem State.enterLock_kekv {s : State} (hs : s.regsOk = true) : s.enterLock.fld F.XTS_STS_KEKV = 0 := by
  have hcleared := State.regsOk_setFld hs F.XTS_STS_KEKV 0
  rw [State.fld_enterLock, State.fld, State.reg_zeroDues (State.regsOk_kekGone hs) (by rw [zeroDue_away (by decide)]),
    zeroDue_away (by decide)]
  exact (State.fld_setFld_beside hcleared F.XTS_STS_KEKID F.XTS_STS_KEKV 0 rfl (by decide) (by decide) (by decide)).trans
    (State.fld_setFld_self hs F.XTS_STS_KEKV 0)

/-- Settles O58: entering LOCK empties the stores by its definition, and clears the registers of the KEK and of the DUE bits. -/
theorem lockDestroysKeys : Obligations.LockDestroysKeys := by
  intro s hs
  refine ⟨rfl, rfl, rfl, rfl, State.enterLock_kekv hs, fun t ht => State.zeroDues_due (State.regsOk_kekGone hs) ht, rfl, rfl,
    fun e he => ?replay, fun e he => ?store, fun e he => ?etr, rfl, rfl⟩
  case replay =>
    obtain ⟨c, -, rfl⟩ := List.mem_map.mp he
    rfl
  case store => simpa using (List.mem_filter.mp he).2
  case etr => simpa using (List.mem_filter.mp he).2

end Sys2Proof.Machine


/-! Metering and the performance counters (R395 to R425): what the accesses of their registers and their events do. -/

namespace Sys2Proof.Machine

/-! An access whose command runs the crossbar completes with what its action leaves. -/

section

variable {s t : State} {i : Instr} {src : CsrSrc} {k : Nat} {w : Word}

theorem State.writes_of_put {act : State → State} (hexec : exec i s = .next (s.csrPut src k w act))
    (hact : act (s.stored k w) = t) : s.Writes i src k w t := by
  intro hadm
  rw [hexec, State.csrPut_admits _ hadm, hact]

theorem State.writes_of_trig {trig : Bool} {act : State → State} (hexec : exec i s = .next (s.csrTrig src k w trig act))
    (htrig : trig = true) (hact : act (s.stored k w) = t) : s.Writes i src k w t := by
  intro hadm
  rw [hexec, State.csrTrig_admits _ hadm htrig, hact]

theorem State.writes_of_do {eff : State → State × CsrAns} (hexec : exec i s = .next (s.csrDo (writeReq src k w) eff))
    (heff : eff s.counted = (t, wrote)) : s.Writes i src k w t := by
  intro hadm
  rw [hexec, State.csrDo_admitsWrite _ hadm, heff]

theorem State.reads_of_get {f : State → State × Word} {v : Word} (hexec : exec i s = .next (s.csrGet src k f))
    (hf : f s.counted = (t, v)) : s.Reads i src k t v := by
  intro hadm
  rw [hexec, State.csrGet_admits _ hadm, hf]

end

/-! The registers of metering (R409, R412, R419, R421, R423). -/

theorem State.wrCons_of_between {s : State} {w : Word} (hlo : s.fld F.MTR_CONS ≤ w.toNat) (hhi : w.toNat ≤ s.fld F.MTR_PROD) :
    s.wrCons w = s.setFld F.MTR_CONS w.toNat := if_neg (by omega)

theorem State.rdLrd_of_good {s : State} (hlock : s.locked = false)
    (hgood : s.meter.bad.contains (4096 + s.fld F.MTR_LRD_SEL_INDEX) = false) : s.rdLrd 0 =
      ({ s with meter.latch := sget (fun _ => 0) s.meter.ring (s.fld F.MTR_LRD_SEL_INDEX) },
        recWord (sget (fun _ => 0) s.meter.ring (s.fld F.MTR_LRD_SEL_INDEX)) 0) := by
  simp only [State.rdLrd, hlock, hgood, ne_eq, not_true, Bool.false_eq_true, or_self, if_false]

theorem State.rdTacc_of_tenant {s : State} {m : MtrTen} (hm : tget s.meter.tens (s.fld F.MTR_TSEL_TENANT) = some m) : s.rdTacc 0 =
    ({ s with meter.tacc := BitVec.ofNat 1024 (recordBody s.node.toNat (s.fld F.MTR_TSEL_TENANT) m s.now 0) },
      recWord (BitVec.ofNat 1024 (recordBody s.node.toNat (s.fld F.MTR_TSEL_TENANT) m s.now 0)) 0) := by
  simp only [State.rdTacc, hm, ne_eq, not_true, if_false, Option.getD_some]

theorem State.rdDrd_of_slot {s : State} {l : List Byte} (hlock : s.locked = false)
    (hl : tget s.meter.dumpRing (s.fld F.PRF_DRD_SEL_SLOT) = some l) :
    s.rdDrd 0 = ({ s with meter.dumpLatch := l }, BitVec.ofNat 64 (bytesAt l 0 8)) := by
  simp only [State.rdDrd, hlock, hl, if_true, Bool.false_eq_true, if_false, Option.getD_some]

theorem exec_prfCtl {bank ctr : Nat} (hb : bank < 17) (hc : ctr < 8) (src : CsrSrc) (w : Word) (s : State) :
    exec (.prfCtl src bank ctr w) s = .next (s.csrPut src (F.PRF_CTL bank ctr).key w fun t => t.wrPrfCtl bank ctr) :=
  if_neg (by omega)

theorem State.wrGctl_of_freeze {w : Word} (hw : wbit w 1 = false) (s : State) : s.wrGctl w = s := if_neg (by simp [hw])

theorem State.wrGctl_of_clear {w : Word} (hw : wbit w 1 = true) (s : State) : s.wrGctl w = s.clearCounters := if_pos hw

/-- Settles O4: an admitted access runs its register's function, whose branch the conditions choose. -/
theorem meteringWritesComplete : Obligations.MeteringWritesComplete := by
  rintro s _ src w rfl
  refine ⟨fun hlo hhi => ?cons, ?lrd, ?tacc, ?drd, ?ctl, fun hw => ?freeze, fun hw => ?clear⟩
  case cons => exact State.writes_of_do rfl (congrArg (·, wrote) (State.wrCons_of_between hlo hhi))
  case lrd =>
    rintro _ hlock hgood rfl
    exact State.reads_of_get rfl (State.rdLrd_of_good hlock hgood)
  case tacc =>
    rintro m _ hm rfl
    exact State.reads_of_get rfl (State.rdTacc_of_tenant hm)
  case drd =>
    intro l hlock hl
    exact State.reads_of_get rfl (State.rdDrd_of_slot hlock hl)
  case ctl =>
    rintro bank ctr _ hb hc rfl
    exact State.writes_of_put (exec_prfCtl hb hc src w s) rfl
  case freeze => exact State.writes_of_put rfl (State.wrGctl_of_freeze hw _)
  case clear => exact State.writes_of_trig rfl hw (State.wrGctl_of_clear hw _)

/-! The PTP counter: of all that a tick does, only its own step moves it (R395). -/

theorem State.foldl_now {α : Type} (l : List α) (f : State → α → State) (h : ∀ u a, (f u a).now = u.now) (s : State) :
    (l.foldl f s).now = s.now := by
  induction l generalizing s with
  | nil => rfl
  | cons a l ih => rw [List.foldl_cons, ih, h]

theorem State.meterTenants_now (s : State) : s.meterTenants.now = s.now := by
  have hbegin (u : State) (t : Nat) : (if (tget u.meter.tens t).isNone then u.modTen t id else u).now = u.now := by
    split <;> rfl
  unfold State.meterTenants
  rw [State.foldl_now _ _ hbegin, State.foldl_now]
  intro u t
  split
  · exact hbegin u t
  · rfl

theorem State.writeRecord_now (s : State) (t x : Nat) : (s.writeRecord t x).now = s.now := by
  unfold State.writeRecord
  split
  · rfl
  · rw [State.incFld_now]
    split <;> rfl

theorem State.snapshotAt_now (s : State) (t : Nat) : (s.snapshotAt t).now = s.now := by
  unfold State.snapshotAt
  dsimp only
  split
  · rw [State.setFld_now, State.foldl_now]
    exacts [State.meterTenants_now s, fun _ _ => rfl]
  · have hrest (l m : List Nat) (u : State) : (m.foldl (fun s x => s.modTen x fun m => { m with missed := true })
        (l.foldl (fun s x => s.writeRecord t x) u)).now = u.now := by
      rw [State.foldl_now, State.foldl_now]
      exacts [fun v x => State.writeRecord_now v t x, fun _ _ => rfl]
    split
    · exact (hrest _ _ _).trans (State.meterTenants_now s)
    · rw [State.record_now]
      exact (hrest _ _ _).trans (State.meterTenants_now s)

theorem State.snapshot_now (s : State) : s.snapshot.now = s.now := by
  unfold State.snapshot
  split
  · exact State.snapshotAt_now _ _
  · rfl

theorem State.dump_now (s : State) : s.dump.now = s.now := by
  unfold State.dump
  split <;> rfl

theorem State.prfAdd_now (s : State) (bank ctr n : Nat) : (s.prfAdd bank ctr n).now = s.now := by
  unfold State.prfAdd
  dsimp only
  repeat' split
  all_goals rfl

theorem State.cntParity_now (s : State) : s.cntParity.now = s.now := by
  unfold State.cntParity
  rw [State.foldl_now]
  intro u i
  exact State.record_now _ _

theorem State.prfTick_now (s : State) : s.prfTick.now = s.now := by
  unfold State.prfTick
  dsimp only
  split
  · exact State.cntParity_now s
  · rw [State.foldl_now, State.cntParity_now]
    intro u bank
    rw [State.foldl_now, State.addFld_now]
    intro v i
    split
    · rfl
    · exact State.prfAdd_now _ _ _ _

theorem State.cycleTick_now (s : State) : s.cycleTick.now = s.now := by
  unfold State.cycleTick
  dsimp only
  split
  · rfl
  · dsimp only
    rw [State.foldl_now]
    exacts [State.prfTick_now s, fun _ _ => rfl]

theorem State.reloadTens_now (s : State) : s.reloadTens.now = s.now := by
  unfold State.reloadTens
  rw [State.foldl_now]
  intro u t
  rw [State.record_now]
  dsimp only
  split
  · exact State.record_now _ _
  · rfl

theorem State.meterPage_now (s : State) (pk : Nat) (d : BitVec 256) : (s.meterPage pk d).now = s.now := by
  unfold State.meterPage
  split <;> rfl

theorem State.tick_now (s : State) : s.tick.now = s.nextTick := by
  have hedge : s.snapshot.dump.nextTick = s.nextTick := by
    unfold State.nextTick
    rw [State.dump_now, State.snapshot_now]
  have hcycle : ({ s.snapshot.dump with now := s.nextTick } : State).cycleTick.now = s.nextTick := State.cycleTick_now _
  unfold State.tick
  dsimp only
  rw [hedge]
  generalize ({ s.snapshot.dump with now := s.nextTick } : State).cycleTick = u at hcycle ⊢
  split
  · exact hcycle
  · split
    · refine (State.foldl_now _ _ (fun v (e : Nat × BitVec 256) => State.meterPage_now v e.1 e.2) _).trans ?_
      rw [State.meterTenants_now, State.reloadTens_now]
      exact hcycle
    · exact hcycle

/-! PPS and samples (R399, R420). -/

theorem State.ppsEdge_of_far {s : State} {width : Nat} (hen : s.bit F.MTR_PTPCFG_PPSIN = true) (hw : 100 ≤ width)
    (hfar : ∀ t, s.sys.ptp.ppsIn = some t → t + 500000000 ≤ s.now) : s.ppsEdge width =
      { s with sys.ptp.ppsIn := some s.now }.setReg F.MTR_PPSIN.key (BitVec.ofNat 64 s.now) := by
  refine if_neg ?_
  cases hin : s.sys.ptp.ppsIn with
  | none => simp [hen, hw]
  | some t => simp [hen, hw, hfar t hin]

theorem exec_counterOverflow {bank ctr : Nat} (hb : bank < 17) (hc : ctr < 8) (txid : Txid) (tenant : TenantId) (tv : Bool)
    (s : State) : exec (.counterOverflow bank ctr txid tenant tv) s = .next (s.takeSample bank ctr txid tenant tv) :=
  if_neg (by omega)

/-- Settles O28: a tick moves the counter to its edge and nothing else does, and each event runs its state function, whose guard
the state passes. -/
theorem meteringEventsComplete : Obligations.MeteringEventsComplete := by
  intro s u
  refine ⟨⟨s.tick, rfl, State.tick_now s⟩, fun hdue => congrArg Host.Outcome.next (if_pos hdue), ?dump, ?ppsIn, fun hen hsec => ?ppsOut,
    ?sample⟩
  case dump =>
    rintro _ _ hdue rfl rfl rfl
    exact congrArg Host.Outcome.next (if_pos hdue)
  case ppsIn =>
    intro width hen hw hfar
    exact congrArg Host.Outcome.next (State.ppsEdge_of_far hen hw hfar)
  case ppsOut => exact congrArg Host.Outcome.next (if_pos ⟨hen, hsec⟩)
  case sample =>
    rintro bank ctr txid tenant tv hb hc hpending rfl
    rw [exec_counterOverflow hb hc]
    exact congrArg Host.Outcome.next (if_neg (by rw [hpending]; exact Bool.false_ne_true))

end Sys2Proof.Machine


/-! Fault registers (R427, R428): what each of a block's three registers holds once an occurrence is recorded, and which of the
occurrences of one cycle is latched as first. -/

namespace Sys2Proof.Machine

/-! What a chain of stores leaves in one register. -/

namespace State.Holds

variable {t : State} {k : Nat} {v : Word}

theorem refl {s : State} (hs : s.regsOk = true) (k : Nat) : s.Holds k (s.reg k) := ⟨hs, rfl⟩

theorem setReg_self (h : t.Holds k v) (x : Word) : (t.setReg k x).Holds k x :=
  ⟨State.regsOk_setReg h.1 k x, State.reg_setReg_self h.1 k x⟩

theorem setFld_self {f : Fld} (h : t.Holds f.key v) (x : Nat) : (t.setFld f x).Holds f.key (f.into v x) := by
  obtain ⟨hok, rfl⟩ := h
  exact setReg_self ⟨hok, rfl⟩ _

theorem satFld_self {f : Fld} (h : t.Holds f.key v) (n : Nat) :
    (t.satFld f n).Holds f.key (f.into v (min (f.of v + n) (2 ^ f.w - 1))) := by
  obtain ⟨hok, rfl⟩ := h
  exact setFld_self ⟨hok, rfl⟩ _

theorem fld {f : Fld} (h : t.Holds f.key v) : t.fld f = f.of v := congrArg f.of h.2

end State.Holds

theorem State.bit_of_fld {s : State} {f : Fld} (h : s.fld f = 1) : s.bit f = true := by
  rw [State.bit, h]
  rfl

/-! One occurrence (R427). -/

/-- FLTFIRST once an occurrence is latched in it. -/
def firstWord (b : Nat) (v : Word) (o : Occ) (now : Nat) : Word :=
  (F.BLK_FLTFIRST_TIME b).into ((F.BLK_FLTFIRST_TXID b).into ((F.BLK_FLTFIRST_CODE b).into ((F.BLK_FLTFIRST_SEV b).into
    ((F.BLK_FLTFIRST_V b).into v 1) o.sev) o.code) o.txid) (now / 1024)

/-- FLTOVF once an occurrence is counted in it. -/
def countWord (b : Nat) (v : Word) : Word :=
  (F.BLK_FLTOVF_COUNT b).into ((F.BLK_FLTOVF_OVF b).into v 1)
    (min ((F.BLK_FLTOVF_COUNT b).of ((F.BLK_FLTOVF_OVF b).into v 1) + 1) (2 ^ 16 - 1))

/-- FLTOVF once MAXSEV covers an occurrence. -/
def maxWord (b : Nat) (v : Word) (sev : Nat) : Word := (F.BLK_FLTOVF_MAXSEV b).into v (max ((F.BLK_FLTOVF_MAXSEV b).of v) sev)

theorem firstWord_fields (b : Nat) (v : Word) {o : Occ} (hcode : o.code < 64) (now : Nat) :
    (F.BLK_FLTFIRST_V b).of (firstWord b v o now) = 1 ∧ (F.BLK_FLTFIRST_SEV b).of (firstWord b v o now) = o.sev % 8 ∧
    (F.BLK_FLTFIRST_CODE b).of (firstWord b v o now) = o.code ∧
    (F.BLK_FLTFIRST_TXID b).of (firstWord b v o now) = o.txid % 65536 ∧
    (F.BLK_FLTFIRST_TIME b).of (firstWord b v o now) = now / 1024 % 2 ^ 36 := by
  have hcode8 : o.code % 2 ^ 8 = o.code := Nat.mod_eq_of_lt (by omega)
  simp only [firstWord, F.BLK_FLTFIRST_V, F.BLK_FLTFIRST_SEV, F.BLK_FLTFIRST_CODE, F.BLK_FLTFIRST_TXID, F.BLK_FLTFIRST_TIME]
  simp (disch := dsimp only; decide) only [Fld.of_into_self, Fld.of_into_ne]
  exact ⟨rfl, rfl, hcode8, rfl, trivial⟩

theorem countWord_fields (b : Nat) (v : Word) : (F.BLK_FLTOVF_OVF b).of (countWord b v) = 1 ∧
    (F.BLK_FLTOVF_COUNT b).of (countWord b v) = min ((F.BLK_FLTOVF_COUNT b).of v + 1) 65535 ∧
    (F.BLK_FLTOVF_MAXSEV b).of (countWord b v) = (F.BLK_FLTOVF_MAXSEV b).of v := by
  simp only [countWord, F.BLK_FLTOVF_OVF, F.BLK_FLTOVF_COUNT, F.BLK_FLTOVF_MAXSEV]
  simp (disch := dsimp only; decide) only [Fld.of_into_self, Fld.of_into_ne]
  refine ⟨rfl, Nat.mod_eq_of_lt ?_, trivial⟩
  change _ < 65536
  omega

theorem maxWord_fields (b : Nat) (v : Word) (sev : Nat) : (F.BLK_FLTOVF_OVF b).of (maxWord b v sev) = (F.BLK_FLTOVF_OVF b).of v ∧
    (F.BLK_FLTOVF_COUNT b).of (maxWord b v sev) = (F.BLK_FLTOVF_COUNT b).of v ∧
    (F.BLK_FLTOVF_MAXSEV b).of (maxWord b v sev) = max ((F.BLK_FLTOVF_MAXSEV b).of v) sev % 8 := by
  simp only [maxWord, F.BLK_FLTOVF_OVF, F.BLK_FLTOVF_COUNT, F.BLK_FLTOVF_MAXSEV]
  simp (disch := dsimp only; decide) only [Fld.of_into_self, Fld.of_into_ne]
  exact ⟨trivial, trivial, rfl⟩

section

variable {s : State} {o : Occ} {b : Nat}

/-- The state once CAUSE has its bit. -/
def State.caused (s : State) (o : Occ) (b : Nat) : State := s.setReg (b + 0xf00) (s.reg (b + 0xf00) ||| (1 : Word) <<< o.code)

/-- The state once an occurrence that meets V 0 is latched. -/
def State.latched (s : State) (o : Occ) (b : Nat) : State :=
  ((((s.setFld (F.BLK_FLTFIRST_V b) 1).setFld (F.BLK_FLTFIRST_SEV b) o.sev).setFld (F.BLK_FLTFIRST_CODE b) o.code).setFld
    (F.BLK_FLTFIRST_TXID b) o.txid).setFld (F.BLK_FLTFIRST_TIME b) (s.now / 1024)

/-- The state once an occurrence that meets V 1 is counted. -/
def State.counting (s : State) (b : Nat) : State := (s.setFld (F.BLK_FLTOVF_OVF b) 1).satFld (F.BLK_FLTOVF_COUNT b) 1

/-- The state once MAXSEV covers an occurrence. -/
def State.covered (s : State) (o : Occ) (b : Nat) : State :=
  s.setFld (F.BLK_FLTOVF_MAXSEV b) (max (s.fld (F.BLK_FLTOVF_MAXSEV b)) o.sev)

@[simp] theorem State.caused_now (s : State) (o : Occ) (b : Nat) : (s.caused o b).now = s.now := State.setReg_now _ _ _

theorem State.bit_caused (hs : s.regsOk = true) (o : Occ) (b : Nat) :
    (s.caused o b).bit (F.BLK_FLTFIRST_V b) = s.bit (F.BLK_FLTFIRST_V b) :=
  congrArg (· != 0) (State.fld_setReg_away hs (F.BLK_FLTFIRST_V b) _ _ (by simp [F.BLK_FLTFIRST_V]))

theorem State.recordRegs_of_free (hs : s.regsOk = true) (hb : b = o.block * 0x10000) (hv : s.bit (F.BLK_FLTFIRST_V b) = false) :
    (s.recordRegs o).2 = ((s.caused o b).latched o b).covered o b := by
  subst hb
  have hv := (State.bit_caused hs o (o.block * 0x10000)).trans hv
  exact congrArg (State.covered · o (o.block * 0x10000)) (if_pos (congrArg (!·) hv))

theorem State.recordRegs_of_latched (hs : s.regsOk = true) (hb : b = o.block * 0x10000) (hv : s.bit (F.BLK_FLTFIRST_V b) = true) :
    (s.recordRegs o).2 = ((s.caused o b).counting b).covered o b := by
  subst hb
  have hv := (State.bit_caused hs o (o.block * 0x10000)).trans hv
  exact congrArg (State.covered · o (o.block * 0x10000)) (if_neg (by simpa [State.caused] using hv))

namespace State.Holds

variable {t : State} {k : Nat} {v : Word}

theorem caused_self (h : t.Holds (b + 0xf00) v) (o : Occ) : (t.caused o b).Holds (b + 0xf00) (v ||| (1 : Word) <<< o.code) := by
  obtain ⟨hok, rfl⟩ := h
  exact (refl hok _).setReg_self _

theorem caused (h : t.Holds k v) (hk : k ≠ b + 0xf00) (o : Occ) : (t.caused o b).Holds k v := h.setReg hk _

theorem latched_self (h : t.Holds (b + 0xf08) v) (o : Occ) : (t.latched o b).Holds (b + 0xf08) (firstWord b v o t.now) :=
  setFld_self (f := F.BLK_FLTFIRST_TIME b) (setFld_self (f := F.BLK_FLTFIRST_TXID b) (setFld_self (f := F.BLK_FLTFIRST_CODE b)
    (setFld_self (f := F.BLK_FLTFIRST_SEV b) (setFld_self (f := F.BLK_FLTFIRST_V b) h 1) o.sev) o.code) o.txid) (t.now / 1024)

theorem latched (h : t.Holds k v) (hk : k ≠ b + 0xf08) (o : Occ) : (t.latched o b).Holds k v := by
  unfold State.latched
  iterate 5 refine setFld ?_ _ hk _
  exact h

theorem counting_self (h : t.Holds (b + 0xf10) v) : (t.counting b).Holds (b + 0xf10) (countWord b v) :=
  satFld_self (f := F.BLK_FLTOVF_COUNT b) (setFld_self (f := F.BLK_FLTOVF_OVF b) h 1) 1

theorem counting (h : t.Holds k v) (hk : k ≠ b + 0xf10) : (t.counting b).Holds k v := (h.setFld _ hk 1).setFld _ hk _

theorem covered_self (h : t.Holds (b + 0xf10) v) (o : Occ) : (t.covered o b).Holds (b + 0xf10) (maxWord b v o.sev) := by
  obtain ⟨hok, rfl⟩ := h
  exact setFld_self (f := F.BLK_FLTOVF_MAXSEV b) ⟨hok, rfl⟩ _

theorem covered (h : t.Holds k v) (hk : k ≠ b + 0xf10) (o : Occ) : (t.covered o b).Holds k v := h.setFld _ hk _

end State.Holds

/-- CAUSE once an occurrence is recorded. -/
theorem State.recordRegs_cause (hs : s.regsOk = true) (hb : b = o.block * 0x10000) :
    (s.recordRegs o).2.Holds (b + 0xf00) (s.reg (b + 0xf00) ||| (1 : Word) <<< o.code) := by
  have hc := (State.Holds.refl hs (b + 0xf00)).caused_self o
  cases hv : s.bit (F.BLK_FLTFIRST_V b) with
  | false =>
    rw [State.recordRegs_of_free hs hb hv]
    exact (hc.latched (by omega) o).covered (by omega) o
  | true =>
    rw [State.recordRegs_of_latched hs hb hv]
    exact (hc.counting (by omega)).covered (by omega) o

theorem State.recordRegs_first_of_free (hs : s.regsOk = true) (hb : b = o.block * 0x10000)
    (hv : s.bit (F.BLK_FLTFIRST_V b) = false) :
    (s.recordRegs o).2.Holds (b + 0xf08) (firstWord b (s.reg (b + 0xf08)) o s.now) := by
  rw [State.recordRegs_of_free hs hb hv]
  have hc : (s.caused o b).Holds (b + 0xf08) (s.reg (b + 0xf08)) := (State.Holds.refl hs _).caused (by omega) o
  have hl := hc.latched_self o
  rw [State.caused_now] at hl
  exact hl.covered (by omega) o

theorem State.recordRegs_ovf_of_free (hs : s.regsOk = true) (hb : b = o.block * 0x10000)
    (hv : s.bit (F.BLK_FLTFIRST_V b) = false) :
    (s.recordRegs o).2.Holds (b + 0xf10) (maxWord b (s.reg (b + 0xf10)) o.sev) := by
  rw [State.recordRegs_of_free hs hb hv]
  exact (((State.Holds.refl hs (b + 0xf10)).caused (by omega) o).latched (by omega) o).covered_self o

theorem State.recordRegs_first_of_latched (hs : s.regsOk = true) (hb : b = o.block * 0x10000)
    (hv : s.bit (F.BLK_FLTFIRST_V b) = true) : (s.recordRegs o).2.Holds (b + 0xf08) (s.reg (b + 0xf08)) := by
  rw [State.recordRegs_of_latched hs hb hv]
  exact (((State.Holds.refl hs (b + 0xf08)).caused (by omega) o).counting (by omega)).covered (by omega) o

theorem State.recordRegs_ovf_of_latched (hs : s.regsOk = true) (hb : b = o.block * 0x10000)
    (hv : s.bit (F.BLK_FLTFIRST_V b) = true) :
    (s.recordRegs o).2.Holds (b + 0xf10) (maxWord b (countWord b (s.reg (b + 0xf10))) o.sev) := by
  rw [State.recordRegs_of_latched hs hb hv]
  exact (((State.Holds.refl hs (b + 0xf10)).caused (by omega) o).counting_self).covered_self o

/-- Every other register is left. -/
theorem State.Holds.recordRegs_away {t : State} {k : Nat} {v : Word} (h : t.Holds k v) (hb : b = o.block * 0x10000)
    (hk : k ∉ [b + 0xf00, b + 0xf08, b + 0xf10]) : (t.recordRegs o).2.Holds k v := by
  simp only [List.mem_cons, List.not_mem_nil, or_false, not_or] at hk
  obtain ⟨h0, h8, h10⟩ := hk
  have hc := h.caused h0 o
  cases hv : t.bit (F.BLK_FLTFIRST_V b) with
  | false =>
    rw [State.recordRegs_of_free h.1 hb hv]
    exact (hc.latched h8 o).covered h10 o
  | true =>
    rw [State.recordRegs_of_latched h.1 hb hv]
    exact (hc.counting h10).covered h10 o

theorem State.recordRegs_only_regs (s : State) (o : Occ) : (s.recordRegs o).2 = { s with regs := (s.recordRegs o).2.regs } := by
  obtain ⟨r, h⟩ := s.recordRegs_frame o
  rw [h]

theorem State.wrFltsts_maxsev (hs : s.regsOk = true) (block : Nat) : (s.wrFltsts block).fld (F.BLK_FLTOVF_MAXSEV (block * 0x10000)) =
    if s.reg (block * 0x10000 + 0xf00) = 0 then 0 else s.fld (F.BLK_FLTOVF_MAXSEV (block * 0x10000)) := by
  rw [State.wrFltsts_eq]
  split
  · exact State.fld_setFld_self hs (F.BLK_FLTOVF_MAXSEV (block * 0x10000)) 0 (by simp [F.BLK_FLTOVF_MAXSEV])
  · rfl

end

/-- Settles O52: the three registers of the block hold the words that the occurrence makes of them, and nothing else changes. -/
theorem occurrencesAreRecorded : Obligations.OccurrencesAreRecorded := by
  rintro s _ o b hs hcode hb rfl
  obtain ⟨-, hcause⟩ := State.recordRegs_cause hs hb
  refine ⟨hcause, fun hv => ?free, fun hv => ?latched, ?maxsev, fun k hk => (State.Holds.recordRegs_away ⟨hs, rfl⟩ hb hk).2,
    State.recordRegs_only_regs s o, hb ▸ State.wrFltsts_maxsev hs o.block⟩
  case free =>
    have hfirst := State.recordRegs_first_of_free hs hb hv
    have hovf := State.recordRegs_ovf_of_free hs hb hv
    obtain ⟨hV, hsev, hcode, htxid, htime⟩ := firstWord_fields b (s.reg (b + 0xf08)) hcode s.now
    obtain ⟨hOVF, hcount, -⟩ := maxWord_fields b (s.reg (b + 0xf10)) o.sev
    exact ⟨State.bit_of_fld ((hfirst.fld (f := F.BLK_FLTFIRST_V b)).trans hV), (hfirst.fld (f := F.BLK_FLTFIRST_SEV b)).trans hsev,
      (hfirst.fld (f := F.BLK_FLTFIRST_CODE b)).trans hcode, (hfirst.fld (f := F.BLK_FLTFIRST_TXID b)).trans htxid,
      (hfirst.fld (f := F.BLK_FLTFIRST_TIME b)).trans htime,
      congrArg (· != 0) ((hovf.fld (f := F.BLK_FLTOVF_OVF b)).trans hOVF), (hovf.fld (f := F.BLK_FLTOVF_COUNT b)).trans hcount⟩
  case latched =>
    obtain ⟨-, hfirst⟩ := State.recordRegs_first_of_latched hs hb hv
    have hovf := State.recordRegs_ovf_of_latched hs hb hv
    obtain ⟨hOVF, hcount, -⟩ := maxWord_fields b (countWord b (s.reg (b + 0xf10))) o.sev
    obtain ⟨hOVF1, hcount1, -⟩ := countWord_fields b (s.reg (b + 0xf10))
    exact ⟨hfirst, State.bit_of_fld ((hovf.fld (f := F.BLK_FLTOVF_OVF b)).trans (hOVF.trans hOVF1)),
      (hovf.fld (f := F.BLK_FLTOVF_COUNT b)).trans (hcount.trans hcount1)⟩
  case maxsev =>
    cases hv : s.bit (F.BLK_FLTFIRST_V b) with
    | false =>
      obtain ⟨-, -, hmax⟩ := maxWord_fields b (s.reg (b + 0xf10)) o.sev
      exact ((State.recordRegs_ovf_of_free hs hb hv).fld (f := F.BLK_FLTOVF_MAXSEV b)).trans hmax
    | true =>
      obtain ⟨-, -, hmax⟩ := maxWord_fields b (countWord b (s.reg (b + 0xf10))) o.sev
      obtain ⟨-, -, hkeep⟩ := countWord_fields b (s.reg (b + 0xf10))
      rw [hkeep] at hmax
      exact ((State.recordRegs_ovf_of_latched hs hb hv).fld (f := F.BLK_FLTOVF_MAXSEV b)).trans hmax

/-! The occurrences of one cycle (R428). -/

/-- Posting a notice leaves every register outside the block of the notice queue. -/
theorem State.Holds.postNotice_away {t : State} {k : Nat} {v : Word} (h : t.Holds k v) (hk : k / 0x10000 ≠ bNTQ) (n : Notice) :
    (t.postNotice n).Holds k v := by
  have hsts : k ≠ F.NTQ_STS_OVERRUN.key := by rintro rfl; exact hk rfl
  have hlost : k ≠ F.NTQ_LOST_LOST.key := by rintro rfl; exact hk rfl
  have hfault : k ∉ [bNTQ * 0x10000 + 0xf00, bNTQ * 0x10000 + 0xf08, bNTQ * 0x10000 + 0xf10] := by
    simp only [List.mem_cons, List.not_mem_nil, or_false]
    omega
  unfold State.postNotice
  split
  · exact h.of_regs rfl
  · exact (((h.setFld _ hsts 1).setFld _ hlost _).recordRegs_away (o := occ bNTQ Cause.ntq_OVERRUN) rfl hfault).of_regs rfl

theorem State.Holds.endHoldoff_away {t : State} {k : Nat} {v : Word} (h : t.Holds k v) (hk : k / 0x10000 ≠ bNTQ) (key : Nat) :
    (t.endHoldoff key).Holds k v := by
  unfold State.endHoldoff
  split
  · exact h
  · split
    · exact h
    · dsimp only
      split
      · exact h.of_regs rfl
      · exact (h.of_regs (u := { t with ntq.holdoffs := tdel t.ntq.holdoffs key }) rfl).postNotice_away hk _

theorem State.Holds.postOcc_away {t : State} {k : Nat} {v : Word} (h : t.Holds k v) (hk : k / 0x10000 ≠ bNTQ) (n : Notice) :
    (t.postOcc n).Holds k v := by
  have hend := h.endHoldoff_away hk (pairKey n.block n.code)
  unfold State.postOcc
  dsimp only
  split
  · split
    · exact hend.of_regs rfl
    · exact hend.postNotice_away hk n
  · exact hend.postNotice_away hk n

section

variable {s : State} {o : Occ} {b : Nat}

/-- Outside the block of the notice queue, an occurrence leaves in the registers what recording it there leaves. -/
theorem State.record_holds {k : Nat} {v : Word} (h : (s.recordRegs o).2.Holds k v) (hk : k / 0x10000 ≠ bNTQ) : (s.record o).Holds k v :=
  h.postOcc_away hk _

/-- FLTFIRST holds `first`, and FLTOVF counts `n` occurrences, with OVF where there is one. -/
def State.Shows (s : State) (b : Nat) (first : Word) (n : Nat) : Prop :=
  s.Holds (b + 0xf08) first ∧ s.fld (F.BLK_FLTOVF_COUNT b) = n

/-- The first occurrence of a cycle that meets V 0 is latched, and not counted. -/
theorem State.record_of_free (hs : s.regsOk = true) (hb : b = o.block * 0x10000) (hntq : b ≠ bNTQ * 0x10000)
    (hv : s.bit (F.BLK_FLTFIRST_V b) = false) :
    (s.record o).Shows b (firstWord b (s.reg (b + 0xf08)) o s.now) (s.fld (F.BLK_FLTOVF_COUNT b)) := by
  obtain ⟨-, hcount, -⟩ := maxWord_fields b (s.reg (b + 0xf10)) o.sev
  exact ⟨State.record_holds (State.recordRegs_first_of_free hs hb hv) (by omega),
    ((State.record_holds (State.recordRegs_ovf_of_free hs hb hv) (by omega)).fld (f := F.BLK_FLTOVF_COUNT b)).trans hcount⟩

/-- Every later one is counted under OVF, up to the greatest count. -/
theorem State.record_of_latched {first : Word} {n : Nat} (h : s.Shows b first n) (hb : b = o.block * 0x10000)
    (hntq : b ≠ bNTQ * 0x10000) (hv : (F.BLK_FLTFIRST_V b).of first = 1) :
    (s.record o).Shows b first (min (n + 1) 65535) ∧ (s.record o).bit (F.BLK_FLTOVF_OVF b) = true := by
  obtain ⟨⟨hs, rfl⟩, rfl⟩ := h
  have hv : s.bit (F.BLK_FLTFIRST_V b) = true := State.bit_of_fld hv
  have hovf := State.record_holds (State.recordRegs_ovf_of_latched hs hb hv) (by omega)
  obtain ⟨hOVF, hcount, -⟩ := maxWord_fields b (countWord b (s.reg (b + 0xf10))) o.sev
  obtain ⟨hOVF1, hcount1, -⟩ := countWord_fields b (s.reg (b + 0xf10))
  exact ⟨⟨State.record_holds (State.recordRegs_first_of_latched hs hb hv) (by omega),
    (hovf.fld (f := F.BLK_FLTOVF_COUNT b)).trans (hcount.trans hcount1)⟩,
    State.bit_of_fld ((hovf.fld (f := F.BLK_FLTOVF_OVF b)).trans (hOVF.trans hOVF1))⟩

/-- Occurrences that all meet V 1 are all counted. -/
theorem State.foldl_record_of_latched {first : Word} {n : Nat} {l : List Occ} (h : s.Shows b first n) (hn : n ≤ 65535) (hl : l ≠ [])
    (hb : ∀ o ∈ l, o.block * 0x10000 = b) (hntq : b ≠ bNTQ * 0x10000) (hv : (F.BLK_FLTFIRST_V b).of first = 1) :
    (l.foldl State.record s).Shows b first (min (n + l.length) 65535) ∧
      (l.foldl State.record s).bit (F.BLK_FLTOVF_OVF b) = true := by
  induction l generalizing s n with
  | nil => exact absurd rfl hl
  | cons o l ih =>
    obtain ⟨hbo, hbl⟩ := List.forall_mem_cons.mp hb
    obtain ⟨hstep, hovf⟩ := State.record_of_latched h hbo.symm hntq hv
    rw [List.foldl_cons]
    rcases List.eq_nil_or_concat' l with rfl | ⟨_, _, hne⟩
    · exact ⟨hstep, hovf⟩
    · obtain ⟨hshows, hovf⟩ := ih hstep (by omega) (by simp [hne]) hbl
      rw [show min (min (n + 1) 65535 + l.length) 65535 = min (n + (l.length + 1)) 65535 by omega] at hshows
      exact ⟨hshows, hovf⟩

end

/-! The order of recording: an insertion sort. -/

theorem occBefore_iff {a b : Occ} : occBefore a b = true ↔ b.sev < a.sev ∨ (a.sev = b.sev ∧ a.code ≤ b.code) := by
  simp [occBefore]

theorem insertOcc_perm (o : Occ) (l : List Occ) : (insertOcc o l).Perm (o :: l) := by
  induction l with
  | nil => exact .refl _
  | cons p l ih =>
    unfold insertOcc
    split
    · exact .refl _
    · exact (ih.cons p).trans (.swap o p l)

theorem insertOcc_sorted (o : Occ) {l : List Occ} (h : l.Pairwise fun a b => occBefore a b = true) :
    (insertOcc o l).Pairwise fun a b => occBefore a b = true := by
  induction l with
  | nil => exact List.pairwise_singleton _ _
  | cons p l ih =>
    obtain ⟨hp, hl⟩ := List.pairwise_cons.mp h
    unfold insertOcc
    split
    case isTrue hop =>
      refine List.pairwise_cons.mpr ⟨List.forall_mem_cons.mpr ⟨hop, fun q hq => ?_⟩, h⟩
      have hpq := hp q hq
      rw [occBefore_iff] at hop hpq ⊢
      omega
    case isFalse hop =>
      refine List.pairwise_cons.mpr ⟨fun q hq => ?_, ih hl⟩
      rcases List.mem_cons.mp ((insertOcc_perm o l).mem_iff.mp hq) with rfl | hq
      · rw [occBefore_iff] at hop ⊢
        omega
      · exact hp q hq

/-- The occurrences of one cycle in the order in which they are recorded. -/
def cycleOrder (l : List Occ) : List Occ := l.foldl (fun a o => insertOcc o a) []

theorem foldl_insertOcc (l a : List Occ) (ha : a.Pairwise fun a b => occBefore a b = true) :
    (l.foldl (fun a o => insertOcc o a) a).Perm (l ++ a) ∧
      (l.foldl (fun a o => insertOcc o a) a).Pairwise fun a b => occBefore a b = true := by
  induction l generalizing a with
  | nil => exact ⟨.refl _, ha⟩
  | cons o l ih =>
    obtain ⟨hperm, hsorted⟩ := ih (insertOcc o a) (insertOcc_sorted o ha)
    exact ⟨hperm.trans (((insertOcc_perm o a).append_left l).trans List.perm_middle), hsorted⟩

theorem cycleOrder_perm (l : List Occ) : (cycleOrder l).Perm l := by
  have h := (foldl_insertOcc l [] List.Pairwise.nil).1
  rwa [List.append_nil] at h

theorem cycleOrder_sorted (l : List Occ) : (cycleOrder l).Pairwise fun a b => occBefore a b = true :=
  (foldl_insertOcc l [] List.Pairwise.nil).2

/-- Settles O53: the first in the order of recording comes before all others and is latched, and each of the others is counted. -/
theorem firstOfOneCycle : Obligations.FirstOfOneCycle := by
  rintro s _ l b hs hlen hl hntq hv rfl
  have hperm := cycleOrder_perm l
  have hsorted := cycleOrder_sorted l
  have hrec : s.recordAll l = (cycleOrder l).foldl State.record s := rfl
  have hlength := hperm.length_eq
  have hmem (p : Occ) : p ∈ cycleOrder l ↔ p ∈ l := hperm.mem_iff
  rw [hrec]
  generalize cycleOrder l = order at hsorted hlength hmem ⊢
  obtain _ | ⟨o, rest⟩ := order
  · exact absurd hlength (by simp; omega)
  rw [List.length_cons] at hlength
  obtain ⟨hfirst, -⟩ := List.pairwise_cons.mp hsorted
  obtain ⟨hblock, hcode⟩ := hl o ((hmem o).mp List.mem_cons_self)
  have hfree := State.record_of_free hs hblock.symm hntq hv
  obtain ⟨hV, hsev, hfcode, -⟩ := firstWord_fields b (s.reg (b + 0xf08)) hcode s.now
  have hcount : s.fld (F.BLK_FLTOVF_COUNT b) ≤ 65535 := Nat.le_of_lt_succ (Fld.of_lt (F.BLK_FLTOVF_COUNT b) _ (by simp [F.BLK_FLTOVF_COUNT]))
  obtain ⟨⟨hshow, hn⟩, hovf⟩ := State.foldl_record_of_latched hfree hcount (List.ne_nil_of_length_pos (by omega))
    (fun p hp => (hl p ((hmem p).mp (List.mem_cons_of_mem o hp))).1) hntq hV
  rw [List.foldl_cons]
  refine ⟨⟨o, (hmem o).mp List.mem_cons_self, fun p hp => ?before, State.bit_of_fld ((hshow.fld (f := F.BLK_FLTFIRST_V b)).trans hV),
    (hshow.fld (f := F.BLK_FLTFIRST_SEV b)).trans hsev, (hshow.fld (f := F.BLK_FLTFIRST_CODE b)).trans hfcode⟩, hovf, ?count⟩
  case before =>
    rcases List.mem_cons.mp ((hmem p).mpr hp) with rfl | hp
    · exact .inr ⟨rfl, le_rfl⟩
    · have := occBefore_iff.mp (hfirst p hp)
      omega
  case count => rw [hn, show l.length - 1 = rest.length by omega]

end Sys2Proof.Machine


/-! The notice queue (R436, R438, R440 to R442): posting, delivery by rank, release, the mark, and the overrun. -/

namespace Sys2Proof.Machine

/-! What each operation does to the queue, case by case. -/

theorem State.postNotice_of_room {s : State} (h : s.ntq.entries.length < 4096) (n : Notice) : s.postNotice n = s.enqueueNotice n :=
  if_pos h

theorem State.postNotice_of_full {s : State} (h : 4096 ≤ s.ntq.entries.length) (n : Notice) : s.postNotice n = s.discardNotice :=
  if_neg (Nat.not_lt.mpr h)

theorem State.discardNotice_ntq (s : State) : s.discardNotice.ntq = { s.ntq with overrun := s.ntq.overrun + 1 } := by
  unfold State.discardNotice
  dsimp only
  rw [State.recordRegs_ntq]
  rfl

theorem State.postNotice_entries (s : State) (n : Notice) : (s.postNotice n).ntq.entries =
    if s.ntq.entries.length < 4096 then s.ntq.entries ++ [⟨{ n with nseq := s.ntq.nseq }, none⟩] else s.ntq.entries := by
  split
  case isTrue h =>
    rw [State.postNotice_of_room h]
    rfl
  case isFalse h => rw [State.postNotice_of_full (Nat.not_lt.mp h), State.discardNotice_ntq]

/-- Posting keeps the number of the next delivery and the entries that have failed parity. -/
theorem State.postNotice_dseq_bad (s : State) (n : Notice) :
    (s.postNotice n).ntq.dseq = s.ntq.dseq ∧ (s.postNotice n).ntq.bad = s.ntq.bad := by
  unfold State.postNotice
  split
  · exact ⟨rfl, rfl⟩
  · rw [State.discardNotice_ntq]
    exact ⟨rfl, rfl⟩

theorem State.endHoldoff_bad (s : State) (key : Nat) : (s.endHoldoff key).ntq.bad = s.ntq.bad := by
  unfold State.endHoldoff
  split
  · rfl
  · split
    · rfl
    · dsimp only
      split
      · rfl
      · exact (State.postNotice_dseq_bad _ _).2

theorem State.postOcc_bad (s : State) (n : Notice) : (s.postOcc n).ntq.bad = s.ntq.bad := by
  have hend := State.endHoldoff_bad s (pairKey n.block n.code)
  unfold State.postOcc
  dsimp only
  split
  · split
    · exact hend
    · exact (State.postNotice_dseq_bad _ _).2.trans hend
  · exact (State.postNotice_dseq_bad _ _).2.trans hend

theorem State.record_bad (s : State) (o : Occ) : (s.record o).ntq.bad = s.ntq.bad :=
  (State.postOcc_bad _ _).trans (congrArg (·.bad) (State.recordRegs_ntq s o))

theorem State.postOverrun_bad (s : State) : s.postOverrun.ntq.bad = s.ntq.bad := by
  unfold State.postOverrun
  split <;> rfl

theorem State.clearNtq_dseq (s : State) : s.clearNtq.ntq.dseq = 0 := by
  unfold State.clearNtq
  refine List.foldlRecOn (motive := fun u : State => u.ntq.dseq = 0) faultBlocks _ rfl fun (u : State) hu b _ => ?_
  split
  · exact (State.postNotice_dseq_bad _ _).1.trans hu
  · exact hu

/-! Parity (R448). -/

theorem State.ntqParity_bad (s : State) : s.ntqParity.ntq.bad = [] := by
  unfold State.ntqParity
  dsimp only
  split
  · rfl
  · refine List.foldlRecOn (motive := fun u : State => u.ntq.bad = []) _ _ ?_ fun u hu _ _ => (State.record_bad u _).trans hu
    exact State.postOverrun_bad _

/-- With no entry that has failed parity, parity changes nothing. -/
theorem State.ntqParity_of_good {s : State} (h : s.ntq.bad = []) : s.ntqParity = s := by
  have hall : (s.ntq.entries.filter fun e => !([] : List Nat).contains e.note.nseq) = s.ntq.entries :=
    List.filter_eq_self.mpr fun _ _ => rfl
  unfold State.ntqParity
  rw [h]
  dsimp only [List.filter_nil]
  rw [hall, ← h]
  exact if_pos (by rw [h]; rfl)

theorem State.ntqPop_ntqParity (s : State) : s.ntqPop = s.ntqParity.ntqPop := by
  unfold State.ntqPop
  rw [State.ntqParity_of_good s.ntqParity_bad]

/-! The pending notice that comes first, and its delivery (R438). -/

/-- The better of the notice chosen so far and an entry. -/
def bestOf (best : Option Notice) (e : QEntry) : Option Notice :=
  if e.dseq.isSome then best
  else match best with
    | none => some e.note
    | some b => if popBefore e.note b then some e.note else best

theorem firstPending_eq (l : List QEntry) : firstPending l = l.foldl bestOf none := rfl

/-- `n` comes before `m` under the two keys of R438, or at the same place. -/
def Notice.Leads (n m : Notice) : Prop := m.sev < n.sev ∨ (m.sev = n.sev ∧ n.nseq ≤ m.nseq)

theorem Notice.Leads.refl (n : Notice) : n.Leads n := .inr ⟨rfl, le_rfl⟩

theorem Notice.Leads.trans {a b c : Notice} (hab : a.Leads b) (hbc : b.Leads c) : a.Leads c := by
  unfold Notice.Leads at *
  omega

theorem Notice.leads_of_popBefore {a b : Notice} (h : popBefore a b = true) : a.Leads b := by
  simp only [popBefore, Bool.or_eq_true, Bool.and_eq_true, decide_eq_true_eq] at h
  unfold Notice.Leads
  omega

theorem Notice.leads_of_not_popBefore {a b : Notice} (h : popBefore a b = false) : b.Leads a := by
  simp only [popBefore, Bool.or_eq_false_iff, Bool.and_eq_false_iff, decide_eq_false_iff_not] at h
  unfold Notice.Leads
  omega

/-- `n` is pending in the list and comes before all that are. -/
def PendsFirst (n : Notice) (l : List QEntry) : Prop := ⟨n, none⟩ ∈ l ∧ ∀ e ∈ l, e.dseq = none → n.Leads e.note

theorem PendsFirst.cons_delivered {n : Notice} {l : List QEntry} {e : QEntry} (h : PendsFirst n l) (he : e.dseq.isSome = true) :
    PendsFirst n (e :: l) := by
  obtain ⟨hmem, hlead⟩ := h
  refine ⟨List.mem_cons_of_mem e hmem, List.forall_mem_cons.mpr ⟨fun hnone => ?_, hlead⟩⟩
  rw [hnone] at he
  cases he

theorem foldl_bestOf_some (l : List QEntry) (b : Notice) : ∃ n, l.foldl bestOf (some b) = some n ∧ PendsFirst n (⟨b, none⟩ :: l) := by
  induction l generalizing b with
  | nil => exact ⟨b, rfl, List.mem_cons_self, by simp [Notice.Leads.refl]⟩
  | cons e l ih =>
    obtain ⟨m, d⟩ := e
    have hswap {n : Notice} {x y : QEntry} (h : PendsFirst n (x :: y :: l)) : PendsFirst n (y :: x :: l) :=
      ⟨(List.Perm.swap y x l).mem_iff.mp h.1, fun e he => h.2 e ((List.Perm.swap y x l).mem_iff.mpr he)⟩
    cases d with
    | some d =>
      obtain ⟨n, hn, hfirst⟩ := ih b
      exact ⟨n, hn, hswap (hfirst.cons_delivered rfl)⟩
    | none =>
      cases hpop : popBefore m b with
      | true =>
        obtain ⟨n, hn, hmem, hlead⟩ := ih m
        refine ⟨n, ?_, List.mem_cons_of_mem _ hmem, List.forall_mem_cons.mpr ⟨fun _ => ?_, hlead⟩⟩
        · simpa [bestOf, hpop] using hn
        · exact (hlead _ List.mem_cons_self rfl).trans (Notice.leads_of_popBefore hpop)
      | false =>
        obtain ⟨n, hn, hmem, hlead⟩ := ih b
        refine ⟨n, ?_, hswap ⟨List.mem_cons_of_mem _ hmem, List.forall_mem_cons.mpr ⟨fun _ => ?_, hlead⟩⟩⟩
        · simpa [bestOf, hpop] using hn
        · exact (hlead _ List.mem_cons_self rfl).trans (Notice.leads_of_not_popBefore hpop)

theorem firstPending_of_delivered {l : List QEntry} (h : ∀ e ∈ l, e.dseq.isSome = true) : firstPending l = none := by
  rw [firstPending_eq]
  induction l with
  | nil => rfl
  | cons e l ih =>
    obtain ⟨he, hl⟩ := List.forall_mem_cons.mp h
    rw [List.foldl_cons, show bestOf none e = none from if_pos he, ih hl]

theorem firstPending_of_pending {l : List QEntry} (h : ∃ e ∈ l, e.dseq = none) :
    ∃ n, firstPending l = some n ∧ PendsFirst n l := by
  rw [firstPending_eq]
  induction l with
  | nil => simp at h
  | cons e l ih =>
    obtain ⟨m, d⟩ := e
    cases d with
    | none => exact foldl_bestOf_some l m
    | some d =>
      obtain ⟨n, hn, hfirst⟩ := ih (by simpa using h)
      exact ⟨n, hn, hfirst.cons_delivered rfl⟩

/-- Delivery gives the first such entry its number and leaves the others. -/
theorem deliverEntry_of_mem {n : Notice} {l : List QEntry} (h : ⟨n, none⟩ ∈ l) (d : Nat) :
    ∃ pre post, l = pre ++ ⟨n, none⟩ :: post ∧ deliverEntry n d l = pre ++ ⟨n, some d⟩ :: post := by
  induction l with
  | nil => cases h
  | cons e l ih =>
    unfold deliverEntry
    split
    case isTrue he =>
      obtain ⟨m, x⟩ := e
      obtain ⟨rfl, rfl⟩ := he
      exact ⟨[], l, rfl, rfl⟩
    case isFalse he =>
      have hl : ⟨n, none⟩ ∈ l := by
        rcases List.mem_cons.mp h with rfl | hl
        · exact absurd ⟨rfl, rfl⟩ he
        · exact hl
      obtain ⟨pre, post, hsplit, hdel⟩ := ih hl
      exact ⟨e :: pre, post, by rw [hsplit]; rfl, by rw [hdel]; rfl⟩

/-- A notice put into NTQ_NREC. -/
def State.latchNotice (s : State) (n : Notice) (words : Nat) : State :=
  (upto words).foldl (fun t i => t.setReg (F.NTQ_NREC i).key (n.word i)) s

theorem State.latchNotice_succ (s : State) (n : Notice) (words : Nat) :
    s.latchNotice n (words + 1) = (s.latchNotice n words).setReg (F.NTQ_NREC words).key (n.word words) := by
  simp [State.latchNotice, upto, List.range_succ]

theorem State.latchNotice_holds {s : State} (hs : s.regsOk = true) (n : Notice) (words : Nat) :
    (∀ i, i < words → (s.latchNotice n words).Holds (F.NTQ_NREC i).key (n.word i)) ∧
    (∀ k, k ∉ (upto words).map (fun i => (F.NTQ_NREC i).key) → (s.latchNotice n words).Holds k (s.reg k)) := by
  induction words with
  | zero => exact ⟨fun i hi => absurd hi (Nat.not_lt_zero i), fun k _ => ⟨hs, rfl⟩⟩
  | succ words ih =>
    obtain ⟨hin, hout⟩ := ih
    have hfresh : (F.NTQ_NREC words).key ∉ (upto words).map fun i => (F.NTQ_NREC i).key := by
      simp only [upto, List.mem_map, List.mem_range, F.NTQ_NREC, not_exists, not_and]
      omega
    rw [State.latchNotice_succ]
    refine ⟨fun i hi => ?_, fun k hk => ?_⟩
    · rcases Nat.lt_succ_iff_lt_or_eq.mp hi with hi | rfl
      · exact (hin i hi).setReg (by simp only [F.NTQ_NREC]; omega) _
      · exact (hout _ hfresh).setReg_self _
    · simp only [upto, List.range_succ, List.map_append, List.map_cons, List.map_nil, List.mem_append, List.mem_singleton, not_or] at hk
      exact (hout k hk.1).setReg hk.2 _

theorem State.latchNotice_only_regs (s : State) (n : Notice) (words : Nat) :
    s.latchNotice n words = { s with regs := (s.latchNotice n words).regs } := by
  induction words with
  | zero => rfl
  | succ words ih =>
    rw [State.latchNotice_succ, ih]
    rfl

/-- The state once the pending notice `n` has the next delivery number. -/
def State.delivering (s : State) (n : Notice) : State :=
  { s with ntq.entries := deliverEntry n (s.ntq.dseq % 2 ^ 32) s.ntq.entries, ntq.dseq := s.ntq.dseq + 1 }

theorem State.ntqPop_of_none {s : State} (hbad : s.ntq.bad = []) (h : firstPending s.ntq.entries = none) : s.ntqPop = (s, 0) := by
  unfold State.ntqPop
  rw [State.ntqParity_of_good hbad]
  simp only [h]

theorem State.ntqPop_of_some {s : State} {n : Notice} (hbad : s.ntq.bad = []) (h : firstPending s.ntq.entries = some n) :
    s.ntqPop = ((s.delivering n).latchNotice n 4, BitVec.ofNat 64 (2 ^ 32 + s.ntq.dseq % 2 ^ 32)) := by
  unfold State.ntqPop
  rw [State.ntqParity_of_good hbad]
  simp only [h]
  rfl

/-- Settles O54: the fold over the entries finds the notice that leads all pending ones, and delivery changes its entry alone. -/
theorem popDeliversByRank : Obligations.PopDeliversByRank := by
  refine ⟨State.postNotice_entries, State.clearNtq_dseq, fun s => ⟨s.ntqParity_bad, s.ntqPop_ntqParity⟩,
    fun s hbad hall => State.ntqPop_of_none hbad (firstPending_of_delivered hall), fun s hs hbad hpend => ?_⟩
  obtain ⟨n, hn, hmem, hlead⟩ := firstPending_of_pending hpend
  obtain ⟨pre, post, hsplit, hdel⟩ := deliverEntry_of_mem hmem (s.ntq.dseq % 2 ^ 32)
  obtain ⟨hwords, hout⟩ := State.latchNotice_holds (s := s.delivering n) hs n 4
  have honly := (s.delivering n).latchNotice_only_regs n 4
  rw [State.ntqPop_of_some hbad hn]
  refine ⟨n, pre, post, hsplit, hlead, ?ntq, rfl, fun i hi => (hwords i hi).2, fun k hk => (hout k hk).2, ?frame⟩
  case ntq =>
    dsimp only
    rw [honly, ← hdel]
    rfl
  case frame =>
    dsimp only
    rw [honly]
    rfl

/-! The commands of the queue (R436, R441, R442). -/

/-- The entry goes with a release up to `d`. -/
def QEntry.goes (d : Nat) (e : QEntry) : Bool := match e.dseq with
  | some k => dseqUpTo k d
  | none => false

/-- A release of a number that has been delivered, with no mark set, frees every entry up to it; then the overrun is posted. -/
theorem State.ntqRelease_of_delivered {s : State} {w : Word} (hgo : wbit w 32 = true) (hd : s.ntq.delivered (wbits w 0 32) = true) :
    ∃ m, s.ntqRelease w =
        ({ s with ntq.entries := s.ntq.entries.filter fun e => !e.goes (wbits w 0 32), ntq.mark := m } : State).postOverrun ∧
      (s.ntq.mark = none → m = none) := by
  unfold State.ntqRelease
  dsimp only
  rw [hgo, hd]
  refine ⟨_, rfl, fun hm => ?_⟩
  rw [hm]
  rfl

theorem State.ntqCtl_of_mark {w : Word} (hmark : wbit w 0 = true) (hrew : wbit w 1 = false) (s : State) : s.ntqCtl w = s.ntqMark := by
  simp only [State.ntqCtl, hmark, hrew, if_true, Bool.false_eq_true, if_false]

theorem State.ntqCtl_of_rewind {w : Word} (hmark : wbit w 0 = false) (hrew : wbit w 1 = true) (s : State) : s.ntqCtl w = s.ntqRewind := by
  simp only [State.ntqCtl, hmark, hrew, if_true, Bool.false_eq_true, if_false]

/-- A holdoff window that has counted posts the last of what it counted, with the count. -/
theorem State.endHoldoff_of_counted {s : State} {key : Nat} {h : Holdoff} (hh : tget s.ntq.holdoffs key = some h) (hdue : h.due ≤ s.now)
    (hcount : h.count ≠ 0) : s.endHoldoff key =
      ({ s with ntq.holdoffs := tdel s.ntq.holdoffs key } : State).postNotice { h.last with count := min h.count 0xffff } := by
  unfold State.endHoldoff
  rw [hh]
  dsimp only
  rw [if_neg (Nat.not_lt.mpr hdue), if_neg hcount]

/-- Settles O3: each command runs its function of the queue, whose case the conditions choose. -/
theorem noticeQueueCommandsComplete : Obligations.NoticeQueueCommandsComplete := by
  rintro s _ _ src w rfl rfl
  refine ⟨fun hbad hn => State.reads_of_get rfl (State.ntqPop_of_none hbad hn),
    fun n hbad hn => State.reads_of_get rfl (State.ntqPop_of_some hbad hn), ?release, fun hmark hrew => ?mark, ?rewind, ?holdoff⟩
  case release =>
    rintro _ rfl hgo hd hmark
    refine State.writes_of_trig rfl hgo ?_
    have hq := s.stored_ntq F.NTQ_RELEASE.key w
    obtain ⟨m, hrel, hm⟩ := State.ntqRelease_of_delivered (s := s.stored F.NTQ_RELEASE.key w) hgo (by rw [hq]; exact hd)
    have hnone : (s.stored F.NTQ_RELEASE.key w).ntq.mark = none := by rw [hq]; exact hmark
    rw [hrel, hm hnone, ← hnone]
    rfl
  case mark => exact State.writes_of_trig rfl hmark (State.ntqCtl_of_mark hmark hrew _)
  case rewind =>
    intro m hmark hrew hm
    refine State.writes_of_trig rfl hrew ((State.ntqCtl_of_rewind hmark hrew _).trans ?_)
    unfold State.ntqRewind
    rw [State.stored_ntq]
    split
    case h_1 hnone => cases hm.symm.trans hnone
    case h_2 k hk =>
      cases hm.symm.trans hk
      rfl
  case holdoff =>
    intro block code h hh hdue hcount
    exact congrArg Host.Outcome.next (State.endHoldoff_of_counted hh hdue hcount)

/-! The overrun (R440). -/

/-- The state once OVERRUN is set and LOST has counted. -/
def State.overrunShown (s : State) : State := (s.setFld F.NTQ_STS_OVERRUN 1).incFld F.NTQ_LOST_LOST

theorem State.overrunShown_overrun {s : State} (hs : s.regsOk = true) :
    s.overrunShown.Holds F.NTQ_STS_OVERRUN.key (F.NTQ_STS_OVERRUN.into (s.reg F.NTQ_STS_OVERRUN.key) 1) :=
  ((State.Holds.refl hs F.NTQ_STS_OVERRUN.key).setFld_self 1).setFld F.NTQ_LOST_LOST (by decide) _

theorem State.overrunShown_lost {s : State} (hs : s.regsOk = true) : s.overrunShown.Holds F.NTQ_LOST_LOST.key
    (F.NTQ_LOST_LOST.into (s.reg F.NTQ_LOST_LOST.key) (s.fld F.NTQ_LOST_LOST + 1)) := by
  have hlost : (s.setFld F.NTQ_STS_OVERRUN 1).Holds F.NTQ_LOST_LOST.key (s.reg F.NTQ_LOST_LOST.key) :=
    (State.Holds.refl hs _).setFld _ (by decide) 1
  have hfld : (s.setFld F.NTQ_STS_OVERRUN 1).fld F.NTQ_LOST_LOST = s.fld F.NTQ_LOST_LOST := hlost.fld
  have hadd : s.overrunShown.Holds F.NTQ_LOST_LOST.key (F.NTQ_LOST_LOST.into (s.reg F.NTQ_LOST_LOST.key)
      ((s.setFld F.NTQ_STS_OVERRUN 1).fld F.NTQ_LOST_LOST + 1)) :=
    hlost.setFld_self (f := F.NTQ_LOST_LOST) ((s.setFld F.NTQ_STS_OVERRUN 1).fld F.NTQ_LOST_LOST + 1)
  rwa [hfld] at hadd

theorem State.discardNotice_regs (s : State) :
    s.discardNotice.regs = (s.overrunShown.recordRegs (occ bNTQ Cause.ntq_OVERRUN)).2.regs := rfl

/-- A notice that meets a full queue is counted in OVERRUN and LOST, and NTQ cause 0x01 is recorded. -/
theorem State.discardNotice_shows {s : State} (hs : s.regsOk = true) : s.discardNotice.bit F.NTQ_STS_OVERRUN = true ∧
    s.discardNotice.fld F.NTQ_LOST_LOST = (s.fld F.NTQ_LOST_LOST + 1) % 2 ^ 32 ∧
    (s.discardNotice.reg 0x6000f00).getLsbD 1 = true := by
  have hover := ((State.overrunShown_overrun hs).recordRegs_away (o := occ bNTQ Cause.ntq_OVERRUN) rfl (by decide)).of_regs
    s.discardNotice_regs
  have hlost := ((State.overrunShown_lost hs).recordRegs_away (o := occ bNTQ Cause.ntq_OVERRUN) rfl (by decide)).of_regs
    s.discardNotice_regs
  obtain ⟨-, hcause⟩ := (State.recordRegs_cause (b := bNTQ * 0x10000) (State.overrunShown_lost hs).1
    (o := occ bNTQ Cause.ntq_OVERRUN) rfl).of_regs
    s.discardNotice_regs
  refine ⟨State.bit_of_fld (hover.fld.trans (Fld.of_into_self _ _ _ (by decide))),
    hlost.fld.trans (Fld.of_into_self _ _ _ (by decide)), ?_⟩
  rw [show (0x6000f00 : Nat) = bNTQ * 0x10000 + 0xf00 from rfl, hcause]
  simp [occ, Cause.ntq_OVERRUN]

/-- Once there is room, the notice of the overrun is the next one posted. -/
theorem State.postOverrun_of_room {s : State} (hover : s.ntq.overrun ≠ 0) (hroom : s.ntq.entries.length < 4096) :
    ∃ last, s.postOverrun.ntq.entries = s.ntq.entries ++ [⟨last, none⟩] ∧ last.block = bNTQ ∧ last.code = 1 ∧
      last.count = min s.ntq.overrun 65535 ∧ s.postOverrun.ntq.overrun = 0 := by
  have hcond : ¬ (s.ntq.overrun = 0 ∨ NoticeQ.capacity ≤ s.ntq.entries.length) :=
    not_or.mpr ⟨hover, Nat.not_le.mpr hroom⟩
  unfold State.postOverrun
  rw [if_neg hcond]
  exact ⟨_, rfl, rfl, rfl, rfl, rfl⟩

/-- A release that frees an entry of a full queue makes room. -/
theorem length_filter_lt_of_goes {l : List QEntry} {d : Nat} (h : ∃ e ∈ l, ∃ k, e.dseq = some k ∧ dseqUpTo k d = true) :
    (l.filter fun e => !e.goes d).length < l.length := by
  obtain ⟨e, he, k, hk, hup⟩ := h
  refine List.length_filter_lt_length_iff_exists.mpr ⟨e, he, ?_⟩
  simp [QEntry.goes, hk, hup]

/-- Settles O55: a full queue discards what is posted, and the release that makes room posts the overrun's notice. -/
theorem fullQueueDiscards : Obligations.FullQueueDiscards := by
  refine ⟨?discards, ?reports⟩
  case discards =>
    rintro s _ n hs hfull rfl
    rw [State.postNotice_of_full hfull]
    exact ⟨s.discardNotice_ntq, State.discardNotice_shows hs⟩
  case reports =>
    intro s w hgo hd hover hmax hfull hfrees
    obtain ⟨m, hrel, -⟩ := State.ntqRelease_of_delivered hgo hd
    have hroom := length_filter_lt_of_goes hfrees
    rw [hfull] at hroom
    obtain ⟨last, hentries, hblock, hcode, hcount, hzero⟩ := State.postOverrun_of_room
      (s := { s with ntq.entries := s.ntq.entries.filter fun e => !e.goes (wbits w 0 32), ntq.mark := m }) hover.ne' hroom
    rw [hrel]
    exact ⟨_, last, hentries, hroom, fun e he => List.mem_of_mem_filter he, hblock, hcode,
      hcount.trans (Nat.min_eq_left hmax), hzero⟩

end Sys2Proof.Machine

/-! Requests that the crossbar turns away (R511 to R517, R521), and what a step of the model is. -/

namespace Sys2Proof.Machine

section

variable {s t : State} {r : CsrReq} {a : CsrAns} (eff : State → State × CsrAns)

theorem State.crossbar_of_mcDown (hdown : s.sys.csr.mcDown = true) : s.crossbar r eff = (s, ⟨9, 1000, 0⟩) := if_pos hdown

theorem State.crossbar_of_overLimit (hup : s.sys.csr.mcDown = false) (hover : s.overLimit r = true) :
    s.crossbar r eff = (s, ⟨9, 10, 0⟩) := by
  simp only [State.crossbar, hup, hover, Bool.false_eq_true, if_false, if_true]

theorem State.crossbar_of_xbarBad (hup : s.sys.csr.mcDown = false) (hin : s.overLimit r = false)
    (hbad : s.sys.csr.xbarBad = true) : s.crossbar r eff = s.xbarParity := by
  simp only [State.crossbar, hup, hin, hbad, Bool.false_eq_true, if_false, if_true]

theorem State.crossbar_of_denied (hup : s.sys.csr.mcDown = false) (hin : s.overLimit r = false)
    (hgood : s.sys.csr.xbarBad = false) (hdeny : s.csrAllowed r = false) :
    s.crossbar r eff = (s.incFld F.GBL_CSRCNT_DENIED, ⟨6, 0, 0⟩) := by
  simp only [State.crossbar, hup, hin, hgood, hdeny, Bool.false_eq_true, Bool.not_false, if_false, if_true]

/-- An address without a register is in no bank of POOL either. -/
theorem State.bankAway_of_no_register {k : Nat} (hreg : regAt k = none) (s : State) : s.bankAway k = false := by
  simp [State.bankAway, hreg]

theorem State.crossbar_of_no_register (hup : s.sys.csr.mcDown = false) (hin : s.overLimit r = false)
    (hgood : s.sys.csr.xbarBad = false) (hallow : s.csrAllowed r = true) (hreg : regAt r.addr.toNat = none)
    (hmirror : mirrorsZero r.addr.toNat = false) : s.crossbar r eff = (s.counted, ⟨5, 0, 0⟩) := by
  simp only [State.crossbar, hup, hin, hgood, hallow, hmirror, State.bankAway_of_no_register hreg, hreg, Bool.false_eq_true,
    Bool.not_true, or_self, if_false]
  rfl

variable {eff}

/-- A request that the crossbar answers with `a` and that is in no cache is turned away with it, where the answer either is not
kept or meets neither a restart nor a reset. -/
theorem State.csrDo_of_crossbar (hreach : s.reaches r = true) (hnew : s.uncached r.src = true) (hx : s.crossbar r eff = (t, a))
    (hkeep : a.status = 9 ∨ t.sys.csr.mcDown = false ∧ t.sys.csr.resets = s.sys.csr.resets) :
    s.csrDo r eff = s.turnedAway r t a := by
  unfold State.csrDo State.turnedAway
  rw [hreach]
  cases hsrc : r.src with
  | inband k x => simp only [hx, Bool.not_true, Bool.false_eq_true, if_false]
  | mgmt ip port x =>
    have hnone : s.cached ip port x = none := by simpa [State.uncached, hsrc] using hnew
    simp only [State.mgmtOne, hnone, hx, Bool.not_true, Bool.false_eq_true, if_false]
    rcases hkeep with h9 | ⟨hup, hresets⟩
    · simp only [h9, true_or, if_true]
    · simp only [hup, hresets, Bool.false_eq_true, not_true, ne_eq, or_self, or_false]
      split <;> rfl

/-- A repeated request of a management source is answered from the cache (R514). -/
theorem State.csrDo_of_cached {ip : BitVec 32} {port : BitVec 16} {x : Txid} {e : CsrKept} (hreach : s.reaches r = true)
    (hsrc : r.src = .mgmt ip port x) (he : s.cached ip port x = some e) :
    s.csrDo r eff = s.answerLater (s.incFld F.GBL_CSRCNT_DUPS) ⟨ip, port, mgtBytes [e.rsp]⟩ := by
  unfold State.csrDo
  simp only [hreach, hsrc, State.mgmtOne, he, Bool.not_true, Bool.false_eq_true, if_false]

end

/-- A read or a write is its request's way through the crossbar. -/
theorem exec_of_request {i : Instr} {r : CsrReq} {src : CsrSrc} {addr : BitVec 32} {w : Word}
    (h : (i, r) ∈ [(Instr.csrRead src addr, ⟨src, false, addr, none⟩), (Instr.csrWrite src addr w, ⟨src, true, addr, some w⟩)])
    (s : State) : r.src = src ∧ r.addr = addr ∧ ∃ eff, exec i s = .next (s.csrDo r eff) := by
  simp only [List.mem_cons, Prod.mk.injEq, List.not_mem_nil, or_false] at h
  rcases h with ⟨rfl, rfl⟩ | ⟨rfl, rfl⟩
  · exact ⟨rfl, rfl, _, exec_csrRead src addr s⟩
  · exact ⟨rfl, rfl, _, exec_csrWrite src addr w s⟩

/-- Settles O56: what the crossbar answers in each case is what the request is turned away with. -/
theorem crossbarTurnsAway : Obligations.CrossbarTurnsAway := by
  intro s src addr w i r hi hreach
  obtain ⟨rfl, rfl, eff, hexec⟩ := exec_of_request hi s
  rw [hexec]
  refine ⟨fun hnew => ⟨fun hdown => ?restart, fun hup => ⟨fun hover => ?limit, fun hin hbad => ?parity, fun hin hgood =>
    ⟨fun hdeny => ?denied, fun hallow hreg hmirror => ?missing⟩⟩⟩, fun ip port x e hsrc he => ?repeated⟩
  case restart => rw [State.csrDo_of_crossbar hreach hnew (State.crossbar_of_mcDown _ hdown) (.inl rfl)]
  case limit => rw [State.csrDo_of_crossbar hreach hnew (State.crossbar_of_overLimit _ hup hover) (.inl rfl)]
  case parity =>
    rw [State.csrDo_of_crossbar hreach hnew (State.crossbar_of_xbarBad _ hup hin hbad)
      (.inr (by simp only [State.record_sys, hup, and_self]))]
  case denied => rw [State.csrDo_of_crossbar hreach hnew (State.crossbar_of_denied _ hup hin hgood hdeny) (.inr ⟨hup, rfl⟩)]
  case missing =>
    rw [State.csrDo_of_crossbar hreach hnew (State.crossbar_of_no_register _ hup hin hgood hallow hreg hmirror) (.inr ⟨hup, rfl⟩)]
  case repeated => rw [State.csrDo_of_cached hreach hsrc he]

/-- Settles O37: the two cases of `step`. -/
theorem stepRunsTheFrontCommand : Obligations.StepRunsTheFrontCommand := by
  intro s
  refine ⟨fun c rest hpending => ?front, fun hempty => ?idle⟩
  case front => simp only [step, hpending]
  case idle => simp only [step, hempty]

end Sys2Proof.Machine

/-! Resets and the commands of PMU_CTL (R458, R466, R468, R471, R472): what their writes and RST_N do. -/

namespace Sys2Proof.Machine

/-- A CsrWrite of a register completes with what the write of that register does. -/
theorem State.writes_of_csrWriteAt {s t : State} {src : CsrSrc} {k : Nat} {w : Word} {addr : BitVec 32} {d : RegDef}
    (haddr : addr = BitVec.ofNat 32 k) (hk : addr.toNat = k) (hd : regAt k = some d) (ht : s.counted.writeReg d k w = t) :
    s.Writes (.csrWrite src addr w) src k w t := by
  subst haddr
  refine State.writes_of_do (eff := fun u => u.csrWriteAt (BitVec.ofNat 32 k).toNat w) (exec_csrWrite src _ w s) ?_
  rw [hk, State.csrWriteAt_of_reg hd, ht]

/-! PMU_RESET (R472). -/

theorem regAt_pmuReset : ∃ d, regAt F.PMU_RESET.key = some d ∧ d.name = "PMU_RESET" := ⟨_, rfl, rfl⟩

/-- A CsrWrite of PMU_RESET draws the reset's inputs. -/
theorem State.writes_pmuReset {s t : State} {src : CsrSrc} {w : Word} (ht : (s.stored F.PMU_RESET.key w).wrPmuResetRaw w = t) :
    s.Writes (.csrWrite src 0x300038 w) src F.PMU_RESET.key w t := by
  obtain ⟨d, hd, hname⟩ := regAt_pmuReset
  refine State.writes_of_csrWriteAt rfl rfl hd ?_
  rw [← ht, State.stored, hd]
  simp only [State.writeReg, State.writeData, State.writeCtl, hname]
  rfl

section

variable {s : State} {w : Word} {inp : StartIn}

theorem State.wrPmuReset_of_unconfirmed (hconf : wbits w 16 16 ≠ 0x5E7A) : s.wrPmuReset w inp = s.refusePmu 4 := if_pos hconf

theorem State.wrPmuReset_of_no_kind (hconf : wbits w 16 16 = 0x5E7A) (hkind : wbits w 0 2 = 0) :
    s.wrPmuReset w inp = s.refusePmu 5 := by
  simp only [State.wrPmuReset, hconf, hkind, ne_eq, not_true, if_false, if_true]

theorem State.wrPmuReset_of_state (hconf : wbits w 16 16 = 0x5E7A) (hkind : wbits w 0 2 ≠ 0) (hact : s.pst ≠ 1)
    (hstby : s.pst ≠ 5) : s.wrPmuReset w inp = s.refusePmu 1 := by
  simp only [State.wrPmuReset, pACTIVE, pSTANDBY, hconf, hkind, hact, hstby, ne_eq, not_true, not_false_eq_true, and_self,
    if_false, if_true]

/-- A confirmed write with a KIND acts in ACTIVE and in STANDBY. -/
theorem State.wrPmuReset_of_ready (hconf : wbits w 16 16 = 0x5E7A) (hkind : wbits w 0 2 ≠ 0) (hst : s.pst = 1 ∨ s.pst = 5) :
    s.wrPmuReset w inp = if wbits w 0 2 = 3 then s.mcRestart 3 else s.startUp (wbits w 0 2) inp := by
  have hready : ¬ (s.pst ≠ pACTIVE ∧ s.pst ≠ pSTANDBY) := by rintro ⟨h1, h5⟩; exact hst.elim h1 h5
  simp only [State.wrPmuReset, hconf, hkind, ne_eq, not_true, if_false]
  rw [if_neg hready]

theorem State.wrPmuResetRaw_of_state (hconf : wbits w 16 16 = 0x5E7A) (hkind : wbits w 0 2 ≠ 0) (hact : s.pst ≠ 1)
    (hstby : s.pst ≠ 5) : s.wrPmuResetRaw w = { s with free := s.free + 2 }.refusePmu 1 :=
  State.wrPmuReset_of_state (s := { s with free := s.free + 2 }) hconf hkind hact hstby

theorem State.wrPmuResetRaw_of_mc (hconf : wbits w 16 16 = 0x5E7A) (hkind : wbits w 0 2 = 3) (hst : s.pst = 1 ∨ s.pst = 5) :
    s.wrPmuResetRaw w = { s with free := s.free + 2 }.mcRestart 3 :=
  (State.wrPmuReset_of_ready (s := { s with free := s.free + 2 }) hconf (by omega) hst).trans (if_pos hkind)

end

/-- ModuleReset and WarmReset are writes of PMU_RESET with their KIND. -/
theorem State.writes_reset {s t : State} {src : CsrSrc} {w : Word} {inp : StartIn} {kind : Nat} {i : Instr}
    (hi : (kind, i) ∈ [(1, Instr.moduleReset src w inp), (2, .warmReset src w inp)]) (hkind : wbits w 0 2 = kind)
    (ht : (s.stored F.PMU_RESET.key w).wrPmuReset w inp = t) : s.Writes i src F.PMU_RESET.key w t := by
  simp only [List.mem_cons, Prod.mk.injEq, List.not_mem_nil, or_false] at hi
  rcases hi with ⟨rfl, rfl⟩ | ⟨rfl, rfl⟩
  · exact State.writes_of_trig rfl (decide_eq_true hkind) ht
  · exact State.writes_of_trig rfl (decide_eq_true hkind) ht

/-- ModuleReset and WarmReset name a KIND. -/
theorem kind_of_reset {src : CsrSrc} {w : Word} {inp : StartIn} {kind : Nat} {i : Instr}
    (hi : (kind, i) ∈ [(1, Instr.moduleReset src w inp), (2, .warmReset src w inp)]) : kind = 1 ∨ kind = 2 := by
  simp only [List.mem_cons, Prod.mk.injEq, List.not_mem_nil, or_false] at hi
  exact hi.imp And.left And.left

theorem State.writes_reset_of_ready {s : State} {src : CsrSrc} {w : Word} {inp : StartIn} {kind : Nat} {i : Instr}
    (hi : (kind, i) ∈ [(1, Instr.moduleReset src w inp), (2, .warmReset src w inp)]) (hkind : wbits w 0 2 = kind)
    (hconf : wbits w 16 16 = 0x5E7A)
    (hst : (s.stored F.PMU_RESET.key w).pst = 1 ∨ (s.stored F.PMU_RESET.key w).pst = 5) :
    s.Writes i src F.PMU_RESET.key w ((s.stored F.PMU_RESET.key w).startUp kind inp) := by
  have hk := kind_of_reset hi
  refine State.writes_reset hi hkind ((State.wrPmuReset_of_ready hconf (by omega) hst).trans ?_)
  rw [hkind, if_neg (by omega)]

/-! RST_N (R472). -/

/-- RST_N low for 10 us or more is known to be held, draws nothing that matters, and acts by the power state. -/
theorem State.rstN_of_long {s v : State} {width : Nat} {inp : StartIn} (hwidth : 10000 ≤ width)
    (hv : v = { s with free := s.free + 1, sys.start.rstHeld := true }) : s.rstN width inp =
      if v.locked ∨ !v.sys.start.powered then v
      else if [pRIDE, pDRAIN, pRETENTION].contains v.pst then
        (v.incFld F.PMU_CNT_RSTIGN).record (occ bPMU Cause.pmu_RST_IGNORED)
      else if v.pst = pACTIVE ∨ v.pst = pSTANDBY then v.startUp 1 inp
      else v := by
  subst hv
  have hshort : ¬ width < 2000 := by omega
  have hrandom : ¬ (width < 10000 ∧ (!Config.rstActs s.free) = true) := by omega
  unfold State.rstN
  rw [if_neg hshort]
  exact if_neg hrandom

/-- The power state of a module that is not in LOCK is not LOCK's. -/
theorem State.locked_of_pst {s : State} (hst : s.pst ≠ 6) : s.locked = false := by
  by_contra hlock
  exact hst (if_pos (by simpa using hlock))

section

variable {s v : State} {width : Nat} {inp : StartIn} (hwidth : 10000 ≤ width)
  (hv : v = { s with free := s.free + 1, sys.start.rstHeld := true })
include hwidth hv

theorem State.rstN_of_locked (hlock : s.locked = true) : s.rstN width inp = v := by
  rw [State.rstN_of_long hwidth hv, if_pos (Or.inl (hv ▸ hlock))]

theorem State.rstN_of_powered (hpow : s.sys.start.powered = true) (hst : s.pst ≠ 6) : s.rstN width inp =
      if [pRIDE, pDRAIN, pRETENTION].contains s.pst then
        (v.incFld F.PMU_CNT_RSTIGN).record (occ bPMU Cause.pmu_RST_IGNORED)
      else if s.pst = pACTIVE ∨ s.pst = pSTANDBY then v.startUp 1 inp
      else v := by
  have hacts : ¬ (v.locked = true ∨ (!v.sys.start.powered) = true) := by
    simp [hv, State.locked_of_pst hst, hpow]
  have hpst : v.pst = s.pst := by rw [hv]; rfl
  rw [State.rstN_of_long hwidth hv, if_neg hacts, hpst]

theorem State.rstN_of_ready (hpow : s.sys.start.powered = true) (hst : s.pst = 1 ∨ s.pst = 5) :
    s.rstN width inp = v.startUp 1 inp := by
  rw [State.rstN_of_powered hwidth hv hpow (by omega)]
  rcases hst with hst | hst <;> rw [hst] <;> rfl

theorem State.rstN_of_riding (hpow : s.sys.start.powered = true) (hst : s.pst = 2 ∨ s.pst = 3 ∨ s.pst = 4) :
    s.rstN width inp = (v.incFld F.PMU_CNT_RSTIGN).record (occ bPMU Cause.pmu_RST_IGNORED) := by
  rw [State.rstN_of_powered hwidth hv hpow (by omega)]
  rcases hst with hst | hst | hst <;> rw [hst] <;> rfl

end

/-- Settles O57: each case is a branch of the write of PMU_RESET, or of RST_N held low. -/
theorem resetsActOrAreRefused : Obligations.ResetsActOrAreRefused := by
  rintro s _ src w inp rfl
  refine ⟨fun kind i hi hkind => ⟨fun hconf => ?unconfirmed, fun hconf h1 h5 => ?state, fun hconf hst => ?acts⟩, ?raw,
    fun width v hwidth hv => ⟨fun hlock => ?locked, fun hpow hst => ?ready, fun hpow hst => ?riding⟩⟩
  case unconfirmed => exact State.writes_reset hi hkind (State.wrPmuReset_of_unconfirmed hconf)
  case state =>
    have hk := kind_of_reset hi
    exact State.writes_reset hi hkind (State.wrPmuReset_of_state hconf (by omega) h1 h5)
  case acts => exact State.writes_reset_of_ready hi hkind hconf hst
  case raw =>
    rintro _ rfl
    refine ⟨fun hconf => ?_, fun hconf => ⟨fun hkind => ?_, fun hkind h1 h5 => ?_, fun hkind hst => ?_⟩⟩
    · exact State.writes_pmuReset (State.wrPmuReset_of_unconfirmed hconf)
    · exact State.writes_pmuReset (State.wrPmuReset_of_no_kind hconf hkind)
    · exact State.writes_pmuReset (State.wrPmuResetRaw_of_state hconf hkind h1 h5)
    · exact State.writes_pmuReset (State.wrPmuResetRaw_of_mc hconf hkind hst)
  case locked => exact congrArg Host.Outcome.next (State.rstN_of_locked hwidth hv hlock)
  case ready => exact congrArg Host.Outcome.next (State.rstN_of_ready hwidth hv hpow hst)
  case riding => exact congrArg Host.Outcome.next (State.rstN_of_riding hwidth hv hpow hst)

/-! PMU_CTL (R458, R466, R468). -/

/-- A bit among the lowest four is a digit of their number. -/
theorem wbit_of_wbits4 (w : Word) {i : Nat} (hi : i < 4) : wbit w i = decide (wbits w 0 4 / 2 ^ i % 2 = 1) := by
  have hlow : (w.toNat % 2 ^ 4).testBit i = w.toNat.testBit i := by
    rw [Nat.testBit_mod_two_pow, decide_eq_true hi, Bool.true_and]
  rw [← Nat.testBit_eq_decide_div_mod_eq, wbits, bitsOf, pow_zero, Nat.div_one, hlow]
  rfl

section

variable {s : State} {w : Word}

theorem State.wrPmuCtl_of_enter (hw : wbits w 0 4 = 1) : s.wrPmuCtl w = s.stbyEnter := by
  simp [State.wrPmuCtl, wbit_of_wbits4, hw]

theorem State.wrPmuCtl_of_exit (hw : wbits w 0 4 = 2) : s.wrPmuCtl w = s.stbyExit := by
  simp [State.wrPmuCtl, wbit_of_wbits4, hw]

theorem State.wrPmuCtl_of_captest (hw : wbits w 0 4 = 4) : s.wrPmuCtl w = s.capTest := by
  simp [State.wrPmuCtl, wbit_of_wbits4, hw]

theorem State.wrPmuCtl_of_capabort (hw : wbits w 0 4 = 8) : s.wrPmuCtl w = s.abortTest := by
  simp [State.wrPmuCtl, wbit_of_wbits4, hw]

theorem State.stbyEnter_of_ready (hst : s.pst = pACTIVE) (h3 : s.fld F.FWU_STS_STATE ≠ 3) (h5 : s.fld F.FWU_STS_STATE ≠ 5)
    (hidle : s.home.hoff.phase = .idle) (hcarried : s.bit F.PMU_STATE_RTAVAIL = true ∨ 2 ≤ s.goodFeeds) :
    s.stbyEnter = s.drain true := by
  have hready : ¬ (s.pst ≠ pACTIVE ∨ s.fld F.FWU_STS_STATE = 3 ∨ s.fld F.FWU_STS_STATE = 5) := by tauto
  have hfed : ¬ ((!s.bit F.PMU_STATE_RTAVAIL) = true ∧ s.goodFeeds < 2) := by
    rintro ⟨hrt, hgood⟩
    exact hcarried.elim (fun h => by simp [h] at hrt) (fun h => by omega)
  unfold State.stbyEnter
  rw [if_neg hready, if_neg (not_not.mpr hidle), if_neg hfed]

theorem State.stbyExit_of_ready (hst : s.pst = pSTANDBY) (hcool : s.sys.power.hot = false) :
    s.stbyExit = { s with sys.power.resuming := true } := if_neg (by simp [hst, hcool])

theorem State.capTest_of_full (hfeeds : 2 ≤ s.goodFeeds) (hpack : s.pack = 3) (hsoc : s.fld F.PMU_PACK_STS_SOC = 10000) :
    s.capTest = s.setPack 6 := if_neg (by omega)

theorem State.abortTest_of_testing (hpack : s.pack = 6) :
    s.abortTest = { s with sys.power.charged := false }.setPack (if s.sys.power.noCharge then 4 else 2) := if_pos hpack

end

/-- Settles O7: the write of PMU_CTL runs its one command, whose conditions hold; a reset is a write of PMU_RESET that acts. -/
theorem powerWritesComplete : Obligations.PowerWritesComplete := by
  rintro s _ _ src w inp rfl rfl
  refine ⟨fun hw hst h3 h5 hidle hcarried => ?enter, fun hw hst hcool => ?exit, fun hw hfeeds hpack hsoc => ?captest,
    fun hw hpack => ?capabort, fun hconf hst => ⟨fun hkind => ?module, fun hkind => ?warm⟩⟩
  case enter =>
    exact State.writes_of_trig rfl (by simp [wbit_of_wbits4, hw])
      ((State.wrPmuCtl_of_enter hw).trans (State.stbyEnter_of_ready hst h3 h5 hidle hcarried))
  case exit =>
    exact State.writes_of_trig rfl (by simp [wbit_of_wbits4, hw])
      ((State.wrPmuCtl_of_exit hw).trans (State.stbyExit_of_ready hst hcool))
  case captest =>
    exact State.writes_of_trig rfl (by simp [wbit_of_wbits4, hw])
      ((State.wrPmuCtl_of_captest hw).trans (State.capTest_of_full hfeeds hpack hsoc))
  case capabort =>
    exact State.writes_of_trig rfl (by simp [wbit_of_wbits4, hw])
      ((State.wrPmuCtl_of_capabort hw).trans (State.abortTest_of_testing hpack))
  case module => exact State.writes_reset_of_ready (by simp) hkind hconf hst
  case warm => exact State.writes_reset_of_ready (by simp) hkind hconf hst

end Sys2Proof.Machine

/-! CFG_CTL, FWU_CTL and FWU_CONFIRM (R490, R497 to R503): what their writes do. -/

namespace Sys2Proof.Machine

/-! CFG_CTL (R490): one command at a time. -/

section

variable {s : State} {w : Word}

theorem State.wrCfgCtl_of_start (hst : s.fld F.CFG_STS_STATE = 0 ∨ s.fld F.CFG_STS_STATE = 1) (hw : wbits w 0 4 = 1 ∨ wbits w 0 4 = 2) :
    s.wrCfgCtl w = s.startCheck w := by
  rcases hw with hw | hw <;> rcases hst with hst | hst <;>
    simp [State.wrCfgCtl, countIf, wbit_of_wbits4, hw, hst]

theorem State.wrCfgCtl_of_discard (hst : s.fld F.CFG_STS_STATE = 0 ∨ s.fld F.CFG_STS_STATE = 1) (hw : wbits w 0 4 = 8) :
    s.wrCfgCtl w = ({ s with sys.bank := { s.sys.bank with staged := [], lost := false } }.setFld F.CFG_STS_STAGED 0).setFld
      F.CFG_STS_STATE 0 := by
  rcases hst with hst | hst <;> simp [State.wrCfgCtl, countIf, wbit_of_wbits4, hw, hst]

theorem State.wrCfgCtl_of_cancel (hst : s.fld F.CFG_STS_STATE = 4) (hw : wbits w 0 4 = 4) :
    s.wrCfgCtl w = s.setFld F.CFG_STS_STATE (if s.sys.bank.wasEmpty then 0 else 1) := by
  simp [State.wrCfgCtl, countIf, wbit_of_wbits4, hw, hst]

end

/-- Settles O9: the write of CFG_CTL runs its one command, from a state that takes it. -/
theorem commitWritesComplete : Obligations.CommitWritesComplete := by
  rintro s _ src w rfl
  refine ⟨fun hst => ⟨fun hw => ?commit, fun hw => ?check, fun hw => ?discard⟩, fun hst hw => ?cancel⟩
  case commit => exact State.writes_of_trig rfl (by simp [wbit_of_wbits4, hw]) (State.wrCfgCtl_of_start hst (.inl hw))
  case check => exact State.writes_of_trig rfl (by simp [wbit_of_wbits4, hw]) (State.wrCfgCtl_of_start hst (.inr hw))
  case discard => exact State.writes_of_trig rfl (by simp [wbit_of_wbits4, hw]) (State.wrCfgCtl_of_discard hst hw)
  case cancel => exact State.writes_of_trig rfl (by simp [wbit_of_wbits4, hw]) (State.wrCfgCtl_of_cancel hst hw)

/-! FWU_CTL (R497, R498, R502). -/

/-- The state once an ERASE, PROGRAM or VERIFY is under way. -/
def State.opBegun (s : State) (op : Nat) : State := { s with sys.fwu.op := op }.setFld F.FWU_STS_BUSY 1

section

variable {s : State} {w : Word}

/-- An operation begins where none runs, no update runs, and PROGRAM names a page of the image. -/
theorem State.fwuOp_of_ready {op : Nat} (hupd : s.fwuSt ≠ uUPDATING) (htrial : s.fwuSt ≠ uTRIAL) (hrev : s.fwuSt ≠ uREVERTING)
    (hidle : s.bit F.FWU_STS_BUSY = false)
    (hpage : op = 2 → s.fld F.FWU_ADDR_OFFSET % 256 = 0 ∧ s.fld F.FWU_ADDR_OFFSET < imageSize) :
    s.fwuOp op = if op = 1 then
        (s.opBegun op).modSlot (s.opBegun op).target fun c => c.putBoot { c.boot with state := 0, once := false }
      else s.opBegun op := by
  have hready : ¬ (s.fwuSt = uUPDATING ∨ s.fwuSt = uTRIAL ∨ s.fwuSt = uREVERTING ∨ s.bit F.FWU_STS_BUSY = true
      ∨ (op = 2 ∧ (s.fld F.FWU_ADDR_OFFSET % 256 ≠ 0 ∨ imageSize ≤ s.fld F.FWU_ADDR_OFFSET))) := by
    rintro (h | h | h | h | ⟨h2, h⟩)
    · exact hupd h
    · exact htrial h
    · exact hrev h
    · rw [hidle] at h; cases h
    · have := hpage h2; omega
  exact if_neg hready

theorem State.wrFwuCtlRaw_of_op {op : Nat} (hgo : wbit w 4 = true) (hw : wbits w 0 4 = op) (hop : 1 ≤ op ∧ op ≤ 3) :
    s.wrFwuCtlRaw w = { s with free := s.free + 2 }.fwuOp op := by
  simp only [State.wrFwuCtlRaw, State.wrFwuCtl, hgo, hw, hop, Bool.not_true, Bool.false_eq_true, and_self, if_false, if_true]

theorem State.wrFwuCtl_of_start {inp : StartIn} (hgo : wbit w 4 = true) (hw : wbits w 0 4 = 4) :
    s.wrFwuCtl w inp = s.fwuStart w inp := by
  simp [State.wrFwuCtl, hgo, hw]

theorem State.wrFwuCtlRaw_of_revert (hgo : wbit w 4 = true) (hw : wbits w 0 4 = 5) :
    s.wrFwuCtlRaw w = { s with free := s.free + 2 }.fwuRevert := by
  simp [State.wrFwuCtlRaw, State.wrFwuCtl, hgo, hw]

/-- START of a verified image whose sequence is sound begins the update at step 1. -/
theorem State.fwuStart_of_verified {inp : StartIn} (hwarm : wbit w 5 = false) (hcfg : wbit w 6 = false)
    (hidle : s.bit F.FWU_STS_BUSY = false) (hver : s.fwuSt = uVERIFIED) (hst : s.pst = pACTIVE)
    (hhoff : s.home.hoff.phase = .idle) (hbank : s.fld F.CFG_STS_STATE ≤ 1)
    (hseq : sequenceOk (s.nvSlot s.booted) (s.nvSlot s.target) = true) : s.fwuStart w inp =
      (({ s with sys.fwu.failed := false }.setFwu uUPDATING).setFld F.FWU_STS_RESULT 0).beginStep 1 := by
  have hready : ¬ (wbit w 6 = true ∨ s.fwuSt ≠ uVERIFIED ∨ s.pst ≠ pACTIVE ∨ s.home.hoff.phase ≠ .idle
      ∨ 1 < s.fld F.CFG_STS_STATE) := by
    simp [hcfg, hver, hst, hhoff, hbank]
  unfold State.fwuStart
  rw [hidle, hwarm, hseq, if_neg hready]
  rfl

theorem State.fwuRevert_of_trial (htrial : s.fwuSt = uTRIAL) (hup : s.dataUp = true) :
    s.fwuRevert = ({ s with sys.fwu.failed := false }.setFwu uREVERTING).beginStep 11 := if_neg (by simp [htrial, hup])

/-- The update's confirmation (R501, R503). -/
theorem State.confirm_of_trial {fail : Bool} (hgo : wbit w 0 = true) (hkey : wbits w 16 16 = 0xF1C0) (htrial : s.fwuSt = uTRIAL) :
    s.confirm w fail =
      ((((((((s.modSlot s.target fun c => c.withState 3).raiseFloor (s.nvSlot s.target).svn fail).fusesOut
        (s.nvSlot s.target).svn).record (occ bFWU Cause.fwu_CONFIRMED)).setFwu uIDLE).setFld F.FWU_STS_NOFALL 0).setFld
          F.FWU_BOOT_SLOT (b2n s.target)).setFld F.FWU_STS_TARGET (b2n !s.target)) :=
  if_neg (by simp [hgo, hkey, htrial])

end

/-- Settles O10: each write names an operation whose conditions hold. -/
theorem updateWritesComplete : Obligations.UpdateWritesComplete := by
  rintro s _ _ src w inp rfl hgo rfl
  have htrig {op : Nat} (hw : wbits w 0 4 = op) : (wbit w 4 && decide (wbits w 0 4 = op)) = true := by simp [hgo, hw]
  refine ⟨fun hupd htrial hrev hidle => ⟨?erase, fun hw halign hin => ?program, fun hw => ?verify⟩,
    fun hw hwarm hcfg hidle hver hst hhoff hbank hseq => ?start, fun hw htrial hup => ?revert, ?confirm⟩
  case erase =>
    rintro _ hw rfl
    exact State.writes_of_trig rfl (htrig hw) ((State.wrFwuCtlRaw_of_op hgo hw (by decide)).trans
      (State.fwuOp_of_ready hupd htrial hrev hidle fun h => absurd h (by decide)))
  case program =>
    exact State.writes_of_trig rfl (htrig hw) ((State.wrFwuCtlRaw_of_op hgo hw (by decide)).trans
      (State.fwuOp_of_ready hupd htrial hrev hidle fun _ => ⟨halign, hin⟩))
  case verify =>
    exact State.writes_of_trig rfl (htrig hw) ((State.wrFwuCtlRaw_of_op hgo hw (by decide)).trans
      (State.fwuOp_of_ready hupd htrial hrev hidle fun h => absurd h (by decide)))
  case start =>
    have hphase : (s.stored F.FWU_CTL.key w).home.hoff.phase = .idle := by rwa [State.stored_home]
    exact State.writes_of_trig rfl (htrig hw) ((State.wrFwuCtl_of_start hgo hw).trans
      (State.fwuStart_of_verified hwarm hcfg hidle hver hst hphase hbank hseq))
  case revert =>
    exact State.writes_of_trig rfl (htrig hw) ((State.wrFwuCtlRaw_of_revert hgo hw).trans (State.fwuRevert_of_trial htrial hup))
  case confirm =>
    rintro fail k _ _ hgo hkey rfl htrial rfl
    exact State.writes_of_put rfl (State.confirm_of_trial hgo hkey htrial)

end Sys2Proof.Machine

/-! The boot record and its two copies (R482, R483). -/

namespace Sys2Proof.Machine

theorem BootCopy.length_bytes (r : BootCopy) : r.bytes.length = 60 := by
  simp [BootCopy.bytes]

/-- The CRC of a copy does not cover itself. -/
theorem BootCopy.bytes_crc (r : BootCopy) (crc : BitVec 32) : ({ r with crc := crc } : BootCopy).bytes = r.bytes := rfl

theorem BootCopy.valid_iff (r : BootCopy) : r.valid = true ↔ r.magic = 0x5254425A ∧ crc32c r.bytes = r.crc := by
  rw [BootCopy.valid, Bool.and_eq_true, decide_eq_true_eq, decide_eq_true_eq]
  rfl

/-- A record is written with its MAGIC and its CRC. -/
theorem Boot.copy_valid (b : Boot) : b.copy.valid = true := (BootCopy.valid_iff _).mpr ⟨rfl, rfl⟩

/-- A copy says what was written, where it fits its fields. -/
theorem Boot.copy_boot {b : Boot} (hstate : b.state < 4) (hseq : b.seq < 2 ^ 32) (hgen : b.gen < 2 ^ 32) : b.copy.boot = b := by
  have h2 : b.state % 2 ^ 2 = b.state := Nat.mod_eq_of_lt hstate
  simp only [Boot.copy, BootCopy.boot, BitVec.toNat_ofNat, h2, Nat.mod_eq_of_lt hseq, Nat.mod_eq_of_lt hgen]

section

variable {c : Slot}

theorem Slot.boot_of_copy0 (h0 : c.copy0.valid = true) : c.boot = c.copy0.boot := by
  simp only [Slot.boot, Slot.bootCopy, h0, if_true]

theorem Slot.boot_of_copy1 (h0 : c.copy0.valid = false) (h1 : c.copy1.valid = true) : c.boot = c.copy1.boot := by
  simp only [Slot.boot, Slot.bootCopy, h0, h1, Bool.false_eq_true, if_false, if_true]

theorem Slot.boot_of_invalid (h0 : c.copy0.valid = false) (h1 : c.copy1.valid = false) : c.boot.state = 0 := by
  simp only [Slot.boot, Slot.bootCopy, h0, h1, Bool.false_eq_true, if_false]

end

/-- Settles O60: copy 0 applies where it is valid, and what is written is valid. -/
theorem bootRecordCopies : Obligations.BootRecordCopies := by
  intro c b r hstate hseq hgen
  have hboot : b.copy.boot = b := Boot.copy_boot hstate hseq hgen
  have hwritten {d : Slot} (h : d.copy0 = b.copy) : d.boot = b := by
    rw [Slot.boot_of_copy0 (h ▸ b.copy_valid), h, hboot]
  exact ⟨r.length_bytes, r.valid_iff, Slot.boot_of_copy0, Slot.boot_of_copy1, Slot.boot_of_invalid, b.copy_valid, hwritten rfl,
    hwritten rfl, fun h1 hr => Slot.boot_of_copy1 (c := { c with copy0 := r }) hr h1, fun _ => hwritten rfl⟩

end Sys2Proof.Machine

/-! Feeds, power states and the hold-up pack (R449 to R477): what their events do. -/

namespace Sys2Proof.Machine

section

variable {s u v : State} {f : Feed} {mv : Nat}

/-! Feeds (R449 to R451, R462). -/

theorem State.feedGood_of_rising (hst : s.fld (feedFld f) ≠ 2) (hmv : 11200 ≤ mv)
    (hu : u = (s.setFld (feedFld f) 2).setFld (feedVolt f) (min mv 65535)) : s.feedGood f mv =
      if u.pst ≠ 2 then u else if u.rideOver then u.drain false else { u with sys.power.backAt := some s.now }.setPst 1 := by
  subst hu
  exact if_neg (not_or.mpr ⟨hst, Nat.not_lt.mpr hmv⟩)

/-- A feed that leaves GOOD is recorded and ends a capacity test; where no feed is left GOOD, input is lost. -/
theorem State.feedTo_of_leaving {st : Nat} (hgood : s.fld (feedFld f) = 2) (hpow : s.sys.start.powered = true)
    (hu : u = (((s.setFld (feedFld f) st).setFld (feedVolt f) (min mv 65535)).record (occ bPMU (feedCause f))).abortTest) :
    s.feedTo f st mv = if u.inputGood then u else u.inputLost := by
  subst hu
  exact if_neg (by simp [hgood, hpow])

theorem State.feedLow_of_good (hgood : s.fld (feedFld f) = 2) (hmv : mv < 10800) : s.feedLow f mv = s.feedTo f 1 mv :=
  if_pos (.inl ⟨hgood, hmv⟩)

theorem State.feedAbsent_of_good (hgood : s.fld (feedFld f) = 2) (hmv : mv < 6000) : s.feedAbsent f mv = s.feedTo f 0 mv :=
  if_pos ⟨by omega, hmv⟩

theorem State.overcurrent_of_powered (hpow : s.sys.start.powered = true) :
    s.overcurrent f = (s.setCut f true).record (occ bPMU Cause.pmu_FEED_OVERCURRENT) := if_pos hpow

/-! Power states (R462, R465, R470, R472, R477). -/

theorem State.rideExpiry_of_over {short : Bool} (hst : s.pst = 2)
    (hover : short = true ∨ s.sys.power.windowAt + s.fld F.PMU_CFG_RIDE_MS * 1000000 ≤ s.now) :
    s.rideExpiry short = s.drain false := if_pos ⟨hst, hover⟩

theorem State.drainDone_of_drained (hst : s.pst = 3) (hres : s.sys.power.resuming = false) : s.drainDone =
      if !s.inputGood then
        ({ ((s.saveShelf.holdAll fun _ => true).breakAll.portsDown) with
          sys.power.retAt := ((s.saveShelf.holdAll fun _ => true).breakAll.portsDown).now }.setPst 4).incFld F.PMU_CNT_RETENTIONS
      else if s.sys.power.toStby then s.saveShelf.setPst 5
      else { s with sys.power.resuming := true } := by
  refine if_neg ?_
  rintro (h | h)
  · exact h hst
  · rw [hres] at h; cases h

theorem State.returnMs_of_good (hst : s.pst = 4) (hgood : s.fld (feedFld f) = 2) :
    s.returnMs f = { s with sys.power.resuming := true } := if_pos ⟨hst, hgood⟩

theorem State.exhausted_of_no_input (hst : s.pst = 4) (hin : s.inputGood = false) : s.exhausted = s.powerOff 2 s.retSeconds :=
  if_pos ⟨hst, by simp [hin]⟩

theorem State.pmuRestart_of_powered (hpow : s.sys.start.powered = true) : s.pmuRestart =
    s.recordDom (pairKey bPMU Cause.pmu_PMU_RESTART) 50000000 (occ bPMU Cause.pmu_PMU_RESTART) := if_pos hpow

theorem State.islandFault_of_powered (hpow : s.sys.start.powered = true) (hlock : s.locked = false) :
    s.islandFault = (s.record (occ bPMU Cause.pmu_ISLAND_FAULT)).enterLock := if_pos ⟨hpow, by simp [hlock]⟩

theorem State.cycleOut_of_dark (hlock : s.locked = true) (ha : s.fld F.PMU_STATE_FEEDA = 0) (hb : s.fld F.PMU_STATE_FEEDB = 0) :
    s.cycleOut = s.powerOff 4 0 := if_pos ⟨hlock, ha, hb⟩

end

/-- Settles O29: each event's conditions choose the branch of its function. -/
theorem powerEventsComplete : Obligations.PowerEventsComplete := by
  intro s u f mv
  refine ⟨fun hst hmv hu => ?good, ?leaves, fun hpow => ?cutback, rfl, fun short hst hover => ?ride,
    fun hst hres hin hu => ?retention, fun hst hres hin hstby => ?standby, fun hst hgood => ?returns, fun hst hin => ?exhausted,
    fun hpow => ?restart, fun hpow hlock => ?island, fun hlock ha hb => ?cycle⟩
  case good => exact congrArg Host.Outcome.next (State.feedGood_of_rising hst hmv hu)
  case leaves =>
    intro hgood hpow i st hi hlow habsent hu
    simp only [List.mem_cons, Prod.mk.injEq, List.not_mem_nil, or_false] at hi
    rcases hi with ⟨rfl, rfl⟩ | ⟨rfl, rfl⟩
    · exact congrArg Host.Outcome.next ((State.feedLow_of_good hgood hlow).trans (State.feedTo_of_leaving hgood hpow hu))
    · exact congrArg Host.Outcome.next
        ((State.feedAbsent_of_good hgood (habsent rfl)).trans (State.feedTo_of_leaving hgood hpow hu))
  case cutback => exact congrArg Host.Outcome.next (State.overcurrent_of_powered hpow)
  case ride => exact congrArg Host.Outcome.next (State.rideExpiry_of_over hst hover)
  case retention =>
    subst hu
    exact congrArg Host.Outcome.next ((State.drainDone_of_drained hst hres).trans (if_pos (by simp [hin])))
  case standby =>
    refine congrArg Host.Outcome.next ((State.drainDone_of_drained hst hres).trans ?_)
    rw [hin, hstby]
    rfl
  case returns => exact congrArg Host.Outcome.next (State.returnMs_of_good hst hgood)
  case exhausted => exact congrArg Host.Outcome.next (State.exhausted_of_no_input hst hin)
  case restart => exact congrArg Host.Outcome.next (State.pmuRestart_of_powered hpow)
  case island => exact congrArg Host.Outcome.next (State.islandFault_of_powered hpow hlock)
  case cycle => exact congrArg Host.Outcome.next (State.cycleOut_of_dark hlock ha hb)

/-! The hold-up pack (R454 to R461). -/

section

variable {s u v x y : State}

/-- The estimate of RTAVAIL: its fall in ACTIVE is recorded. -/
theorem State.rtUpdate_of_powered {loadW soc vmv fcc : Nat} {ip : Int} (hpow : s.sys.start.powered = true)
    (hu : u = ((s.setFld F.PMU_PACK_STS_VPACK (min vmv 65535)).setFld F.PMU_PACK_STS_IPACK (satSigned 16 ip)).setFld
      F.PMU_PACK_STS_SOC (min soc 10000))
    (hv : v = if u.chem = 2 then u.setFld F.PMU_PACK_EST_FCC (min fcc 65535) else u)
    (hx : x = (v.setFld F.PMU_PACK_EST_RTNEED (min 65535 (v.rtNeed loadW / 360000))).setFld F.PMU_PACK_EST_RETMIN
      (min 65535 (v.packEnergy / (max 1 v.dimms * 750000))))
    (hy : y = x.setFld F.PMU_STATE_RTAVAIL (b2n (x.rtAvail loadW))) :
    s.rtUpdate loadW soc vmv ip fcc = if x.bit F.PMU_STATE_RTAVAIL = true ∧ x.rtAvail loadW = false ∧ y.pst = 1
      then y.record (occ bPMU Cause.pmu_RT_UNAVAIL) else y := by
  unfold State.rtUpdate
  simp only [hpow, Bool.not_true, Bool.false_eq_true, if_false, ← hu, ← hv, ← hx, ← hy, Bool.not_eq_true']
  rfl

theorem State.capDone_of_testing {e fcc soh : Nat} (hpack : s.pack = 6) (hfcc : fcc = min e 65535)
    (hsoh : soh = min 1023 (fcc * 100 / max 1 (s.fld F.PMU_PACK_CFG_DESIGN_WH)))
    (hu : u = (((s.setFld F.PMU_PACK_EST_FCC fcc).setFld F.PMU_PACK_EST_SOH soh).setFld F.PMU_PACK_STS_SOC 0).record
      { occ bPMU Cause.pmu_CAPTEST_DONE with txid := fcc / 10 }) :
    s.capDone e = if soh < 10 * u.fld F.PMU_PACK_CFG_EOL_PCT
      then (u.record (occ bPMU Cause.pmu_PACK_EOL)).abortTest else u.abortTest := by
  unfold State.capDone
  simp only [hpack, ne_eq, not_true, if_false, ← hfcc, ← hsoh, ← hu]
  exact apply_ite State.abortTest _ _ _

theorem State.packTemp_of_normal {temp : Int} (hpow : s.sys.start.powered = true) (hchem : s.chem ≠ 0)
    (hband : packBand s.chem temp = .normal)
    (hu : u = { s.setFld F.PMU_PACK_STS_TEMP (satSigned 8 temp) with sys.power.noCharge := false }) :
    s.packTemp temp true = if u.pack = 4 then u.setPack (if s.sys.power.charged then 3 else 2) else u := by
  have hread : ¬ ((!s.sys.start.powered) = true ∨ s.chem = 0) := by simp [hpow, hchem]
  subst hu
  unfold State.packTemp
  rw [if_neg hread]
  simp only [if_true, hband]
  rfl

/-- The gauge is polled while it is fitted and has not been given up. -/
theorem State.gaugePoll_of_polled {answered alarm : Bool} (hpow : s.sys.start.powered = true)
    (hgauge : s.bit F.PMU_PACK_CFG_GAUGE = true) (hon : s.sys.power.gaugeOff = false) : s.gaugePoll answered alarm =
      if answered then
        if alarm then { s with sys.power.gaugeMiss := 0 }.packFault else { s with sys.power.gaugeMiss := 0 }
      else if s.sys.power.gaugeMiss + 1 < 3 then { s with sys.power.gaugeMiss := s.sys.power.gaugeMiss + 1 }
      else { s with sys.power.gaugeMiss := s.sys.power.gaugeMiss + 1, sys.power.gaugeOff := true }.record
        (occ bPMU Cause.pmu_GAUGE_LOST) :=
  if_neg (by simp [hpow, hgauge, hon])

theorem State.chargeEnd_of_charging (hpack : s.pack = 2) (hcool : s.sys.power.noCharge = false)
    (hu : u = { s with sys.power.charged := true }.setFld F.PMU_PACK_STS_SOC 10000) :
    s.chargeEnd = if u.pack = 2 then u.setPack 3 else u := by
  subst hu
  exact if_pos ⟨.inl hpack, by simp [hcool]⟩

theorem State.chargeAgain_of_low (hchem : s.chem = 1) (hcharged : s.sys.power.charged = true)
    (hsoc : s.fld F.PMU_PACK_STS_SOC < 9700) (hpack : s.pack = 3) :
    s.chargeAgain = { s with sys.power.charged := false }.setPack 2 :=
  (if_pos ⟨hchem, hcharged, hsoc⟩).trans (if_pos hpack)

theorem State.packCheck_of_good {full : Bool} (hpack : s.pack = 1) (hpow : s.sys.start.powered = true) (hchem : s.chem ≠ 0)
    (hu : u = { s with sys.power.charged := full, sys.power.noDischarge := false }) :
    s.packCheck true true true true false full = u.setPack (if s.sys.power.noCharge then 4 else if full then 3 else 2) := by
  subst hu
  simp [State.packCheck, hpack, hpow, hchem]

theorem State.packCheck_of_missing {full r : Bool} (hpack : s.pack = 1) (hpow : s.sys.start.powered = true) :
    s.packCheck false r r r r full = s.setPack 0 := by
  simp [State.packCheck, hpack, hpow]

end

/-- Settles O30: each event's conditions choose the branch of its function. -/
theorem packEventsComplete : Obligations.PackEventsComplete := by
  intro s u v
  refine ⟨fun loadW soc vmv fcc ip x y hpow hu hv hx hy => ?estimate, fun e fcc soh hpack hfcc hsoh hu => ?captest,
    fun temp hpow hchem hband hu => ?temp, fun hpow hgauge hon => ⟨?answered, fun a b hab => ?alarm, fun hmiss a b => ?lost⟩,
    fun hpack hcool hu => ?full, fun hchem hcharged hsoc hpack => ?again,
    fun full hpack hpow hchem hu => ⟨?check, fun r => ?missing⟩⟩
  case estimate => exact congrArg Host.Outcome.next (State.rtUpdate_of_powered hpow hu hv hx hy)
  case captest => exact congrArg Host.Outcome.next (State.capDone_of_testing hpack hfcc hsoh hu)
  case temp => exact congrArg Host.Outcome.next (State.packTemp_of_normal hpow hchem hband hu)
  case answered => exact congrArg Host.Outcome.next (State.gaugePoll_of_polled hpow hgauge hon)
  case alarm =>
    refine congrArg Host.Outcome.next ((State.gaugePoll_of_polled hpow hgauge hon).trans ?_)
    rw [if_pos rfl, if_pos (by simpa using hab)]
  case lost =>
    refine congrArg Host.Outcome.next ((State.gaugePoll_of_polled hpow hgauge hon).trans ?_)
    rw [if_neg Bool.false_ne_true, if_neg (by omega)]
  case full => exact congrArg Host.Outcome.next (State.chargeEnd_of_charging hpack hcool hu)
  case again => exact congrArg Host.Outcome.next (State.chargeAgain_of_low hchem hcharged hsoc hpack)
  case check => exact congrArg Host.Outcome.next (State.packCheck_of_good hpack hpow hchem hu)
  case missing => exact congrArg Host.Outcome.next (State.packCheck_of_missing hpack hpow)

end Sys2Proof.Machine

/-! Cages (R537 to R543): what the insertion sequence, its faults and a CMIS transfer's end do. -/

namespace Sys2Proof.Machine

section

variable {s u v : State} {n : Nat}

/-! The insertion sequence (R538, R539). -/

theorem State.presence_of_empty {i : CmisInfo} (hlive : s.cagesLive = true) (hinfo : (s.cage n).info = none) :
    s.presence n i = s.cageInsert n i := if_neg (by simp [hlive, hinfo])

theorem State.moduleReady_of_waiting {i : CmisInfo} (hlive : s.cagesLive = true) (hinfo : (s.cage n).info = some i)
    (hstep : (s.cage n).step = 7) : s.moduleReady n =
      if i.appsel = 0 then s.cageFault n 3
      else (s.setFld (F.CAGE_ID_APPSEL n) i.appsel.toNat).setCage n { s.cage n with step := 8, since := s.now } := by
  simp only [State.moduleReady, hinfo, hlive, hstep, Bool.not_true, Bool.false_eq_true, ne_eq, not_true, or_self, if_false]
  rfl

theorem State.dpActivated_of_waiting (hlive : s.cagesLive = true) (hstep : (s.cage n).step = 8) :
    s.dpActivated n = s.setCage n { s.cage n with step := 9, since := s.now } := if_pos ⟨hlive, hstep⟩

/-- A step that is not answered in time fails with its own fault. -/
theorem State.cageTimeout_of_late (hlive : s.cagesLive = true) (hlate : (s.cage n).since + 2000000000 ≤ s.now) :
    s.cageTimeout n = if (s.cage n).step = 3 then s.cageFault n 5
      else if (s.cage n).step = 7 ∨ (s.cage n).step = 8 then s.cageFault n 4 else s := if_neg (by simp [hlive, hlate])

theorem State.cmisPoll_of_ready {temp : Int} {int high los : Bool} (hlive : s.cagesLive = true) (hst : s.cageSt n = 4)
    (hu : u = (s.setFld (F.CAGE_STS_TEMP n) (satSigned 8 temp)).setFld (F.CAGE_STS_INT n) (b2n int)) :
    s.cmisPoll n temp int high los = if high = true then u.cageFault n 6
      else if los = true then (cagePorts u.portMode n).foldl (fun s p => s.loseLink p) u else u := by
  subst hu
  exact if_neg (not_or.mpr ⟨by simp [hlive], not_not.mpr hst⟩)

theorem State.cageOver_of_lit (hlive : s.cagesLive = true) (hinfo : (s.cage n).info ≠ none) (hlo : 1 ≤ s.cageSt n)
    (hhi : s.cageSt n ≤ 4 ∨ s.cageSt n = 7) : s.cageOver n = s.cageFault n 1 :=
  if_pos ⟨hlive, Option.isSome_iff_ne_none.mpr hinfo, hhi.imp (fun h => ⟨hlo, h⟩) id⟩

/-! Presence lost (R540): the link causes are of a cage that was powered. -/

theorem State.presenceLost_of_dark (hpow : s.sys.start.powered = true) (hinfo : (s.cage n).info ≠ none)
    (hst : s.cageSt n = 5 ∨ s.cageSt n = 6) (hu : u = (s.cageOff n).setCage n { (s.cageOff n).cage n with info := none })
    (hhost : u.bit (F.CAGE_CTL_HOSTOWN n) = false) : s.presenceLost n = u.cageStart n := by
  have hplugged : ¬ ((s.cage n).info.isNone = true ∨ (!s.sys.start.powered) = true) := by simp [hinfo, hpow]
  have hdark : (decide (1 ≤ s.cageSt n) && decide (s.cageSt n ≤ 4) || decide (s.cageSt n = cHOSTOWN)) = false := by
    rcases hst with hst | hst <;> rw [hst] <;> rfl
  unfold State.presenceLost
  rw [if_neg hplugged]
  simp only [hdark, Bool.false_eq_true, false_and, if_false, ← hu, hhost]

/-! The end of a CMIS transfer (R541, R543). -/

theorem State.cmisDone_of_no_ack {d : Word} (hbusy : s.bit (F.CAGE_CMIS_CTL_BUSY n) = true)
    (hu : u = s.setFld (F.CAGE_CMIS_CTL_BUSY n) 0) : s.cmisDone n true d = u.setFld (F.CAGE_CMIS_CTL_RESULT n) 1 := by
  subst hu
  simp only [State.cmisDone, hbusy, Bool.not_true, Bool.false_eq_true, if_false, true_or, if_true]

theorem State.cmisDone_of_read {d m : Word} (hbusy : s.bit (F.CAGE_CMIS_CTL_BUSY n) = true)
    (hu : u = s.setFld (F.CAGE_CMIS_CTL_BUSY n) 0) (hinfo : (s.cage n).info ≠ none)
    (hv : v = u.setFld (F.CAGE_CMIS_CTL_RESULT n) 0) (hread : v.bit (F.CAGE_CMIS_CTL_WRITE n) = false)
    (hm : m = ones64 (8 * v.fld (F.CAGE_CMIS_CTL_LEN n))) : s.cmisDone n false d =
      v.setReg (F.CAGE_CMIS_DATA n).key ((v.reg (F.CAGE_CMIS_DATA n).key &&& ~~~m) ||| (d &&& m)) := by
  have hacked : ¬ (false = true ∨ (u.cage n).info.isNone = true) := by
    have hcage : u.cage n = s.cage n := by rw [hu]; rfl
    simp [hcage, hinfo]
  simp only [State.cmisDone, hbusy, Bool.not_true, Bool.false_eq_true, if_false, ← hu]
  rw [if_neg (by simpa using hacked), ← hv, hread, ← hm]
  rfl

end

/-- A command of a cage that the module has acts by its function. -/
theorem cage_outcome {n : Nat} {t t' : State} (hn : n < 8) (h : t = t') :
    (if 8 ≤ n then Host.Outcome.fault Fault.noSuchUnit else .next t : Host.Outcome State Fault Refusal) = .next t' :=
  (if_neg (Nat.not_le.mpr hn)).trans (congrArg Host.Outcome.next h)

/-- Settles O33: each event's conditions choose the branch of its function. -/
theorem cageEventsComplete : Obligations.CageEventsComplete := by
  intro s u n hn
  refine ⟨fun hlive => ⟨fun i hinfo => ?presence, fun i hinfo hstep => ?ready, fun hstep => ?activated,
    fun hlate => ⟨fun hstep => ?cmis, fun hstep => ?timeout⟩, fun temp int high los hst hu => ?poll,
    fun hinfo hlo hhi => ?current⟩, fun hpow hinfo hst hu hhost => ?lost,
    fun hbusy hu => ⟨fun d => ?noAck, fun d m v hinfo hv hread hm => ?done⟩⟩
  case presence => exact cage_outcome hn (State.presence_of_empty hlive hinfo)
  case ready => exact cage_outcome hn (State.moduleReady_of_waiting hlive hinfo hstep)
  case activated => exact cage_outcome hn (State.dpActivated_of_waiting hlive hstep)
  case cmis => exact cage_outcome hn ((State.cageTimeout_of_late hlive hlate).trans (if_pos hstep))
  case timeout =>
    exact cage_outcome hn ((State.cageTimeout_of_late hlive hlate).trans ((if_neg (by omega)).trans (if_pos hstep)))
  case poll => exact cage_outcome hn (State.cmisPoll_of_ready hlive hst hu)
  case current => exact cage_outcome hn (State.cageOver_of_lit hlive hinfo hlo hhi)
  case lost => exact cage_outcome hn (State.presenceLost_of_dark hpow hinfo hst hu hhost)
  case noAck => exact cage_outcome hn (State.cmisDone_of_no_ack hbusy hu)
  case done => exact cage_outcome hn (State.cmisDone_of_read hbusy hu hinfo hv hread hm)

end Sys2Proof.Machine

/-! Operations and steps of an update, and the transfers of Hoop mode (R497, R498, R502, R505, R506). -/

namespace Sys2Proof.Machine

section

variable {s u : State}

/-! ERASE, PROGRAM and VERIFY end (R497). -/

theorem State.fwuOpDone_of_erase (hbusy : s.bit F.FWU_STS_BUSY = true) (hcsr : s.csrUp = true) (hop : s.sys.fwu.op = 1)
    (hu : u = { s with sys.fwu.op := 0 }.setFld F.FWU_STS_BUSY 0) : s.fwuOpDone false =
      ((u.setSlotRec u.target (emptySlot.putBoot ⟨0, (u.nvSlot u.target).seq, false, false, 0⟩)).setFwu 0).setFld
        F.FWU_STS_RESULT 0 := by
  subst hu
  simp only [State.fwuOpDone, hop, hbusy, hcsr, Nat.one_ne_zero, Bool.not_true, Bool.false_eq_true, or_self, false_and, if_false,
    if_true]
  rfl

theorem State.fwuOpDone_of_program (hbusy : s.bit F.FWU_STS_BUSY = true) (hcsr : s.csrUp = true) (hop : s.sys.fwu.op = 2)
    (hu : u = { s with sys.fwu.op := 0 }.setFld F.FWU_STS_BUSY 0) : s.fwuOpDone false =
      ((u.modSlot u.target fun c => c.putPage (u.fld F.FWU_ADDR_OFFSET / 256) u.fwuPage).setFwu 1).setFld F.FWU_STS_RESULT 0 := by
  subst hu
  simp only [State.fwuOpDone, hop, hbusy, hcsr, OfNat.ofNat_ne_zero, OfNat.ofNat_ne_one, Bool.not_true, Bool.false_eq_true,
    or_self, false_and, if_false, if_true]
  rfl

theorem State.fwuOpDone_of_failed_verify (hbusy : s.bit F.FWU_STS_BUSY = true) (hcsr : s.csrUp = true) (hop : s.sys.fwu.op = 3)
    (hu : u = { s with sys.fwu.op := 0 }.setFld F.FWU_STS_BUSY 0) (hbad : u.verifyTarget ≠ 0) :
    s.fwuOpDone false = u.setFld F.FWU_STS_RESULT u.verifyTarget := by
  subst hu
  simp only [State.fwuOpDone, hop, hbusy, hcsr, OfNat.ofNat_ne_zero, OfNat.ofNat_ne_one, Nat.reduceEqDiff, Bool.not_true,
    Bool.false_eq_true, or_self, false_and, if_false]
  exact if_pos hbad

/-! Steps of an update (R498, R502). -/

theorem State.updateStep_of_done (hup : s.dataUp = true) (hst : s.fwuSt = 3) (hn : s.fld F.FWU_STS_STEP ≠ 0)
    (hlast : s.fld F.FWU_STS_STEP < 12) (hdone : s.stepDone (s.fld F.FWU_STS_STEP) = true) :
    s.updateStep = s.beginStep (s.stepAfter (s.fld F.FWU_STS_STEP)) := by
  simp [State.updateStep, hup, hst, hn, hlast, hdone, uREVERTING, uUPDATING]

theorem State.stepFail_of_late (hup : s.dataUp = true) (hst : s.fwuSt = 3)
    (hlate : s.sys.fwu.stepAt + stepBound (s.fld F.FWU_STS_STEP) ≤ s.now)
    (hu : u = ({ s with sys.fwu.failed := true }.setFwu 5).setFld F.FWU_STS_RESULT 11) :
    s.stepFail = (u.record (occ bFWU Cause.fwu_STEP_FAIL)).beginStep (min (s.fld F.FWU_STS_STEP) 11) := by
  subst hu
  exact if_neg (by simp [hst, hup, hlate, uUPDATING])

/-! Hoop mode (R505, R506). -/

@[simp] theorem State.sendMgt_fwu (s : State) (o : MgtOut) : (s.sendMgt o).sys.fwu = s.sys.fwu := rfl

/-- Answers that are sent leave the update alone. -/
theorem State.foldl_sendMgt_fwu {α : Type} (f : α → MgtOut) (l : List α) (s : State) :
    (l.foldl (fun s x => s.sendMgt (f x)) s).sys.fwu = s.sys.fwu := by
  induction l generalizing s with
  | nil => rfl
  | cons x l ih => exact (ih _).trans (s.sendMgt_fwu _)

variable {ip : BitVec 32} {port : BitVec 16} {mode : String}

/-- A bundle that is not too long is kept where it verifies, and RESULT says so. -/
theorem State.wrq_of_bundle {bundle : List Byte} (hhoop : s.inHoop = true) (hmode : octet mode = true)
    (hlen : bundle.length ≤ imageSize) : ∃ w : State, w.sys.fwu = s.sys.fwu ∧ s.wrq ip port "recovery" mode bundle = { w with
      sys.fwu := { w.sys.fwu with
        outcome := if (bundleSlot bundle).imageResult w.sys.fwu.floor = 0 then 1
          else (bundleSlot bundle).imageResult w.sys.fwu.floor
        bundle := if (bundleSlot bundle).imageResult w.sys.fwu.floor = 0 then bundle else []
        peer := none } } := by
  unfold State.wrq
  simp only [hhoop, hmode, Nat.not_lt.mpr hlen, Bool.not_true, Bool.false_eq_true, ne_eq, not_true, if_false]
  refine ⟨_, ?_, rfl⟩
  rw [apply_ite (fun w : State => w.sys.fwu), State.sendMgt_fwu, ite_self, State.foldl_sendMgt_fwu]

theorem State.rrq_of_status {p : List Byte} (hhoop : s.inHoop = true) (hmode : octet mode = true)
    (hp : p = tftp 3 1 ((Config.statusText s.sys.fwu.result0 s.sys.fwu.result1 s.fwuBoot s.fwuArb s.sys.fwu.outcome).take 512))
    (hu : u = { s with sys.fwu := { s.sys.fwu with peer := some (ip, port), packet := p, sentAt := s.now, tries := 0 } }) :
    s.rrq ip port "status" mode = u.sendMgt ⟨ip, port, p⟩ := by
  subst hu hp
  simp only [State.rrq, hhoop, hmode, Bool.not_true, Bool.false_eq_true, ne_eq, not_true, if_false]

theorem State.tftpAgain_of_silent (hhoop : s.inHoop = true) (hpeer : s.sys.fwu.peer = some (ip, port))
    (hlate : s.sys.fwu.sentAt + 1000000000 ≤ s.now) (htries : s.sys.fwu.tries < 5)
    (hu : u = { s with sys.fwu := { s.sys.fwu with sentAt := s.now, tries := s.sys.fwu.tries + 1 } }) :
    s.tftpAgain = u.sendMgt ⟨ip, port, s.sys.fwu.packet⟩ := by
  subst hu
  simp only [State.tftpAgain, hpeer, hhoop, Nat.not_lt.mpr hlate, Nat.not_le.mpr htries, Bool.not_true, Bool.false_eq_true,
    or_self, if_false]

/-- The bundle stands in both slots when the module reset begins. -/
theorem State.recover_of_bundle {inp : StartIn} (hhoop : s.inHoop = true) (hbundle : s.sys.fwu.bundle ≠ []) :
    ∃ v : State, s.recover inp = v.startUp 1 inp ∧ v.sys.fwu.a = v.sys.fwu.b ∧
      v.sys.fwu.a.pages = pagesOf s.sys.fwu.bundle ∧ v.sys.fwu.bundle = [] := by
  have hready : ¬ ((!s.inHoop) = true ∨ s.sys.fwu.bundle.isEmpty = true) := by simp [hhoop, hbundle]
  unfold State.recover
  rw [if_neg hready]
  refine ⟨_, rfl, rfl, ?_, rfl⟩
  dsimp only
  split <;> rfl

end

/-- Settles O35: each event's conditions choose the branch of its function. -/
theorem updateEventsComplete : Obligations.UpdateEventsComplete := by
  intro s u inp
  refine ⟨fun hbusy hcsr hu => ⟨fun hop => ?erase, fun hop => ?program, fun hop hbad => ?verify⟩,
    fun hst hn hlast hdone => ?step, fun hst hlate hu => ?fail,
    fun ip port mode hhoop hmode => ⟨fun bundle hlen => ?wrq, fun p hp hu => ?rrq, fun hpeer hlate htries hu => ?again⟩,
    fun hhoop hbundle => ?recover⟩
  case erase => exact congrArg Host.Outcome.next (State.fwuOpDone_of_erase hbusy hcsr hop hu)
  case program => exact congrArg Host.Outcome.next (State.fwuOpDone_of_program hbusy hcsr hop hu)
  case verify => exact congrArg Host.Outcome.next (State.fwuOpDone_of_failed_verify hbusy hcsr hop hu hbad)
  case step => exact fun hup => State.moves_of_act rfl (State.updateStep_of_done hup hst hn hlast hdone) hup
  case fail => exact fun hup => State.moves_of_act rfl (State.stepFail_of_late hup hst hlate hu) hup
  case wrq =>
    obtain ⟨w, hfwu, hw⟩ := State.wrq_of_bundle (ip := ip) (port := port) hhoop hmode hlen
    refine ⟨_, congrArg Host.Outcome.next hw, ?_, ?_⟩ <;> rw [← hfwu]
  case rrq => exact congrArg Host.Outcome.next (State.rrq_of_status hhoop hmode hp hu)
  case again => exact congrArg Host.Outcome.next (State.tftpAgain_of_silent hhoop hpeer hlate htries hu)
  case recover =>
    obtain ⟨v, hv, hslots⟩ := State.recover_of_bundle (inp := inp) hhoop hbundle
    exact ⟨v, congrArg Host.Outcome.next hv, hslots⟩

end Sys2Proof.Machine
